-- ==== Sys2Proof/Word.lean ====
section
/-! DEFINITION. The word types of the Jartar Boxel and their plainest arithmetic (spec/00_scope.md R12, R13). -/

namespace Sys2Proof

/-- A byte of memory or scratchpad. -/
abbrev Byte := BitVec 8

/-- A scalar register, a system register, or a virtual address: 64 bits. -/
abbrev Word := BitVec 64

/-- One lane of a vector register, and one instruction word: 32 bits. -/
abbrev Lane := BitVec 32

/-- A mask or predicate entry. The masks of a group are `W` bits wide (R146): bits at or above `W` are zero. -/
abbrev Mask := BitVec 64

/-- `true` as 1 and `false` as 0, in a number. -/
def bit (b : Bool) : Nat := if b then 1 else 0

/-- `true` as 1 and `false` as 0, in a 64-bit word. -/
def bitW (b : Bool) : Word := if b then 1 else 0

/-- The `n` bits of `w` that begin at bit `lo`, as a number. -/
def bitsAt (w : Word) (lo n : Nat) : Nat := w.toNat / 2 ^ lo % 2 ^ n

/-- `w` with its `n` bits from `lo` replaced by the low `n` bits of `v`. -/
def setBits (w : Word) (lo n : Nat) (v : Nat) : Word :=
  BitVec.ofNat 64 (w.toNat % 2 ^ lo + (v % 2 ^ n) * 2 ^ lo + w.toNat / 2 ^ (lo + n) * 2 ^ (lo + n))

/-- The numbers `0, 1, …, n - 1` in rising order. -/
def upto (n : Nat) : List Nat := List.range n

end Sys2Proof
end

