-- ==== Sys2Proof/Syntax.lean ====
section
/-! DEFINITION. The instructions: one constructor per row of spec/opcode_table.json, 197 instruction words and 118 events.

A word's operands carry the field letters of the opcode table: `d`, `a`, `b` register fields (window offsets or vector
registers, R146, R189), `x` and `y` the trap-if-empty policy bits FA and FB (R150), `i` an immediate, `o` an offset, an
operation or an order, `k` and `m` masks, `c` a condition or accumulator, `t` a type, `s` a scope or sub-group. An event's
operands say which agent, command, message or line it concerns, or give the input that arrives from outside. -/

namespace Sys2Proof

/-- An instruction word, or an event of the machine. -/
inductive Instr where
  /-- SADD, R203. -/
  | sadd (d : BitVec 7) (a : BitVec 7) (b : BitVec 7) (x : Bool) (y : Bool)
  /-- SSUB, R203. -/
  | ssub (d : BitVec 7) (a : BitVec 7) (b : BitVec 7) (x : Bool) (y : Bool)
  /-- SMUL, R203. -/
  | smul (d : BitVec 7) (a : BitVec 7) (b : BitVec 7) (x : Bool) (y : Bool)
  /-- SMULH, R203. -/
  | smulh (d : BitVec 7) (a : BitVec 7) (b : BitVec 7) (x : Bool) (y : Bool)
  /-- SMULHN, R203. -/
  | smulhn (d : BitVec 7) (a : BitVec 7) (b : BitVec 7) (x : Bool) (y : Bool)
  /-- SDIV, R204. -/
  | sdiv (d : BitVec 7) (a : BitVec 7) (b : BitVec 7) (x : Bool) (y : Bool)
  /-- SDIVN, R204. -/
  | sdivn (d : BitVec 7) (a : BitVec 7) (b : BitVec 7) (x : Bool) (y : Bool)
  /-- SREM, R204. -/
  | srem (d : BitVec 7) (a : BitVec 7) (b : BitVec 7) (x : Bool) (y : Bool)
  /-- SREMN, R204. -/
  | sremn (d : BitVec 7) (a : BitVec 7) (b : BitVec 7) (x : Bool) (y : Bool)
  /-- SAND, R203. -/
  | sand (d : BitVec 7) (a : BitVec 7) (b : BitVec 7) (x : Bool) (y : Bool)
  /-- SOR, R203. -/
  | sor (d : BitVec 7) (a : BitVec 7) (b : BitVec 7) (x : Bool) (y : Bool)
  /-- SXOR, R203. -/
  | sxor (d : BitVec 7) (a : BitVec 7) (b : BitVec 7) (x : Bool) (y : Bool)
  /-- SANDN, R203. -/
  | sandn (d : BitVec 7) (a : BitVec 7) (b : BitVec 7) (x : Bool) (y : Bool)
  /-- SSHL, R203. -/
  | sshl (d : BitVec 7) (a : BitVec 7) (b : BitVec 7) (x : Bool) (y : Bool)
  /-- SSHR, R203. -/
  | sshr (d : BitVec 7) (a : BitVec 7) (b : BitVec 7) (x : Bool) (y : Bool)
  /-- SSRA, R203. -/
  | ssra (d : BitVec 7) (a : BitVec 7) (b : BitVec 7) (x : Bool) (y : Bool)
  /-- SROT, R203. -/
  | srot (d : BitVec 7) (a : BitVec 7) (b : BitVec 7) (x : Bool) (y : Bool)
  /-- SMIN, R203. -/
  | smin (d : BitVec 7) (a : BitVec 7) (b : BitVec 7) (x : Bool) (y : Bool)
  /-- SMAX, R203. -/
  | smax (d : BitVec 7) (a : BitVec 7) (b : BitVec 7) (x : Bool) (y : Bool)
  /-- SMINN, R203. -/
  | sminn (d : BitVec 7) (a : BitVec 7) (b : BitVec 7) (x : Bool) (y : Bool)
  /-- SMAXN, R203. -/
  | smaxn (d : BitVec 7) (a : BitVec 7) (b : BitVec 7) (x : Bool) (y : Bool)
  /-- SSEL, R203. -/
  | ssel (d : BitVec 7) (a : BitVec 7) (b : BitVec 7) (x : Bool) (y : Bool)
  /-- SCLZ, R205. -/
  | sclz (d : BitVec 7) (a : BitVec 7) (x : Bool)
  /-- SCTZ, R205. -/
  | sctz (d : BitVec 7) (a : BitVec 7) (x : Bool)
  /-- SPOPC, R205. -/
  | spopc (d : BitVec 7) (a : BitVec 7) (x : Bool)
  /-- SBFE, R205. -/
  | sbfe (d : BitVec 7) (a : BitVec 7) (b : BitVec 7) (x : Bool) (y : Bool)
  /-- SBFI, R205. -/
  | sbfi (d : BitVec 7) (a : BitVec 7) (b : BitVec 7) (x : Bool) (y : Bool)
  /-- SSET, R206. -/
  | sset (c : BitVec 3) (d : BitVec 7) (a : BitVec 7) (b : BitVec 7) (x : Bool) (y : Bool)
  /-- SADDI, R207. -/
  | saddi (d : BitVec 7) (a : BitVec 7) (i : BitVec 10)
  /-- SANDI, R207. -/
  | sandi (d : BitVec 7) (a : BitVec 7) (i : BitVec 10)
  /-- SORI, R207. -/
  | sori (d : BitVec 7) (a : BitVec 7) (i : BitVec 10)
  /-- SXORI, R207. -/
  | sxori (d : BitVec 7) (a : BitVec 7) (i : BitVec 10)
  /-- SSHLI, R207. -/
  | sshli (d : BitVec 7) (a : BitVec 7) (n : BitVec 6)
  /-- SSHRI, R207. -/
  | sshri (d : BitVec 7) (a : BitVec 7) (n : BitVec 6)
  /-- SSRAI, R207. -/
  | ssrai (d : BitVec 7) (a : BitVec 7) (n : BitVec 6)
  /-- SMOVI, R208. -/
  | smovi (d : BitVec 7) (i : BitVec 19)
  /-- SHIGH, R208. -/
  | shigh (d : BitVec 7) (i : BitVec 19)
  /-- SFADD, R209. -/
  | sfadd (t : Bool) (d : BitVec 7) (a : BitVec 7) (b : BitVec 7) (x : Bool) (y : Bool)
  /-- SFMUL, R209. -/
  | sfmul (t : Bool) (d : BitVec 7) (a : BitVec 7) (b : BitVec 7) (x : Bool) (y : Bool)
  /-- SFFMA, R209. -/
  | sffma (t : Bool) (d : BitVec 7) (a : BitVec 7) (b : BitVec 7) (x : Bool) (y : Bool)
  /-- SFDIV, R209. -/
  | sfdiv (t : Bool) (d : BitVec 7) (a : BitVec 7) (b : BitVec 7) (x : Bool) (y : Bool)
  /-- SFSET, R210. -/
  | sfset (t : Bool) (c : BitVec 2) (d : BitVec 7) (a : BitVec 7) (b : BitVec 7) (x : Bool) (y : Bool)
  /-- SFCVT, R211. -/
  | sfcvt (p : BitVec 2) (q : BitVec 2) (d : BitVec 7) (a : BitVec 7) (x : Bool)
  /-- PPUSH, R153. -/
  | ppush (k : BitVec 3)
  /-- PINV, R153. -/
  | pinv
  /-- PPOP, R153. -/
  | ppop
  /-- PSETM, R220. -/
  | psetm (k : BitVec 3) (a : BitVec 7) (x : Bool)
  /-- PGETM, R220. -/
  | pgetm (d : BitVec 7) (k : BitVec 3)
  /-- MLOG, R221. -/
  | mlog (o : BitVec 3) (d : BitVec 3) (a : BitVec 3) (b : BitVec 3)
  /-- BR, R213. -/
  | br (o : BitVec 16)
  /-- BRZ, R213. -/
  | brz (a : BitVec 7) (o : BitVec 16)
  /-- BRNZ, R213. -/
  | brnz (a : BitVec 7) (o : BitVec 16)
  /-- BRANY, R213. -/
  | brany (k : BitVec 3) (o : BitVec 16)
  /-- BRALL, R213. -/
  | brall (k : BitVec 3) (o : BitVec 16)
  /-- CALL, R214. -/
  | call (a : BitVec 7) (o : BitVec 16)
  /-- RET, R214. -/
  | ret (a : BitVec 7) (x : Bool)
  /-- JMPI, R214. -/
  | jmpi (a : BitVec 7) (x : Bool)
  /-- YIELD, R215. -/
  | yield
  /-- HALTG, R217. -/
  | haltg
  /-- NOP, R216. -/
  | nop
  /-- REGION, R218. -/
  | region (i : BitVec 19)
  /-- VAND, R225. -/
  | vand (d : BitVec 7) (a : BitVec 7) (b : BitVec 7) (x : Bool) (y : Bool)
  /-- VOR, R225. -/
  | vor (d : BitVec 7) (a : BitVec 7) (b : BitVec 7) (x : Bool) (y : Bool)
  /-- VXOR, R225. -/
  | vxor (d : BitVec 7) (a : BitVec 7) (b : BitVec 7) (x : Bool) (y : Bool)
  /-- VIOTA, R229. -/
  | viota (d : BitVec 7) (b : BitVec 7) (y : Bool)
  /-- VMOVS, R229. -/
  | vmovs (d : BitVec 7) (b : BitVec 7) (y : Bool)
  /-- VSEL, R228. -/
  | vsel (k : BitVec 3) (d : BitVec 7) (a : BitVec 7) (b : BitVec 7) (x : Bool) (y : Bool)
  /-- VCMP, R227. -/
  | vcmp (w : Bool) (c : BitVec 3) (m : BitVec 3) (a : BitVec 7) (b : BitVec 7) (x : Bool) (y : Bool)
  /-- VADD_32, R225. -/
  | vadd32 (d : BitVec 7) (a : BitVec 7) (b : BitVec 7) (x : Bool) (y : Bool)
  /-- VSUB_32, R225. -/
  | vsub32 (d : BitVec 7) (a : BitVec 7) (b : BitVec 7) (x : Bool) (y : Bool)
  /-- VMUL_32, R225. -/
  | vmul32 (d : BitVec 7) (a : BitVec 7) (b : BitVec 7) (x : Bool) (y : Bool)
  /-- VMAD_32, R225. -/
  | vmad32 (d : BitVec 7) (a : BitVec 7) (b : BitVec 7) (x : Bool) (y : Bool)
  /-- VSHL_32, R225. -/
  | vshl32 (d : BitVec 7) (a : BitVec 7) (b : BitVec 7) (x : Bool) (y : Bool)
  /-- VSHR_32, R225. -/
  | vshr32 (d : BitVec 7) (a : BitVec 7) (b : BitVec 7) (x : Bool) (y : Bool)
  /-- VSRA_32, R225. -/
  | vsra32 (d : BitVec 7) (a : BitVec 7) (b : BitVec 7) (x : Bool) (y : Bool)
  /-- VMULH_I32, R225. -/
  | vmulhI32 (d : BitVec 7) (a : BitVec 7) (b : BitVec 7) (x : Bool) (y : Bool)
  /-- VMULH_N32, R225. -/
  | vmulhN32 (d : BitVec 7) (a : BitVec 7) (b : BitVec 7) (x : Bool) (y : Bool)
  /-- VMIN_I32, R225. -/
  | vminI32 (d : BitVec 7) (a : BitVec 7) (b : BitVec 7) (x : Bool) (y : Bool)
  /-- VMIN_N32, R225. -/
  | vminN32 (d : BitVec 7) (a : BitVec 7) (b : BitVec 7) (x : Bool) (y : Bool)
  /-- VMAX_I32, R225. -/
  | vmaxI32 (d : BitVec 7) (a : BitVec 7) (b : BitVec 7) (x : Bool) (y : Bool)
  /-- VMAX_N32, R225. -/
  | vmaxN32 (d : BitVec 7) (a : BitVec 7) (b : BitVec 7) (x : Bool) (y : Bool)
  /-- VSADD_I32, R225. -/
  | vsaddI32 (d : BitVec 7) (a : BitVec 7) (b : BitVec 7) (x : Bool) (y : Bool)
  /-- VSADD_N32, R225. -/
  | vsaddN32 (d : BitVec 7) (a : BitVec 7) (b : BitVec 7) (x : Bool) (y : Bool)
  /-- VSSUB_I32, R225. -/
  | vssubI32 (d : BitVec 7) (a : BitVec 7) (b : BitVec 7) (x : Bool) (y : Bool)
  /-- VSSUB_N32, R225. -/
  | vssubN32 (d : BitVec 7) (a : BitVec 7) (b : BitVec 7) (x : Bool) (y : Bool)
  /-- VBFE_I32, R226. -/
  | vbfeI32 (d : BitVec 7) (a : BitVec 7) (b : BitVec 7) (x : Bool) (y : Bool)
  /-- VBFE_N32, R226. -/
  | vbfeN32 (d : BitVec 7) (a : BitVec 7) (b : BitVec 7) (x : Bool) (y : Bool)
  /-- VADD_64, R225. -/
  | vadd64 (d : BitVec 7) (a : BitVec 7) (b : BitVec 7) (x : Bool) (y : Bool)
  /-- VSUB_64, R225. -/
  | vsub64 (d : BitVec 7) (a : BitVec 7) (b : BitVec 7) (x : Bool) (y : Bool)
  /-- VSHL_64, R225. -/
  | vshl64 (d : BitVec 7) (a : BitVec 7) (b : BitVec 7) (x : Bool) (y : Bool)
  /-- VSHR_64, R225. -/
  | vshr64 (d : BitVec 7) (a : BitVec 7) (b : BitVec 7) (x : Bool) (y : Bool)
  /-- VSRA_64, R225. -/
  | vsra64 (d : BitVec 7) (a : BitVec 7) (b : BitVec 7) (x : Bool) (y : Bool)
  /-- VADD_16, R225. -/
  | vadd16 (d : BitVec 7) (a : BitVec 7) (b : BitVec 7) (x : Bool) (y : Bool)
  /-- VSUB_16, R225. -/
  | vsub16 (d : BitVec 7) (a : BitVec 7) (b : BitVec 7) (x : Bool) (y : Bool)
  /-- VSADD_I16, R225. -/
  | vsaddI16 (d : BitVec 7) (a : BitVec 7) (b : BitVec 7) (x : Bool) (y : Bool)
  /-- VSSUB_I16, R225. -/
  | vssubI16 (d : BitVec 7) (a : BitVec 7) (b : BitVec 7) (x : Bool) (y : Bool)
  /-- VADD_8, R225. -/
  | vadd8 (d : BitVec 7) (a : BitVec 7) (b : BitVec 7) (x : Bool) (y : Bool)
  /-- VSUB_8, R225. -/
  | vsub8 (d : BitVec 7) (a : BitVec 7) (b : BitVec 7) (x : Bool) (y : Bool)
  /-- VSADD_I8, R225. -/
  | vsaddI8 (d : BitVec 7) (a : BitVec 7) (b : BitVec 7) (x : Bool) (y : Bool)
  /-- VSSUB_I8, R225. -/
  | vssubI8 (d : BitVec 7) (a : BitVec 7) (b : BitVec 7) (x : Bool) (y : Bool)
  /-- VFADD, R231. -/
  | vfadd (t : BitVec 2) (d : BitVec 7) (a : BitVec 7) (b : BitVec 7) (x : Bool) (y : Bool)
  /-- VFSUB, R231. -/
  | vfsub (t : BitVec 2) (d : BitVec 7) (a : BitVec 7) (b : BitVec 7) (x : Bool) (y : Bool)
  /-- VFMUL, R231. -/
  | vfmul (t : BitVec 2) (d : BitVec 7) (a : BitVec 7) (b : BitVec 7) (x : Bool) (y : Bool)
  /-- VFFMA, R231. -/
  | vffma (t : BitVec 2) (d : BitVec 7) (a : BitVec 7) (b : BitVec 7) (x : Bool) (y : Bool)
  /-- VFMIN, R231. -/
  | vfmin (t : BitVec 2) (d : BitVec 7) (a : BitVec 7) (b : BitVec 7) (x : Bool) (y : Bool)
  /-- VFMAX, R231. -/
  | vfmax (t : BitVec 2) (d : BitVec 7) (a : BitVec 7) (b : BitVec 7) (x : Bool) (y : Bool)
  /-- VFDIV, R231. -/
  | vfdiv (t : BitVec 2) (d : BitVec 7) (a : BitVec 7) (b : BitVec 7) (x : Bool) (y : Bool)
  /-- VFCMP, R232. -/
  | vfcmp (t : Bool) (c : BitVec 2) (m : BitVec 3) (a : BitVec 7) (b : BitVec 7) (x : Bool) (y : Bool)
  /-- VPACK, R236. -/
  | vpack (f : BitVec 3) (d : BitVec 7) (a : BitVec 7) (b : BitVec 7) (x : Bool) (y : Bool)
  /-- VUNPK, R237. -/
  | vunpk (d : BitVec 7) (a : BitVec 7) (f : BitVec 4) (j : BitVec 2)
  /-- VSCALE, R238. -/
  | vscale (d : BitVec 7) (a : BitVec 7) (i : BitVec 10)
  /-- VSHUF, R240. -/
  | vshuf (s : BitVec 3) (d : BitVec 7) (a : BitVec 7) (b : BitVec 7) (x : Bool) (y : Bool)
  /-- VBCAST, R241. -/
  | vbcast (d : BitVec 7) (a : BitVec 7) (b : BitVec 7) (x : Bool) (y : Bool)
  /-- VBALLOT, R242. -/
  | vballot (d : BitVec 7) (a : BitVec 7) (x : Bool)
  /-- VXCH, R245. -/
  | vxch (d : BitVec 7) (b : BitVec 7) (y : Bool)
  /-- VREBAL, R247. -/
  | vrebal (k : BitVec 3) (d : BitVec 7) (a : BitVec 7) (b : BitVec 7) (x : Bool) (y : Bool)
  /-- VABS, R230. -/
  | vabs (w : BitVec 2) (d : BitVec 7) (a : BitVec 7) (x : Bool)
  /-- VNEG, R230. -/
  | vneg (w : BitVec 2) (d : BitVec 7) (a : BitVec 7) (x : Bool)
  /-- VCLZ, R230. -/
  | vclz (w : BitVec 2) (d : BitVec 7) (a : BitVec 7) (x : Bool)
  /-- VPOPC, R230. -/
  | vpopc (w : BitVec 2) (d : BitVec 7) (a : BitVec 7) (x : Bool)
  /-- VMOV, R230. -/
  | vmov (w : Bool) (d : BitVec 7) (a : BitVec 7) (x : Bool)
  /-- VFSQRT, R233. -/
  | vfsqrt (t : BitVec 2) (d : BitVec 7) (a : BitVec 7) (x : Bool)
  /-- VFRCP, R233. -/
  | vfrcp (t : BitVec 2) (d : BitVec 7) (a : BitVec 7) (x : Bool)
  /-- VFRSQ, R233. -/
  | vfrsq (t : BitVec 2) (d : BitVec 7) (a : BitVec 7) (x : Bool)
  /-- VFEXP2, R233. -/
  | vfexp2 (t : BitVec 2) (d : BitVec 7) (a : BitVec 7) (x : Bool)
  /-- VFLOG2, R233. -/
  | vflog2 (t : BitVec 2) (d : BitVec 7) (a : BitVec 7) (x : Bool)
  /-- VFCLASS, R234. -/
  | vfclass (t : BitVec 2) (d : BitVec 7) (a : BitVec 7) (x : Bool)
  /-- VFABS, R233. -/
  | vfabs (t : BitVec 2) (d : BitVec 7) (a : BitVec 7) (x : Bool)
  /-- VFNEG, R233. -/
  | vfneg (t : BitVec 2) (d : BitVec 7) (a : BitVec 7) (x : Bool)
  /-- VCVT, R235. -/
  | vcvt (p : BitVec 4) (q : BitVec 4) (d : BitVec 7) (a : BitVec 7) (x : Bool)
  /-- VRED, R243. -/
  | vred (o : BitVec 3) (t : BitVec 3) (d : BitVec 7) (a : BitVec 7) (x : Bool)
  /-- VSCAN, R244. -/
  | vscan (o : BitVec 3) (t : BitVec 3) (d : BitVec 7) (a : BitVec 7) (x : Bool)
  /-- MMA, R259. -/
  | mma (f : BitVec 3) (c : BitVec 3) (a : BitVec 7) (b : BitVec 7) (r : Bool) (e : BitVec 2) (x : Bool) (y : Bool)
  /-- MMAS, R260. -/
  | mmas (f : BitVec 3) (c : BitVec 3) (a : BitVec 7) (b : BitVec 7) (r : Bool) (e : BitVec 2) (p : Bool) (x : Bool) (y : Bool)
  /-- MXE_OPERATION, R267. -/
  | mxeOperation (core : Nat)
  /-- MGANG, R255. -/
  | mgang (a : BitVec 7) (x : Bool)
  /-- MZERO, R263. -/
  | mzero (c : BitVec 3)
  /-- MACCR, R264. -/
  | maccr (d : BitVec 7) (c : BitVec 3) (b : BitVec 7) (y : Bool)
  /-- MACCW, R265. -/
  | maccw (c : BitVec 3) (a : BitVec 7) (b : BitVec 7) (x : Bool) (y : Bool)
  /-- MACCST, R266. -/
  | maccst (c : BitVec 3) (a : BitVec 7) (x : Bool)
  /-- MACCLD, R266. -/
  | maccld (c : BitVec 3) (a : BitVec 7) (x : Bool)
  /-- VLD, R277. -/
  | vld (f : BitVec 3) (d : BitVec 7) (a : BitVec 7) (b : BitVec 7) (x : Bool) (y : Bool)
  /-- VST, R277. -/
  | vst (f : BitVec 3) (d : BitVec 7) (a : BitVec 7) (b : BitVec 7) (x : Bool) (y : Bool)
  /-- VLDS, R278. -/
  | vlds (f : BitVec 3) (d : BitVec 7) (a : BitVec 7) (b : BitVec 7) (x : Bool) (y : Bool)
  /-- VLDP, R279. -/
  | vldp (w : Bool) (d : BitVec 7) (a : BitVec 7) (x : Bool)
  /-- VSTP, R279. -/
  | vstp (w : Bool) (d : BitVec 7) (a : BitVec 7) (x : Bool)
  /-- VGATH, R280. -/
  | vgath (w : Bool) (d : BitVec 7) (a : BitVec 7) (b : BitVec 7) (x : Bool) (y : Bool)
  /-- VSCAT, R280. -/
  | vscat (w : Bool) (d : BitVec 7) (a : BitVec 7) (b : BitVec 7) (x : Bool) (y : Bool)
  /-- VLDO, R283. -/
  | vldo (d : BitVec 7) (a : BitVec 7) (x : Bool) (p : Bool) (t : BitVec 3) (o : BitVec 2) (s : BitVec 2)
  /-- SLDO, R283. -/
  | sldo (d : BitVec 7) (a : BitVec 7) (x : Bool) (p : Bool) (t : BitVec 3) (o : BitVec 2) (s : BitVec 2)
  /-- VSTO, R283. -/
  | vsto (d : BitVec 7) (a : BitVec 7) (x : Bool) (t : BitVec 3) (o : BitVec 2) (s : BitVec 2)
  /-- SSTO, R283. -/
  | ssto (d : BitVec 7) (a : BitVec 7) (x : Bool) (t : BitVec 3) (o : BitVec 2) (s : BitVec 2)
  /-- SWAITGE, R285. -/
  | swaitge (d : BitVec 7) (a : BitVec 7) (x : Bool) (p : Bool) (t : BitVec 3) (o : BitVec 2) (s : BitVec 2)
  /-- SLD, R281. -/
  | sld (d : BitVec 7) (a : BitVec 7) (x : Bool) (t : BitVec 3)
  /-- SST, R281. -/
  | sst (d : BitVec 7) (a : BitVec 7) (x : Bool) (t : BitVec 3)
  /-- POLL_REPERFORM, R286. -/
  | pollReperform (agent id : Nat)
  /-- XLD, R282. -/
  | xld (m : BitVec 2) (z : Bool) (d : BitVec 7) (a : BitVec 7) (b : BitVec 7) (x : Bool) (y : Bool)
  /-- XST, R282. -/
  | xst (m : BitVec 2) (z : Bool) (d : BitVec 7) (a : BitVec 7) (b : BitVec 7) (x : Bool) (y : Bool)
  /-- VATOM, R289. -/
  | vatom (o : BitVec 3) (d : BitVec 7) (a : BitVec 7) (x : Bool) (t : BitVec 3) (r : BitVec 2) (s : BitVec 2)
  /-- SATOM, R289. -/
  | satom (o : BitVec 3) (d : BitVec 7) (a : BitVec 7) (x : Bool) (t : BitVec 3) (r : BitVec 2) (s : BitVec 2)
  /-- FENCE, R291. -/
  | fence (o : BitVec 2) (s : BitVec 2)
  /-- ZLD, R293. -/
  | zld (d : BitVec 7) (a : BitVec 7) (b : BitVec 7) (x : Bool) (y : Bool)
  /-- ZST, R70. -/
  | zst (d : BitVec 7) (a : BitVec 7) (b : BitVec 7) (x : Bool) (y : Bool)
  /-- ZCUR_OPEN, R74. -/
  | zcurOpen (d : BitVec 7) (a : BitVec 7) (b : BitVec 7) (x : Bool) (y : Bool)
  /-- ZCUR_CLOSE, R295. -/
  | zcurClose (d : BitVec 7) (a : BitVec 7) (x : Bool)
  /-- ZNEXT, R75. -/
  | znext (k : Bool) (d : BitVec 7) (a : BitVec 7) (b : BitVec 7) (x : Bool) (y : Bool)
  /-- ZGEN, R68. -/
  | zgen (d : BitVec 7) (a : BitVec 7) (b : BitVec 7) (x : Bool) (y : Bool)
  /-- ZATOM, R294. -/
  | zatom (o : BitVec 3) (d : BitVec 7) (a : BitVec 7) (b : BitVec 7) (x : Bool) (y : Bool)
  /-- RECLAIM_SWEEP, R76. -/
  | reclaimSweep (region : Nat)
  /-- PUSH, R302. -/
  | push (d : BitVec 7) (a : BitVec 7) (q : BitVec 4)
  /-- WAITC, R307. -/
  | waitc (m : BitVec 6)
  /-- SGETWP, R308. -/
  | sgetwp (d : BitVec 7) (c : BitVec 2)
  /-- TRECLD, R309. -/
  | trecld (d : BitVec 7) (a : BitVec 7) (k : BitVec 3) (x : Bool)
  /-- BARINIT, R157. -/
  | barinit (a : BitVec 7) (b : BitVec 5) (x : Bool)
  /-- BARARV, R157. -/
  | bararv (b : BitVec 5)
  /-- BARARW, R157. -/
  | bararw (b : BitVec 5)
  /-- BARW, R157. -/
  | barw (b : BitVec 5)
  /-- RINGPUT_CLAIM, R156. -/
  | ringputClaim (d : BitVec 7) (r : BitVec 3)
  /-- RINGPUT_PUB, R156. -/
  | ringputPub (d : BitVec 7) (r : BitVec 3)
  /-- RINGGET_TAKE, R156. -/
  | ringgetTake (d : BitVec 7) (r : BitVec 3)
  /-- RINGGET_FREE, R156. -/
  | ringgetFree (d : BitVec 7) (r : BitVec 3)
  /-- MBPOST, R315. -/
  | mbpost (a : BitVec 7) (b : BitVec 7) (x : Bool) (y : Bool)
  /-- MBTAKE, R316. -/
  | mbtake (d : BitVec 7) (a : BitVec 7) (b : BitVec 7) (x : Bool) (y : Bool)
  /-- TXBEGIN, R317. -/
  | txbegin (d : BitVec 7) (n : BitVec 4)
  /-- TXEND, R319. -/
  | txend (d : BitVec 7)
  /-- TXABORT, R321. -/
  | txabort (n : BitVec 7)
  /-- TXSTAT, R322. -/
  | txstat (d : BitVec 7)
  /-- SRD, R325. -/
  | srd (d : BitVec 7) (n : BitVec 19)
  /-- SWR, R325. -/
  | swr (d : BitVec 7) (n : BitVec 19)
  /-- TRAP, R323. -/
  | trap (n : BitVec 7)
  /-- ERET, R324. -/
  | eret
  /-- TINVA, R53. -/
  | tinva (d : BitVec 7) (a : BitVec 7) (b : BitVec 7) (x : Bool) (y : Bool)
  /-- TINVC, R54. -/
  | tinvc (d : BitVec 7) (a : BitVec 7) (x : Bool)
  /-- LAUNCH, R327. -/
  | launch (d : BitVec 7) (a : BitVec 7)
  /-- ARML, R328. -/
  | arml (d : BitVec 7) (a : BitVec 7) (b : BitVec 7) (x : Bool) (y : Bool)
  /-- CTXSAVE, R329. -/
  | ctxsave (d : BitVec 7) (a : BitVec 7) (x : Bool)
  /-- CTXLOAD, R329. -/
  | ctxload (d : BitVec 7) (a : BitVec 7) (x : Bool)
  /-- IDLE, R330. -/
  | idle
  /-- KEYSEL, R331. -/
  | keysel (a : BitVec 7) (x : Bool)
  /-- RTCALL, R332. -/
  | rtcall (d : BitVec 7) (a : BitVec 7) (x : Bool)
  /-- RT_MEASUREMENT_LOG, R410. -/
  | rtMeasurementLog (agent id : Nat)
  /-- RT_QUOTE, R410. -/
  | rtQuote (agent id : Nat)
  /-- RT_RANDOM, R410. -/
  | rtRandom (agent id : Nat)
  /-- SPDM_REQUEST, R410. -/
  | spdmRequest (request : List Nat)
  /-- CLAUSE_FETCH, R186. -/
  | clauseFetch (agent : Nat)
  /-- LONG_LATENCY_LANDING, R150. -/
  | longLatencyLanding (agent id : Nat)
  /-- VXCH_MATCH, R245. -/
  | vxchMatch (agent partner : Nat)
  /-- VXCH_TIMEOUT, R246. -/
  | vxchTimeout (agent : Nat)
  /-- THROTTLE_INTERVAL, R376. -/
  | throttleInterval (core : Nat)
  /-- COPY, R106. -/
  | copy (cmd : Nat)
  /-- MULTICAST_COPY, R112. -/
  | multicastCopy (cmd : Nat)
  /-- DENSIFY, R77. -/
  | densify (cmd : Nat)
  /-- QFENCE, R113. -/
  | qfence (cmd : Nat)
  /-- GATHER, R120. -/
  | gather (cmd : Nat)
  /-- SECTOR_DELIVERY, R109. -/
  | sectorDelivery (cmd : Nat)
  /-- COMMAND_COMPLETE, R301. -/
  | commandComplete (cmd : Nat)
  /-- RQC_WINDOW_TIMEOUT, R117. -/
  | rqcWindowTimeout (core : Nat)
  /-- RQC_LINE_RETURN, R119. -/
  | rqcLineReturn (core line : Nat)
  /-- PASS_OPEN, R127. -/
  | passOpen (cmd : Nat)
  /-- SUBSCRIBE, R129. -/
  | subscribe (cmd : Nat)
  /-- START, R127. -/
  | start (cmd : Nat)
  /-- ABORT, R141. -/
  | abort (cmd : Nat)
  /-- SWEEP_FETCH, R130. -/
  | sweepFetch (die pix : Nat)
  /-- CATCHUP_FETCH, R131. -/
  | catchupFetch (die pix share : Nat)
  /-- DELIVER, R132. -/
  | deliver (die image share : Nat)
  /-- MERGE_RECORD, R136. -/
  | mergeRecord (die : Nat)
  /-- MIGRATION, R30. -/
  | migration (cmd : Nat)
  /-- MIGRATION_RELEASE, R32. -/
  | migrationRelease (cmd : Nat)
  /-- MIGRATION_LINE, R30. -/
  | migrationLine (ctx : Nat)
  /-- MIGRATION_LINE_LANDS, R30. -/
  | migrationLineLands (ctx : Nat)
  /-- WALK_COMPLETE, R47. -/
  | walkComplete (walk : Nat)
  /-- INVALIDATION_COMPLETE, R54. -/
  | invalidationComplete (num : Nat)
  /-- GETS, R90. -/
  | gets (msg : Nat)
  /-- GETX, R90. -/
  | getx (msg : Nat)
  /-- UPG, R90. -/
  | upg (msg : Nat)
  /-- RDU, R90. -/
  | rdu (msg : Nat)
  /-- MWB, R85. -/
  | mwb (msg : Nat)
  /-- FAR_ATOMIC, R93. -/
  | farAtomic (msg : Nat)
  /-- PUTM, R90. -/
  | putm (msg : Nat)
  /-- PUTE, R90. -/
  | pute (msg : Nat)
  /-- MEMORY_DATA, R91. -/
  | memoryData (msg : Nat)
  /-- INVACK, R91. -/
  | invack (msg : Nat)
  /-- FWDACK, R91. -/
  | fwdack (msg : Nat)
  /-- DONE, R91. -/
  | doneMsg (msg : Nat)
  /-- FWD_DATA_COPY, R91. -/
  | fwdDataCopy (msg : Nat)
  /-- RECALL_ACK, R91. -/
  | recallAck (msg : Nat)
  /-- GRANT, R92. -/
  | grant (msg : Nat)
  /-- INV, R92. -/
  | invMsg (msg : Nat)
  /-- FWDS, R92. -/
  | fwds (msg : Nat)
  /-- FWDX, R92. -/
  | fwdx (msg : Nat)
  /-- FWDD, R92. -/
  | fwdd (msg : Nat)
  /-- RCL, R92. -/
  | rclMsg (msg : Nat)
  /-- PUTACK, R92. -/
  | putack (msg : Nat)
  /-- SPILL_RETURN, R99. -/
  | spillReturn (msg : Nat)
  /-- ERROR_RESPONSE, R101. -/
  | errorResponse (msg : Nat)
  /-- SLC_PCDUMP, R27. -/
  | slcPcdump (slice : Nat) (value : BitVec 64)
  /-- PCDUMP_COPY_DONE, R27. -/
  | pcdumpCopyDone (slice : Nat)
  /-- ZRG_REGISTER, R59. -/
  | zrgRegister (value : BitVec 64)
  /-- ZRG_UNREGISTER, R60. -/
  | zrgUnregister (value : BitVec 64)
  /-- TEAM_RING_WRITE, R155. -/
  | teamRingWrite (ring : Nat) (value : BitVec 64)
  /-- GRP_RM_WRITE, R176. -/
  | grpRmWrite (value : BitVec 64)
  /-- GRP_TRSM_WRITE, R385. -/
  | grpTrsmWrite (value : BitVec 64)
  /-- RQC_CTL_WRITE, R119. -/
  | rqcCtlWrite (value : BitVec 64)
  /-- CORE_THROTTLE_WRITE, R376. -/
  | coreThrottleWrite (value : BitVec 64)
  /-- SLC_ERR_CLEAR, R84. -/
  | slcErrClear (slice : Nat) (value : BitVec 64)
  /-- CPE_ERR_CLEAR, R115. -/
  | cpeErrClear (channel : Nat) (value : BitVec 64)
  /-- RQC_ERR_CLEAR, R115. -/
  | rqcErrClear (value : BitVec 64)
  /-- DSP_SVBASE_WRITE, R395. -/
  | dspSvbaseWrite (value : BitVec 64)
  /-- DSP_SVLEN_WRITE, R395. -/
  | dspSvlenWrite (value : BitVec 64)
  /-- FRQ_BASE_WRITE, R388. -/
  | frqBaseWrite (value : BitVec 64)
  /-- DTR_IRQ_CLEAR, R404. -/
  | dtrIrqClear (value : BitVec 64)
  /-- NET_RX_WRITE, R413. -/
  | netRxWrite (part : Nat) (value : BitVec 64)
  /-- NET_RXT_WRITE, R413. -/
  | netRxtWrite (part : Nat) (value : BitVec 64)
  /-- PWR_CAP_WRITE, R414. -/
  | pwrCapWrite (value : BitVec 64)
  /-- ACCESS_TABLE_WRITE, R437. -/
  | accessTableWrite (mid : Nat) (pa : BitVec 64) (value : BitVec 32)
  /-- DBG_STOP, R437. -/
  | dbgStop (mid : Nat) (pa : BitVec 64) (value : BitVec 64)
  /-- DEBUG_TRAP, R382. -/
  | debugTrap (agent : Nat)
  /-- SYSREG_WRITE, R325. -/
  | sysregWrite (number : Nat) (value : BitVec 64)
  /-- HELD_RECORD_WRITE, R390. -/
  | heldRecordWrite (die : Nat)
  /-- FRQ_RESP_RESUME, R391. -/
  | frqRespResume (value : BitVec 64)
  /-- FRQ_RESP_KILL_ACCESS, R391. -/
  | frqRespKillAccess (value : BitVec 64)
  /-- FRQ_RESP_KILL_LAUNCH, R391. -/
  | frqRespKillLaunch (value : BitVec 64)
  /-- LAUNCH_COMMAND, R365. -/
  | launchCommand (cmd : Nat)
  /-- SETDET, R377. -/
  | setdet (cmd : Nat)
  /-- START_CONDITION_POLL, R367. -/
  | startConditionPoll (cmd : Nat)
  /-- BLOCK_PLACEMENT, R371. -/
  | blockPlacement (lnum : Nat)
  /-- BLOCK_END, R371. -/
  | blockEnd (lnum block : Nat)
  /-- PREEMPTION, R393. -/
  | preemption (lnum block : Nat)
  /-- STOP_LIMIT, R394. -/
  | stopLimit (agent : Nat)
  /-- BLOCK_RESUME, R397. -/
  | blockResume (lnum block : Nat)
  /-- ORDERED_FLUSH, R378. -/
  | orderedFlush (lnum block : Nat)
  /-- RANK_END_REPORT, R378. -/
  | rankEndReport (lnum : Nat)
  /-- TICKET_REQUEST, R354. -/
  | ticketRequest (agent : Nat)
  /-- RESERVATION_HEAD, R355. -/
  | reservationHead (slice : Nat)
  /-- VALIDATION_ANSWERS, R355. -/
  | validationAnswers (agent : Nat)
  /-- COMMIT_WRITE, R355. -/
  | commitWrite (slice : Nat)
  /-- FALLBACK_LOCK_GRANT, R361. -/
  | fallbackLockGrant
  /-- MERGE, R406. -/
  | merge (cmd : Nat)
  /-- SPLIT, R406. -/
  | split (cmd : Nat)
  /-- PM_RESET, R408. -/
  | pmReset (cmd : Nat)
  /-- PM_FENCE, R408. -/
  | pmFence (cmd : Nat)
  /-- RESTART, R409. -/
  | restart (cmd : Nat)
  /-- QUIESCE_DRAINED, R406. -/
  | quiesceDrained
  /-- QUIESCE_TIMEOUT, R406. -/
  | quiesceTimeout
  /-- PHASE2_COMPLETE, R406. -/
  | phase2Complete
  /-- SEND, R413. -/
  | send (cmd : Nat)
  /-- ETH_MESSAGE_RECEIVE, R413. -/
  | ethMessageReceive (port tag node pkg : Nat) (payload : List Nat)
  /-- CXL_DOORBELL, R411. -/
  | cxlDoorbell (port : Nat)
  /-- CXL_MEM_REQUEST, R411. -/
  | cxlMemRequest (port mid key offset : Nat) (write : Bool) (bytes : List Nat)
  /-- LINK_TRAINING_FAILURE, R412. -/
  | linkTrainingFailure (link : Nat)
  /-- POWER_THROTTLE, R414. -/
  | powerThrottle
  /-- PACKAGE_RESET, R410. -/
  | packageReset (node : Nat) (stages : List (Bool × List Nat))
  /-- ILLEGAL_INSTRUCTION, R193. -/
  | illegalInstruction (agent : Nat)
  /-- PCIE_FUNCTION_REQUEST, R37. -/
  | pcieFunctionRequest (mid : Nat) (pa : BitVec 64) (write : Bool) (config : Bool) (bytes : List Nat)
  /-- ROOT_OF_TRUST_NOTICE, R404. -/
  | rootOfTrustNotice (part : Nat)
  deriving DecidableEq, Repr

end Sys2Proof
end

