-- ==== Sys2Proof/Decode.lean ====
section
/-! DEFINITION. Decoding of instruction words by Tables 9.2 to 9.7 (spec/09_encoding_assembly.md, R189 to R193), total on any
word and rejecting by name, and the encoder written from the same tables. The combinations that the notes under the tables
exclude are decoded here and rejected by `WellFormed`. -/

namespace Sys2Proof

/-- Why a word is no instruction (R193). -/
inductive Reject where
  /-- `MAJ` is unassigned. -/
  | unassignedMajor
  /-- The function or extended opcode is unassigned. -/
  | unassignedFunction
  /-- A field that the tables leave unused is nonzero. -/
  | unusedField
  deriving DecidableEq, Repr

/-- The `n` bits of a word from bit `lo`, as a number. -/
def bits (w : Lane) (lo n : Nat) : Nat := w.toNat / 2 ^ lo % 2 ^ n

/-- A field of a word. -/
def fld (w : Lane) (lo n : Nat) : BitVec n := BitVec.ofNat n (w.toNat / 2 ^ lo)

/-- A one-bit field of a word. -/
def flag (w : Lane) (lo : Nat) : Bool := w.toNat / 2 ^ lo % 2 == 1

/-- MAJ 0x01. -/
def decode01 (w : Lane) : Except Reject Instr :=
  if bits w 23 3 = 0 then .ok (.sadd (fld w 16 7) (fld w 9 7) (fld w 2 7) (flag w 1) (flag w 0)) else
  if bits w 23 3 = 1 then .ok (.ssub (fld w 16 7) (fld w 9 7) (fld w 2 7) (flag w 1) (flag w 0)) else
  if bits w 23 3 = 2 then .ok (.smul (fld w 16 7) (fld w 9 7) (fld w 2 7) (flag w 1) (flag w 0)) else
  if bits w 23 3 = 3 then .ok (.smulh (fld w 16 7) (fld w 9 7) (fld w 2 7) (flag w 1) (flag w 0)) else
  if bits w 23 3 = 4 then .ok (.smulhn (fld w 16 7) (fld w 9 7) (fld w 2 7) (flag w 1) (flag w 0)) else
  if bits w 23 3 = 5 then .ok (.sdiv (fld w 16 7) (fld w 9 7) (fld w 2 7) (flag w 1) (flag w 0)) else
  if bits w 23 3 = 6 then .ok (.sdivn (fld w 16 7) (fld w 9 7) (fld w 2 7) (flag w 1) (flag w 0)) else
  if bits w 23 3 = 7 then .ok (.srem (fld w 16 7) (fld w 9 7) (fld w 2 7) (flag w 1) (flag w 0)) else
  .error .unassignedFunction

/-- MAJ 0x02. -/
def decode02 (w : Lane) : Except Reject Instr :=
  if bits w 23 3 = 0 then .ok (.sremn (fld w 16 7) (fld w 9 7) (fld w 2 7) (flag w 1) (flag w 0)) else
  if bits w 23 3 = 1 then .ok (.sand (fld w 16 7) (fld w 9 7) (fld w 2 7) (flag w 1) (flag w 0)) else
  if bits w 23 3 = 2 then .ok (.sor (fld w 16 7) (fld w 9 7) (fld w 2 7) (flag w 1) (flag w 0)) else
  if bits w 23 3 = 3 then .ok (.sxor (fld w 16 7) (fld w 9 7) (fld w 2 7) (flag w 1) (flag w 0)) else
  if bits w 23 3 = 4 then .ok (.sandn (fld w 16 7) (fld w 9 7) (fld w 2 7) (flag w 1) (flag w 0)) else
  if bits w 23 3 = 5 then .ok (.sshl (fld w 16 7) (fld w 9 7) (fld w 2 7) (flag w 1) (flag w 0)) else
  if bits w 23 3 = 6 then .ok (.sshr (fld w 16 7) (fld w 9 7) (fld w 2 7) (flag w 1) (flag w 0)) else
  if bits w 23 3 = 7 then .ok (.ssra (fld w 16 7) (fld w 9 7) (fld w 2 7) (flag w 1) (flag w 0)) else
  .error .unassignedFunction

/-- MAJ 0x03. -/
def decode03 (w : Lane) : Except Reject Instr :=
  if bits w 23 3 = 0 then .ok (.srot (fld w 16 7) (fld w 9 7) (fld w 2 7) (flag w 1) (flag w 0)) else
  if bits w 23 3 = 1 then .ok (.smin (fld w 16 7) (fld w 9 7) (fld w 2 7) (flag w 1) (flag w 0)) else
  if bits w 23 3 = 2 then .ok (.smax (fld w 16 7) (fld w 9 7) (fld w 2 7) (flag w 1) (flag w 0)) else
  if bits w 23 3 = 3 then .ok (.sminn (fld w 16 7) (fld w 9 7) (fld w 2 7) (flag w 1) (flag w 0)) else
  if bits w 23 3 = 4 then .ok (.smaxn (fld w 16 7) (fld w 9 7) (fld w 2 7) (flag w 1) (flag w 0)) else
  if bits w 23 3 = 5 then .ok (.ssel (fld w 16 7) (fld w 9 7) (fld w 2 7) (flag w 1) (flag w 0)) else
  .error .unassignedFunction

/-- MAJ 0x04. -/
def decode04 (w : Lane) : Except Reject Instr :=
  if bits w 23 3 = 0 then if bits w 0 1 = 0 ∧ bits w 2 7 = 0 then .ok (.sclz (fld w 16 7) (fld w 9 7) (flag w 1)) else .error .unusedField else
  if bits w 23 3 = 1 then if bits w 0 1 = 0 ∧ bits w 2 7 = 0 then .ok (.sctz (fld w 16 7) (fld w 9 7) (flag w 1)) else .error .unusedField else
  if bits w 23 3 = 2 then if bits w 0 1 = 0 ∧ bits w 2 7 = 0 then .ok (.spopc (fld w 16 7) (fld w 9 7) (flag w 1)) else .error .unusedField else
  if bits w 23 3 = 3 then .ok (.sbfe (fld w 16 7) (fld w 9 7) (fld w 2 7) (flag w 1) (flag w 0)) else
  if bits w 23 3 = 4 then .ok (.sbfi (fld w 16 7) (fld w 9 7) (fld w 2 7) (flag w 1) (flag w 0)) else
  .error .unassignedFunction

/-- MAJ 0x05. -/
def decode05 (w : Lane) : Except Reject Instr :=
  if bits w 23 3 ≤ 5 then .ok (.sset (fld w 23 3) (fld w 16 7) (fld w 9 7) (fld w 2 7) (flag w 1) (flag w 0)) else
  .error .unassignedFunction

/-- MAJ 0x08. -/
def decode08 (w : Lane) : Except Reject Instr :=
  if bits w 24 2 = 0 then .ok (.saddi (fld w 17 7) (fld w 10 7) (fld w 0 10)) else
  if bits w 24 2 = 1 then .ok (.sandi (fld w 17 7) (fld w 10 7) (fld w 0 10)) else
  if bits w 24 2 = 2 then .ok (.sori (fld w 17 7) (fld w 10 7) (fld w 0 10)) else
  if bits w 24 2 = 3 then .ok (.sxori (fld w 17 7) (fld w 10 7) (fld w 0 10)) else
  .error .unassignedFunction

/-- MAJ 0x09. -/
def decode09 (w : Lane) : Except Reject Instr :=
  if bits w 24 2 = 0 then if bits w 6 4 = 0 then .ok (.sshli (fld w 17 7) (fld w 10 7) (fld w 0 6)) else .error .unusedField else
  if bits w 24 2 = 1 then if bits w 6 4 = 0 then .ok (.sshri (fld w 17 7) (fld w 10 7) (fld w 0 6)) else .error .unusedField else
  if bits w 24 2 = 2 then if bits w 6 4 = 0 then .ok (.ssrai (fld w 17 7) (fld w 10 7) (fld w 0 6)) else .error .unusedField else
  .error .unassignedFunction

/-- MAJ 0x0A. -/
def decode0A (w : Lane) : Except Reject Instr :=
  .ok (.smovi (fld w 19 7) (fld w 0 19))

/-- MAJ 0x0B. -/
def decode0B (w : Lane) : Except Reject Instr :=
  .ok (.shigh (fld w 19 7) (fld w 0 19))

/-- MAJ 0x0C. -/
def decode0C (w : Lane) : Except Reject Instr :=
  if bits w 23 2 = 0 then .ok (.sfadd (flag w 25) (fld w 16 7) (fld w 9 7) (fld w 2 7) (flag w 1) (flag w 0)) else
  if bits w 23 2 = 1 then .ok (.sfmul (flag w 25) (fld w 16 7) (fld w 9 7) (fld w 2 7) (flag w 1) (flag w 0)) else
  if bits w 23 2 = 2 then .ok (.sffma (flag w 25) (fld w 16 7) (fld w 9 7) (fld w 2 7) (flag w 1) (flag w 0)) else
  if bits w 23 2 = 3 then .ok (.sfdiv (flag w 25) (fld w 16 7) (fld w 9 7) (fld w 2 7) (flag w 1) (flag w 0)) else
  .error .unassignedFunction

/-- MAJ 0x0D. -/
def decode0D (w : Lane) : Except Reject Instr :=
  .ok (.sfset (flag w 25) (fld w 23 2) (fld w 16 7) (fld w 9 7) (fld w 2 7) (flag w 1) (flag w 0))

/-- MAJ 0x0E. -/
def decode0E (w : Lane) : Except Reject Instr :=
  if bits w 23 3 = 0 then if bits w 0 9 = 0 ∧ bits w 12 11 = 0 then .ok (.ppush (fld w 9 3)) else .error .unusedField else
  if bits w 23 3 = 1 then if bits w 0 23 = 0 then .ok .pinv else .error .unusedField else
  if bits w 23 3 = 2 then if bits w 0 23 = 0 then .ok .ppop else .error .unusedField else
  if bits w 23 3 = 3 then if bits w 0 1 = 0 ∧ bits w 2 7 = 0 ∧ bits w 19 4 = 0 then .ok (.psetm (fld w 16 3) (fld w 9 7) (flag w 1)) else .error .unusedField else
  if bits w 23 3 = 4 then if bits w 0 9 = 0 ∧ bits w 12 4 = 0 then .ok (.pgetm (fld w 16 7) (fld w 9 3)) else .error .unusedField else
  .error .unassignedFunction

/-- MAJ 0x0F. -/
def decode0F (w : Lane) : Except Reject Instr :=
  if bits w 23 3 ≤ 5 then if bits w 0 2 = 0 ∧ bits w 5 4 = 0 ∧ bits w 12 4 = 0 ∧ bits w 19 4 = 0 then .ok (.mlog (fld w 23 3) (fld w 16 3) (fld w 9 3) (fld w 2 3)) else .error .unusedField else
  .error .unassignedFunction

/-- MAJ 0x10. -/
def decode10 (w : Lane) : Except Reject Instr :=
  if bits w 23 3 = 0 then if bits w 16 7 = 0 then .ok (.br (fld w 0 16)) else .error .unusedField else
  if bits w 23 3 = 1 then .ok (.brz (fld w 16 7) (fld w 0 16)) else
  if bits w 23 3 = 2 then .ok (.brnz (fld w 16 7) (fld w 0 16)) else
  if bits w 23 3 = 3 then if bits w 19 4 = 0 then .ok (.brany (fld w 16 3) (fld w 0 16)) else .error .unusedField else
  if bits w 23 3 = 4 then if bits w 19 4 = 0 then .ok (.brall (fld w 16 3) (fld w 0 16)) else .error .unusedField else
  if bits w 23 3 = 5 then .ok (.call (fld w 16 7) (fld w 0 16)) else
  .error .unassignedFunction

/-- MAJ 0x11. -/
def decode11 (w : Lane) : Except Reject Instr :=
  if bits w 23 3 = 0 then if bits w 0 1 = 0 ∧ bits w 2 7 = 0 ∧ bits w 16 7 = 0 then .ok (.ret (fld w 9 7) (flag w 1)) else .error .unusedField else
  if bits w 23 3 = 1 then if bits w 0 1 = 0 ∧ bits w 2 7 = 0 ∧ bits w 16 7 = 0 then .ok (.jmpi (fld w 9 7) (flag w 1)) else .error .unusedField else
  if bits w 23 3 = 2 then if bits w 0 23 = 0 then .ok .yield else .error .unusedField else
  if bits w 23 3 = 3 then if bits w 0 23 = 0 then .ok .haltg else .error .unusedField else
  if bits w 23 3 = 4 then if bits w 0 23 = 0 then .ok .nop else .error .unusedField else
  .error .unassignedFunction

/-- MAJ 0x12. -/
def decode12 (w : Lane) : Except Reject Instr :=
  if bits w 19 7 = 0 then .ok (.region (fld w 0 19)) else .error .unusedField

/-- MAJ 0x14. -/
def decode14 (w : Lane) : Except Reject Instr :=
  if bits w 23 3 = 0 then .ok (.vand (fld w 16 7) (fld w 9 7) (fld w 2 7) (flag w 1) (flag w 0)) else
  if bits w 23 3 = 1 then .ok (.vor (fld w 16 7) (fld w 9 7) (fld w 2 7) (flag w 1) (flag w 0)) else
  if bits w 23 3 = 2 then .ok (.vxor (fld w 16 7) (fld w 9 7) (fld w 2 7) (flag w 1) (flag w 0)) else
  if bits w 23 3 = 3 then if bits w 1 1 = 0 ∧ bits w 9 7 = 0 then .ok (.viota (fld w 16 7) (fld w 2 7) (flag w 0)) else .error .unusedField else
  if bits w 23 3 = 4 then if bits w 1 1 = 0 ∧ bits w 9 7 = 0 then .ok (.vmovs (fld w 16 7) (fld w 2 7) (flag w 0)) else .error .unusedField else
  .error .unassignedFunction

/-- MAJ 0x15. -/
def decode15 (w : Lane) : Except Reject Instr :=
  .ok (.vsel (fld w 23 3) (fld w 16 7) (fld w 9 7) (fld w 2 7) (flag w 1) (flag w 0))

/-- MAJ 0x16. -/
def decode16 (w : Lane) : Except Reject Instr :=
  if bits w 23 3 ≤ 5 then if bits w 19 4 = 0 then .ok (.vcmp (flag w 26) (fld w 23 3) (fld w 16 3) (fld w 9 7) (fld w 2 7) (flag w 1) (flag w 0)) else .error .unusedField else
  .error .unassignedFunction

/-- MAJ 0x17. -/
def decode17 (w : Lane) : Except Reject Instr :=
  if bits w 23 3 ≤ 5 then if bits w 19 4 = 0 then .ok (.vcmp (flag w 26) (fld w 23 3) (fld w 16 3) (fld w 9 7) (fld w 2 7) (flag w 1) (flag w 0)) else .error .unusedField else
  .error .unassignedFunction

/-- MAJ 0x18. -/
def decode18 (w : Lane) : Except Reject Instr :=
  if bits w 23 3 = 0 then .ok (.vadd32 (fld w 16 7) (fld w 9 7) (fld w 2 7) (flag w 1) (flag w 0)) else
  if bits w 23 3 = 1 then .ok (.vsub32 (fld w 16 7) (fld w 9 7) (fld w 2 7) (flag w 1) (flag w 0)) else
  if bits w 23 3 = 2 then .ok (.vmul32 (fld w 16 7) (fld w 9 7) (fld w 2 7) (flag w 1) (flag w 0)) else
  if bits w 23 3 = 3 then .ok (.vmad32 (fld w 16 7) (fld w 9 7) (fld w 2 7) (flag w 1) (flag w 0)) else
  if bits w 23 3 = 4 then .ok (.vshl32 (fld w 16 7) (fld w 9 7) (fld w 2 7) (flag w 1) (flag w 0)) else
  if bits w 23 3 = 5 then .ok (.vshr32 (fld w 16 7) (fld w 9 7) (fld w 2 7) (flag w 1) (flag w 0)) else
  if bits w 23 3 = 6 then .ok (.vsra32 (fld w 16 7) (fld w 9 7) (fld w 2 7) (flag w 1) (flag w 0)) else
  if bits w 23 3 = 7 then .ok (.vmulhI32 (fld w 16 7) (fld w 9 7) (fld w 2 7) (flag w 1) (flag w 0)) else
  .error .unassignedFunction

/-- MAJ 0x19. -/
def decode19 (w : Lane) : Except Reject Instr :=
  if bits w 23 3 = 0 then .ok (.vmulhN32 (fld w 16 7) (fld w 9 7) (fld w 2 7) (flag w 1) (flag w 0)) else
  if bits w 23 3 = 1 then .ok (.vminI32 (fld w 16 7) (fld w 9 7) (fld w 2 7) (flag w 1) (flag w 0)) else
  if bits w 23 3 = 2 then .ok (.vminN32 (fld w 16 7) (fld w 9 7) (fld w 2 7) (flag w 1) (flag w 0)) else
  if bits w 23 3 = 3 then .ok (.vmaxI32 (fld w 16 7) (fld w 9 7) (fld w 2 7) (flag w 1) (flag w 0)) else
  if bits w 23 3 = 4 then .ok (.vmaxN32 (fld w 16 7) (fld w 9 7) (fld w 2 7) (flag w 1) (flag w 0)) else
  if bits w 23 3 = 5 then .ok (.vsaddI32 (fld w 16 7) (fld w 9 7) (fld w 2 7) (flag w 1) (flag w 0)) else
  if bits w 23 3 = 6 then .ok (.vsaddN32 (fld w 16 7) (fld w 9 7) (fld w 2 7) (flag w 1) (flag w 0)) else
  if bits w 23 3 = 7 then .ok (.vssubI32 (fld w 16 7) (fld w 9 7) (fld w 2 7) (flag w 1) (flag w 0)) else
  .error .unassignedFunction

/-- MAJ 0x1A. -/
def decode1A (w : Lane) : Except Reject Instr :=
  if bits w 23 3 = 0 then .ok (.vssubN32 (fld w 16 7) (fld w 9 7) (fld w 2 7) (flag w 1) (flag w 0)) else
  if bits w 23 3 = 1 then .ok (.vbfeI32 (fld w 16 7) (fld w 9 7) (fld w 2 7) (flag w 1) (flag w 0)) else
  if bits w 23 3 = 2 then .ok (.vbfeN32 (fld w 16 7) (fld w 9 7) (fld w 2 7) (flag w 1) (flag w 0)) else
  if bits w 23 3 = 3 then .ok (.vadd64 (fld w 16 7) (fld w 9 7) (fld w 2 7) (flag w 1) (flag w 0)) else
  if bits w 23 3 = 4 then .ok (.vsub64 (fld w 16 7) (fld w 9 7) (fld w 2 7) (flag w 1) (flag w 0)) else
  if bits w 23 3 = 5 then .ok (.vshl64 (fld w 16 7) (fld w 9 7) (fld w 2 7) (flag w 1) (flag w 0)) else
  if bits w 23 3 = 6 then .ok (.vshr64 (fld w 16 7) (fld w 9 7) (fld w 2 7) (flag w 1) (flag w 0)) else
  if bits w 23 3 = 7 then .ok (.vsra64 (fld w 16 7) (fld w 9 7) (fld w 2 7) (flag w 1) (flag w 0)) else
  .error .unassignedFunction

/-- MAJ 0x1B. -/
def decode1B (w : Lane) : Except Reject Instr :=
  if bits w 23 3 = 0 then .ok (.vadd16 (fld w 16 7) (fld w 9 7) (fld w 2 7) (flag w 1) (flag w 0)) else
  if bits w 23 3 = 1 then .ok (.vsub16 (fld w 16 7) (fld w 9 7) (fld w 2 7) (flag w 1) (flag w 0)) else
  if bits w 23 3 = 2 then .ok (.vsaddI16 (fld w 16 7) (fld w 9 7) (fld w 2 7) (flag w 1) (flag w 0)) else
  if bits w 23 3 = 3 then .ok (.vssubI16 (fld w 16 7) (fld w 9 7) (fld w 2 7) (flag w 1) (flag w 0)) else
  if bits w 23 3 = 4 then .ok (.vadd8 (fld w 16 7) (fld w 9 7) (fld w 2 7) (flag w 1) (flag w 0)) else
  if bits w 23 3 = 5 then .ok (.vsub8 (fld w 16 7) (fld w 9 7) (fld w 2 7) (flag w 1) (flag w 0)) else
  if bits w 23 3 = 6 then .ok (.vsaddI8 (fld w 16 7) (fld w 9 7) (fld w 2 7) (flag w 1) (flag w 0)) else
  if bits w 23 3 = 7 then .ok (.vssubI8 (fld w 16 7) (fld w 9 7) (fld w 2 7) (flag w 1) (flag w 0)) else
  .error .unassignedFunction

/-- MAJ 0x1C. -/
def decode1C (w : Lane) : Except Reject Instr :=
  if bits w 23 3 = 0 then .ok (.vfadd (fld w 26 2) (fld w 16 7) (fld w 9 7) (fld w 2 7) (flag w 1) (flag w 0)) else
  if bits w 23 3 = 1 then .ok (.vfsub (fld w 26 2) (fld w 16 7) (fld w 9 7) (fld w 2 7) (flag w 1) (flag w 0)) else
  if bits w 23 3 = 2 then .ok (.vfmul (fld w 26 2) (fld w 16 7) (fld w 9 7) (fld w 2 7) (flag w 1) (flag w 0)) else
  if bits w 23 3 = 3 then .ok (.vffma (fld w 26 2) (fld w 16 7) (fld w 9 7) (fld w 2 7) (flag w 1) (flag w 0)) else
  if bits w 23 3 = 4 then .ok (.vfmin (fld w 26 2) (fld w 16 7) (fld w 9 7) (fld w 2 7) (flag w 1) (flag w 0)) else
  if bits w 23 3 = 5 then .ok (.vfmax (fld w 26 2) (fld w 16 7) (fld w 9 7) (fld w 2 7) (flag w 1) (flag w 0)) else
  if bits w 23 3 = 6 then .ok (.vfdiv (fld w 26 2) (fld w 16 7) (fld w 9 7) (fld w 2 7) (flag w 1) (flag w 0)) else
  .error .unassignedFunction

/-- MAJ 0x1D. -/
def decode1D (w : Lane) : Except Reject Instr :=
  if bits w 23 3 = 0 then .ok (.vfadd (fld w 26 2) (fld w 16 7) (fld w 9 7) (fld w 2 7) (flag w 1) (flag w 0)) else
  if bits w 23 3 = 1 then .ok (.vfsub (fld w 26 2) (fld w 16 7) (fld w 9 7) (fld w 2 7) (flag w 1) (flag w 0)) else
  if bits w 23 3 = 2 then .ok (.vfmul (fld w 26 2) (fld w 16 7) (fld w 9 7) (fld w 2 7) (flag w 1) (flag w 0)) else
  if bits w 23 3 = 3 then .ok (.vffma (fld w 26 2) (fld w 16 7) (fld w 9 7) (fld w 2 7) (flag w 1) (flag w 0)) else
  if bits w 23 3 = 4 then .ok (.vfmin (fld w 26 2) (fld w 16 7) (fld w 9 7) (fld w 2 7) (flag w 1) (flag w 0)) else
  if bits w 23 3 = 5 then .ok (.vfmax (fld w 26 2) (fld w 16 7) (fld w 9 7) (fld w 2 7) (flag w 1) (flag w 0)) else
  if bits w 23 3 = 6 then .ok (.vfdiv (fld w 26 2) (fld w 16 7) (fld w 9 7) (fld w 2 7) (flag w 1) (flag w 0)) else
  .error .unassignedFunction

/-- MAJ 0x1E. -/
def decode1E (w : Lane) : Except Reject Instr :=
  if bits w 23 3 = 0 then .ok (.vfadd (fld w 26 2) (fld w 16 7) (fld w 9 7) (fld w 2 7) (flag w 1) (flag w 0)) else
  if bits w 23 3 = 1 then .ok (.vfsub (fld w 26 2) (fld w 16 7) (fld w 9 7) (fld w 2 7) (flag w 1) (flag w 0)) else
  if bits w 23 3 = 2 then .ok (.vfmul (fld w 26 2) (fld w 16 7) (fld w 9 7) (fld w 2 7) (flag w 1) (flag w 0)) else
  if bits w 23 3 = 3 then .ok (.vffma (fld w 26 2) (fld w 16 7) (fld w 9 7) (fld w 2 7) (flag w 1) (flag w 0)) else
  if bits w 23 3 = 4 then .ok (.vfmin (fld w 26 2) (fld w 16 7) (fld w 9 7) (fld w 2 7) (flag w 1) (flag w 0)) else
  if bits w 23 3 = 5 then .ok (.vfmax (fld w 26 2) (fld w 16 7) (fld w 9 7) (fld w 2 7) (flag w 1) (flag w 0)) else
  if bits w 23 3 = 6 then .ok (.vfdiv (fld w 26 2) (fld w 16 7) (fld w 9 7) (fld w 2 7) (flag w 1) (flag w 0)) else
  .error .unassignedFunction

/-- MAJ 0x1F. -/
def decode1F (w : Lane) : Except Reject Instr :=
  if bits w 23 3 = 0 then .ok (.vfadd (fld w 26 2) (fld w 16 7) (fld w 9 7) (fld w 2 7) (flag w 1) (flag w 0)) else
  if bits w 23 3 = 1 then .ok (.vfsub (fld w 26 2) (fld w 16 7) (fld w 9 7) (fld w 2 7) (flag w 1) (flag w 0)) else
  if bits w 23 3 = 2 then .ok (.vfmul (fld w 26 2) (fld w 16 7) (fld w 9 7) (fld w 2 7) (flag w 1) (flag w 0)) else
  if bits w 23 3 = 3 then .ok (.vffma (fld w 26 2) (fld w 16 7) (fld w 9 7) (fld w 2 7) (flag w 1) (flag w 0)) else
  if bits w 23 3 = 4 then .ok (.vfmin (fld w 26 2) (fld w 16 7) (fld w 9 7) (fld w 2 7) (flag w 1) (flag w 0)) else
  if bits w 23 3 = 5 then .ok (.vfmax (fld w 26 2) (fld w 16 7) (fld w 9 7) (fld w 2 7) (flag w 1) (flag w 0)) else
  if bits w 23 3 = 6 then .ok (.vfdiv (fld w 26 2) (fld w 16 7) (fld w 9 7) (fld w 2 7) (flag w 1) (flag w 0)) else
  .error .unassignedFunction

/-- MAJ 0x20. -/
def decode20 (w : Lane) : Except Reject Instr :=
  if bits w 19 4 = 0 then .ok (.vfcmp (flag w 25) (fld w 23 2) (fld w 16 3) (fld w 9 7) (fld w 2 7) (flag w 1) (flag w 0)) else .error .unusedField

/-- MAJ 0x24. -/
def decode24 (w : Lane) : Except Reject Instr :=
  .ok (.vpack (fld w 23 3) (fld w 16 7) (fld w 9 7) (fld w 2 7) (flag w 1) (flag w 0))

/-- MAJ 0x25. -/
def decode25 (w : Lane) : Except Reject Instr :=
  if bits w 24 2 = 0 then if bits w 2 4 = 0 then .ok (.vunpk (fld w 17 7) (fld w 10 7) (fld w 6 4) (fld w 0 2)) else .error .unusedField else
  if bits w 24 2 = 1 then .ok (.vscale (fld w 17 7) (fld w 10 7) (fld w 0 10)) else
  .error .unassignedFunction

/-- MAJ 0x26. -/
def decode26 (w : Lane) : Except Reject Instr :=
  if bits w 23 3 ≤ 4 then .ok (.vshuf (fld w 23 3) (fld w 16 7) (fld w 9 7) (fld w 2 7) (flag w 1) (flag w 0)) else
  if bits w 23 3 = 5 then .ok (.vbcast (fld w 16 7) (fld w 9 7) (fld w 2 7) (flag w 1) (flag w 0)) else
  if bits w 23 3 = 6 then if bits w 0 1 = 0 ∧ bits w 2 7 = 0 then .ok (.vballot (fld w 16 7) (fld w 9 7) (flag w 1)) else .error .unusedField else
  if bits w 23 3 = 7 then if bits w 1 1 = 0 ∧ bits w 9 7 = 0 then .ok (.vxch (fld w 16 7) (fld w 2 7) (flag w 0)) else .error .unusedField else
  .error .unassignedFunction

/-- MAJ 0x27. -/
def decode27 (w : Lane) : Except Reject Instr :=
  .ok (.vrebal (fld w 23 3) (fld w 16 7) (fld w 9 7) (fld w 2 7) (flag w 1) (flag w 0))

/-- MAJ 0x28. -/
def decode28 (w : Lane) : Except Reject Instr :=
  if bits w 23 3 ≤ 4 then if bits w 2 1 = 0 then .ok (.mma (fld w 23 3) (fld w 20 3) (fld w 13 7) (fld w 6 7) (flag w 5) (fld w 3 2) (flag w 1) (flag w 0)) else .error .unusedField else
  .error .unassignedFunction

/-- MAJ 0x29. -/
def decode29 (w : Lane) : Except Reject Instr :=
  if bits w 23 3 ≤ 2 then .ok (.mmas (fld w 23 3) (fld w 20 3) (fld w 13 7) (fld w 6 7) (flag w 5) (fld w 3 2) (flag w 2) (flag w 1) (flag w 0)) else
  .error .unassignedFunction

/-- MAJ 0x2A. -/
def decode2A (w : Lane) : Except Reject Instr :=
  if bits w 23 3 = 0 then if bits w 0 1 = 0 ∧ bits w 2 7 = 0 ∧ bits w 16 7 = 0 then .ok (.mgang (fld w 9 7) (flag w 1)) else .error .unusedField else
  if bits w 23 3 = 1 then if bits w 0 16 = 0 ∧ bits w 19 4 = 0 then .ok (.mzero (fld w 16 3)) else .error .unusedField else
  if bits w 23 3 = 2 then if bits w 1 1 = 0 ∧ bits w 12 4 = 0 then .ok (.maccr (fld w 16 7) (fld w 9 3) (fld w 2 7) (flag w 0)) else .error .unusedField else
  if bits w 23 3 = 3 then if bits w 19 4 = 0 then .ok (.maccw (fld w 16 3) (fld w 9 7) (fld w 2 7) (flag w 1) (flag w 0)) else .error .unusedField else
  if bits w 23 3 = 4 then if bits w 0 1 = 0 ∧ bits w 2 7 = 0 ∧ bits w 19 4 = 0 then .ok (.maccst (fld w 16 3) (fld w 9 7) (flag w 1)) else .error .unusedField else
  if bits w 23 3 = 5 then if bits w 0 1 = 0 ∧ bits w 2 7 = 0 ∧ bits w 19 4 = 0 then .ok (.maccld (fld w 16 3) (fld w 9 7) (flag w 1)) else .error .unusedField else
  .error .unassignedFunction

/-- MAJ 0x2C. -/
def decode2C (w : Lane) : Except Reject Instr :=
  if bits w 23 3 ≤ 6 then .ok (.vld (fld w 23 3) (fld w 16 7) (fld w 9 7) (fld w 2 7) (flag w 1) (flag w 0)) else
  .error .unassignedFunction

/-- MAJ 0x2D. -/
def decode2D (w : Lane) : Except Reject Instr :=
  if bits w 23 3 ≤ 4 then .ok (.vst (fld w 23 3) (fld w 16 7) (fld w 9 7) (fld w 2 7) (flag w 1) (flag w 0)) else
  if (bits w 23 3 = 5 ∨ bits w 23 3 = 6) then .ok (.vlds (fld w 23 3) (fld w 16 7) (fld w 9 7) (fld w 2 7) (flag w 1) (flag w 0)) else
  .error .unassignedFunction

/-- MAJ 0x2E. -/
def decode2E (w : Lane) : Except Reject Instr :=
  if bits w 24 2 = 0 then if bits w 0 1 = 0 ∧ bits w 2 7 = 0 then .ok (.vldp (flag w 23) (fld w 16 7) (fld w 9 7) (flag w 1)) else .error .unusedField else
  if bits w 24 2 = 1 then if bits w 0 1 = 0 ∧ bits w 2 7 = 0 then .ok (.vstp (flag w 23) (fld w 16 7) (fld w 9 7) (flag w 1)) else .error .unusedField else
  if bits w 24 2 = 2 then .ok (.vgath (flag w 23) (fld w 16 7) (fld w 9 7) (fld w 2 7) (flag w 1) (flag w 0)) else
  if bits w 24 2 = 3 then .ok (.vscat (flag w 23) (fld w 16 7) (fld w 9 7) (fld w 2 7) (flag w 1) (flag w 0)) else
  .error .unassignedFunction

/-- MAJ 0x2F. -/
def decode2F (w : Lane) : Except Reject Instr :=
  if bits w 23 3 = 0 then .ok (.vldo (fld w 16 7) (fld w 9 7) (flag w 8) (flag w 7) (fld w 4 3) (fld w 2 2) (fld w 0 2)) else
  if bits w 23 3 = 1 then .ok (.sldo (fld w 16 7) (fld w 9 7) (flag w 8) (flag w 7) (fld w 4 3) (fld w 2 2) (fld w 0 2)) else
  if bits w 23 3 = 2 then if bits w 7 1 = 0 then .ok (.vsto (fld w 16 7) (fld w 9 7) (flag w 8) (fld w 4 3) (fld w 2 2) (fld w 0 2)) else .error .unusedField else
  if bits w 23 3 = 3 then if bits w 7 1 = 0 then .ok (.ssto (fld w 16 7) (fld w 9 7) (flag w 8) (fld w 4 3) (fld w 2 2) (fld w 0 2)) else .error .unusedField else
  if bits w 23 3 = 4 then .ok (.swaitge (fld w 16 7) (fld w 9 7) (flag w 8) (flag w 7) (fld w 4 3) (fld w 2 2) (fld w 0 2)) else
  if bits w 23 3 = 5 then if bits w 0 4 = 0 ∧ bits w 7 1 = 0 then .ok (.sld (fld w 16 7) (fld w 9 7) (flag w 8) (fld w 4 3)) else .error .unusedField else
  if bits w 23 3 = 6 then if bits w 0 4 = 0 ∧ bits w 7 1 = 0 then .ok (.sst (fld w 16 7) (fld w 9 7) (flag w 8) (fld w 4 3)) else .error .unusedField else
  .error .unassignedFunction

/-- MAJ 0x30. -/
def decode30 (w : Lane) : Except Reject Instr :=
  .ok (.xld (fld w 24 2) (flag w 23) (fld w 16 7) (fld w 9 7) (fld w 2 7) (flag w 1) (flag w 0))

/-- MAJ 0x31. -/
def decode31 (w : Lane) : Except Reject Instr :=
  .ok (.xst (fld w 24 2) (flag w 23) (fld w 16 7) (fld w 9 7) (fld w 2 7) (flag w 1) (flag w 0))

/-- MAJ 0x32. -/
def decode32 (w : Lane) : Except Reject Instr :=
  if bits w 7 1 = 0 then .ok (.vatom (fld w 23 3) (fld w 16 7) (fld w 9 7) (flag w 8) (fld w 4 3) (fld w 2 2) (fld w 0 2)) else .error .unusedField

/-- MAJ 0x33. -/
def decode33 (w : Lane) : Except Reject Instr :=
  if bits w 7 1 = 0 then .ok (.satom (fld w 23 3) (fld w 16 7) (fld w 9 7) (flag w 8) (fld w 4 3) (fld w 2 2) (fld w 0 2)) else .error .unusedField

/-- MAJ 0x34. -/
def decode34 (w : Lane) : Except Reject Instr :=
  if bits w 23 3 = 0 then .ok (.zld (fld w 16 7) (fld w 9 7) (fld w 2 7) (flag w 1) (flag w 0)) else
  if bits w 23 3 = 1 then .ok (.zst (fld w 16 7) (fld w 9 7) (fld w 2 7) (flag w 1) (flag w 0)) else
  if bits w 23 3 = 2 then .ok (.zcurOpen (fld w 16 7) (fld w 9 7) (fld w 2 7) (flag w 1) (flag w 0)) else
  if bits w 23 3 = 3 then if bits w 0 1 = 0 ∧ bits w 2 7 = 0 then .ok (.zcurClose (fld w 16 7) (fld w 9 7) (flag w 1)) else .error .unusedField else
  if bits w 24 2 = 2 then .ok (.znext (flag w 23) (fld w 16 7) (fld w 9 7) (fld w 2 7) (flag w 1) (flag w 0)) else
  if bits w 23 3 = 6 then .ok (.zgen (fld w 16 7) (fld w 9 7) (fld w 2 7) (flag w 1) (flag w 0)) else
  .error .unassignedFunction

/-- MAJ 0x35. -/
def decode35 (w : Lane) : Except Reject Instr :=
  .ok (.zatom (fld w 23 3) (fld w 16 7) (fld w 9 7) (fld w 2 7) (flag w 1) (flag w 0))

/-- MAJ 0x36. -/
def decode36 (w : Lane) : Except Reject Instr :=
  if bits w 23 3 = 0 then if bits w 0 2 = 0 ∧ bits w 6 3 = 0 then .ok (.push (fld w 16 7) (fld w 9 7) (fld w 2 4)) else .error .unusedField else
  if bits w 23 3 = 1 then if bits w 0 2 = 0 ∧ bits w 8 15 = 0 then .ok (.waitc (fld w 2 6)) else .error .unusedField else
  if bits w 23 3 = 2 then if bits w 0 2 = 0 ∧ bits w 4 12 = 0 then .ok (.sgetwp (fld w 16 7) (fld w 2 2)) else .error .unusedField else
  if bits w 23 3 = 3 then if bits w 0 1 = 0 ∧ bits w 5 4 = 0 then .ok (.trecld (fld w 16 7) (fld w 9 7) (fld w 2 3) (flag w 1)) else .error .unusedField else
  .error .unassignedFunction

/-- MAJ 0x38. -/
def decode38 (w : Lane) : Except Reject Instr :=
  if bits w 23 3 = 0 then if bits w 0 1 = 0 ∧ bits w 7 2 = 0 ∧ bits w 16 7 = 0 then .ok (.barinit (fld w 9 7) (fld w 2 5) (flag w 1)) else .error .unusedField else
  if bits w 23 3 = 1 then if bits w 0 2 = 0 ∧ bits w 7 16 = 0 then .ok (.bararv (fld w 2 5)) else .error .unusedField else
  if bits w 23 3 = 2 then if bits w 0 2 = 0 ∧ bits w 7 16 = 0 then .ok (.bararw (fld w 2 5)) else .error .unusedField else
  if bits w 23 3 = 3 then if bits w 0 2 = 0 ∧ bits w 7 16 = 0 then .ok (.barw (fld w 2 5)) else .error .unusedField else
  if bits w 23 3 = 4 then if bits w 0 2 = 0 ∧ bits w 5 11 = 0 then .ok (.ringputClaim (fld w 16 7) (fld w 2 3)) else .error .unusedField else
  if bits w 23 3 = 5 then if bits w 0 2 = 0 ∧ bits w 5 11 = 0 then .ok (.ringputPub (fld w 16 7) (fld w 2 3)) else .error .unusedField else
  if bits w 23 3 = 6 then if bits w 0 2 = 0 ∧ bits w 5 11 = 0 then .ok (.ringgetTake (fld w 16 7) (fld w 2 3)) else .error .unusedField else
  if bits w 23 3 = 7 then if bits w 0 2 = 0 ∧ bits w 5 11 = 0 then .ok (.ringgetFree (fld w 16 7) (fld w 2 3)) else .error .unusedField else
  .error .unassignedFunction

/-- MAJ 0x39. -/
def decode39 (w : Lane) : Except Reject Instr :=
  if bits w 23 3 = 0 then if bits w 16 7 = 0 then .ok (.mbpost (fld w 9 7) (fld w 2 7) (flag w 1) (flag w 0)) else .error .unusedField else
  if bits w 23 3 = 1 then .ok (.mbtake (fld w 16 7) (fld w 9 7) (fld w 2 7) (flag w 1) (flag w 0)) else
  .error .unassignedFunction

/-- MAJ 0x3A. -/
def decode3A (w : Lane) : Except Reject Instr :=
  if bits w 23 3 = 0 then if bits w 0 2 = 0 ∧ bits w 6 10 = 0 then .ok (.txbegin (fld w 16 7) (fld w 2 4)) else .error .unusedField else
  if bits w 23 3 = 1 then if bits w 0 16 = 0 then .ok (.txend (fld w 16 7)) else .error .unusedField else
  if bits w 23 3 = 2 then if bits w 0 2 = 0 ∧ bits w 9 14 = 0 then .ok (.txabort (fld w 2 7)) else .error .unusedField else
  if bits w 23 3 = 3 then if bits w 0 16 = 0 then .ok (.txstat (fld w 16 7)) else .error .unusedField else
  .error .unassignedFunction

/-- MAJ 0x3C. -/
def decode3C (w : Lane) : Except Reject Instr :=
  .ok (.srd (fld w 19 7) (fld w 0 19))

/-- MAJ 0x3D. -/
def decode3D (w : Lane) : Except Reject Instr :=
  .ok (.swr (fld w 19 7) (fld w 0 19))

/-- MAJ 0x3E. -/
def decode3E (w : Lane) : Except Reject Instr :=
  if bits w 23 3 = 0 then if bits w 0 2 = 0 ∧ bits w 9 14 = 0 then .ok (.trap (fld w 2 7)) else .error .unusedField else
  if bits w 23 3 = 1 then if bits w 0 23 = 0 then .ok .eret else .error .unusedField else
  if bits w 23 3 = 2 then .ok (.tinva (fld w 16 7) (fld w 9 7) (fld w 2 7) (flag w 1) (flag w 0)) else
  if bits w 23 3 = 3 then if bits w 0 1 = 0 ∧ bits w 2 7 = 0 then .ok (.tinvc (fld w 16 7) (fld w 9 7) (flag w 1)) else .error .unusedField else
  if bits w 23 3 = 4 then if bits w 0 9 = 0 then .ok (.launch (fld w 16 7) (fld w 9 7)) else .error .unusedField else
  if bits w 23 3 = 5 then .ok (.arml (fld w 16 7) (fld w 9 7) (fld w 2 7) (flag w 1) (flag w 0)) else
  if bits w 23 3 = 6 then if bits w 0 1 = 0 ∧ bits w 2 7 = 0 then .ok (.ctxsave (fld w 16 7) (fld w 9 7) (flag w 1)) else .error .unusedField else
  if bits w 23 3 = 7 then if bits w 0 1 = 0 ∧ bits w 2 7 = 0 then .ok (.ctxload (fld w 16 7) (fld w 9 7) (flag w 1)) else .error .unusedField else
  .error .unassignedFunction

/-- MAJ 0x3F. -/
def decode3F (w : Lane) : Except Reject Instr :=
  if bits w 20 6 = 0 then if bits w 0 1 = 0 then .ok (.sfcvt (fld w 18 2) (fld w 16 2) (fld w 9 7) (fld w 2 7) (flag w 1)) else .error .unusedField else
  if bits w 18 8 = 16 then if bits w 0 1 = 0 then .ok (.vabs (fld w 16 2) (fld w 9 7) (fld w 2 7) (flag w 1)) else .error .unusedField else
  if bits w 18 8 = 17 then if bits w 0 1 = 0 then .ok (.vneg (fld w 16 2) (fld w 9 7) (fld w 2 7) (flag w 1)) else .error .unusedField else
  if bits w 18 8 = 18 then if bits w 0 1 = 0 then .ok (.vclz (fld w 16 2) (fld w 9 7) (fld w 2 7) (flag w 1)) else .error .unusedField else
  if bits w 18 8 = 19 then if bits w 0 1 = 0 then .ok (.vpopc (fld w 16 2) (fld w 9 7) (fld w 2 7) (flag w 1)) else .error .unusedField else
  if bits w 17 9 = 41 then if bits w 0 1 = 0 then .ok (.vmov (flag w 16) (fld w 9 7) (fld w 2 7) (flag w 1)) else .error .unusedField else
  if bits w 18 8 = 32 then if bits w 0 1 = 0 then .ok (.vfsqrt (fld w 16 2) (fld w 9 7) (fld w 2 7) (flag w 1)) else .error .unusedField else
  if bits w 18 8 = 33 then if bits w 0 1 = 0 then .ok (.vfrcp (fld w 16 2) (fld w 9 7) (fld w 2 7) (flag w 1)) else .error .unusedField else
  if bits w 18 8 = 34 then if bits w 0 1 = 0 then .ok (.vfrsq (fld w 16 2) (fld w 9 7) (fld w 2 7) (flag w 1)) else .error .unusedField else
  if bits w 18 8 = 35 then if bits w 0 1 = 0 then .ok (.vfexp2 (fld w 16 2) (fld w 9 7) (fld w 2 7) (flag w 1)) else .error .unusedField else
  if bits w 18 8 = 36 then if bits w 0 1 = 0 then .ok (.vflog2 (fld w 16 2) (fld w 9 7) (fld w 2 7) (flag w 1)) else .error .unusedField else
  if bits w 18 8 = 37 then if bits w 0 1 = 0 then .ok (.vfclass (fld w 16 2) (fld w 9 7) (fld w 2 7) (flag w 1)) else .error .unusedField else
  if bits w 18 8 = 38 then if bits w 0 1 = 0 then .ok (.vfabs (fld w 16 2) (fld w 9 7) (fld w 2 7) (flag w 1)) else .error .unusedField else
  if bits w 18 8 = 39 then if bits w 0 1 = 0 then .ok (.vfneg (fld w 16 2) (fld w 9 7) (fld w 2 7) (flag w 1)) else .error .unusedField else
  if bits w 24 2 = 1 then if bits w 0 1 = 0 then .ok (.vcvt (fld w 20 4) (fld w 16 4) (fld w 9 7) (fld w 2 7) (flag w 1)) else .error .unusedField else
  if bits w 22 4 = 8 then if bits w 0 1 = 0 then .ok (.vred (fld w 19 3) (fld w 16 3) (fld w 9 7) (fld w 2 7) (flag w 1)) else .error .unusedField else
  if bits w 22 4 = 9 then if bits w 0 1 = 0 then .ok (.vscan (fld w 19 3) (fld w 16 3) (fld w 9 7) (fld w 2 7) (flag w 1)) else .error .unusedField else
  if bits w 16 10 = 16 then if bits w 4 12 = 0 then .ok (.fence (fld w 2 2) (fld w 0 2)) else .error .unusedField else
  if bits w 16 10 = 960 then if bits w 0 16 = 0 then .ok .idle else .error .unusedField else
  if bits w 16 10 = 961 then if bits w 0 1 = 0 ∧ bits w 9 7 = 0 then .ok (.keysel (fld w 2 7) (flag w 1)) else .error .unusedField else
  if bits w 16 10 = 962 then if bits w 0 1 = 0 then .ok (.rtcall (fld w 9 7) (fld w 2 7) (flag w 1)) else .error .unusedField else
  .error .unassignedFunction

/-- Decode one instruction word by its `MAJ`. -/
def decode (w : Lane) : Except Reject Instr :=
  match w.toNat / 2 ^ 26 with
  | 1 => decode01 w
  | 2 => decode02 w
  | 3 => decode03 w
  | 4 => decode04 w
  | 5 => decode05 w
  | 8 => decode08 w
  | 9 => decode09 w
  | 10 => decode0A w
  | 11 => decode0B w
  | 12 => decode0C w
  | 13 => decode0D w
  | 14 => decode0E w
  | 15 => decode0F w
  | 16 => decode10 w
  | 17 => decode11 w
  | 18 => decode12 w
  | 20 => decode14 w
  | 21 => decode15 w
  | 22 => decode16 w
  | 23 => decode17 w
  | 24 => decode18 w
  | 25 => decode19 w
  | 26 => decode1A w
  | 27 => decode1B w
  | 28 => decode1C w
  | 29 => decode1D w
  | 30 => decode1E w
  | 31 => decode1F w
  | 32 => decode20 w
  | 36 => decode24 w
  | 37 => decode25 w
  | 38 => decode26 w
  | 39 => decode27 w
  | 40 => decode28 w
  | 41 => decode29 w
  | 42 => decode2A w
  | 44 => decode2C w
  | 45 => decode2D w
  | 46 => decode2E w
  | 47 => decode2F w
  | 48 => decode30 w
  | 49 => decode31 w
  | 50 => decode32 w
  | 51 => decode33 w
  | 52 => decode34 w
  | 53 => decode35 w
  | 54 => decode36 w
  | 56 => decode38 w
  | 57 => decode39 w
  | 58 => decode3A w
  | 60 => decode3C w
  | 61 => decode3D w
  | 62 => decode3E w
  | 63 => decode3F w
  | _ => .error .unassignedMajor

/-- The word with the given opcode bits and operand sum. -/
def wordOf (opcode operands : Nat) : Option Lane := some (BitVec.ofNat 32 (opcode + operands))

/-- Operand bits: `d` at [22:16], `a` at [15:9], `b` at [8:2], `x` at [1:1], `y` at [0:0]. -/
def opsD16A9B2X1Y0 (d : BitVec 7) (a : BitVec 7) (b : BitVec 7) (x : Bool) (y : Bool) : Nat :=
  d.toNat * 2 ^ 16 + a.toNat * 2 ^ 9 + b.toNat * 2 ^ 2 + bit x * 2 ^ 1 + bit y

/-- Operand bits: `d` at [22:16], `a` at [15:9], `x` at [1:1]. -/
def opsD16A9X1 (d : BitVec 7) (a : BitVec 7) (x : Bool) : Nat :=
  d.toNat * 2 ^ 16 + a.toNat * 2 ^ 9 + bit x * 2 ^ 1

/-- Operand bits: `c` at [25:23], `d` at [22:16], `a` at [15:9], `b` at [8:2], `x` at [1:1], `y` at [0:0]. -/
def opsC23D16A9B2X1Y0 (c : BitVec 3) (d : BitVec 7) (a : BitVec 7) (b : BitVec 7) (x : Bool) (y : Bool) : Nat :=
  c.toNat * 2 ^ 23 + d.toNat * 2 ^ 16 + a.toNat * 2 ^ 9 + b.toNat * 2 ^ 2 + bit x * 2 ^ 1 + bit y

/-- Operand bits: `d` at [23:17], `a` at [16:10], `i` at [9:0]. -/
def opsD17A10I0 (d : BitVec 7) (a : BitVec 7) (i : BitVec 10) : Nat :=
  d.toNat * 2 ^ 17 + a.toNat * 2 ^ 10 + i.toNat

/-- Operand bits: `d` at [23:17], `a` at [16:10], `n` at [5:0]. -/
def opsD17A10N0 (d : BitVec 7) (a : BitVec 7) (n : BitVec 6) : Nat :=
  d.toNat * 2 ^ 17 + a.toNat * 2 ^ 10 + n.toNat

/-- Operand bits: `d` at [25:19], `i` at [18:0]. -/
def opsD19I0 (d : BitVec 7) (i : BitVec 19) : Nat :=
  d.toNat * 2 ^ 19 + i.toNat

/-- Operand bits: `t` at [25:25], `d` at [22:16], `a` at [15:9], `b` at [8:2], `x` at [1:1], `y` at [0:0]. -/
def opsT25D16A9B2X1Y0 (t : Bool) (d : BitVec 7) (a : BitVec 7) (b : BitVec 7) (x : Bool) (y : Bool) : Nat :=
  bit t * 2 ^ 25 + d.toNat * 2 ^ 16 + a.toNat * 2 ^ 9 + b.toNat * 2 ^ 2 + bit x * 2 ^ 1 + bit y

/-- Operand bits: `t` at [25:25], `c` at [24:23], `d` at [22:16], `a` at [15:9], `b` at [8:2], `x` at [1:1], `y` at [0:0]. -/
def opsT25C23D16A9B2X1Y0 (t : Bool) (c : BitVec 2) (d : BitVec 7) (a : BitVec 7) (b : BitVec 7) (x : Bool) (y : Bool) : Nat :=
  bit t * 2 ^ 25 + c.toNat * 2 ^ 23 + d.toNat * 2 ^ 16 + a.toNat * 2 ^ 9 + b.toNat * 2 ^ 2 + bit x * 2 ^ 1 + bit y

/-- Operand bits: `p` at [19:18], `q` at [17:16], `d` at [15:9], `a` at [8:2], `x` at [1:1]. -/
def opsP18Q16D9A2X1 (p : BitVec 2) (q : BitVec 2) (d : BitVec 7) (a : BitVec 7) (x : Bool) : Nat :=
  p.toNat * 2 ^ 18 + q.toNat * 2 ^ 16 + d.toNat * 2 ^ 9 + a.toNat * 2 ^ 2 + bit x * 2 ^ 1

/-- Operand bits: `k` at [11:9]. -/
def opsK9 (k : BitVec 3) : Nat :=
  k.toNat * 2 ^ 9

/-- Operand bits: `k` at [18:16], `a` at [15:9], `x` at [1:1]. -/
def opsK16A9X1 (k : BitVec 3) (a : BitVec 7) (x : Bool) : Nat :=
  k.toNat * 2 ^ 16 + a.toNat * 2 ^ 9 + bit x * 2 ^ 1

/-- Operand bits: `d` at [22:16], `k` at [11:9]. -/
def opsD16K9 (d : BitVec 7) (k : BitVec 3) : Nat :=
  d.toNat * 2 ^ 16 + k.toNat * 2 ^ 9

/-- Operand bits: `o` at [25:23], `d` at [18:16], `a` at [11:9], `b` at [4:2]. -/
def opsO23D16A9B2 (o : BitVec 3) (d : BitVec 3) (a : BitVec 3) (b : BitVec 3) : Nat :=
  o.toNat * 2 ^ 23 + d.toNat * 2 ^ 16 + a.toNat * 2 ^ 9 + b.toNat * 2 ^ 2

/-- Operand bits: `o` at [15:0]. -/
def opsO0 (o : BitVec 16) : Nat :=
  o.toNat

/-- Operand bits: `a` at [22:16], `o` at [15:0]. -/
def opsA16O0 (a : BitVec 7) (o : BitVec 16) : Nat :=
  a.toNat * 2 ^ 16 + o.toNat

/-- Operand bits: `k` at [18:16], `o` at [15:0]. -/
def opsK16O0 (k : BitVec 3) (o : BitVec 16) : Nat :=
  k.toNat * 2 ^ 16 + o.toNat

/-- Operand bits: `a` at [15:9], `x` at [1:1]. -/
def opsA9X1 (a : BitVec 7) (x : Bool) : Nat :=
  a.toNat * 2 ^ 9 + bit x * 2 ^ 1

/-- Operand bits: `i` at [18:0]. -/
def opsI0 (i : BitVec 19) : Nat :=
  i.toNat

/-- Operand bits: `d` at [22:16], `b` at [8:2], `y` at [0:0]. -/
def opsD16B2Y0 (d : BitVec 7) (b : BitVec 7) (y : Bool) : Nat :=
  d.toNat * 2 ^ 16 + b.toNat * 2 ^ 2 + bit y

/-- Operand bits: `k` at [25:23], `d` at [22:16], `a` at [15:9], `b` at [8:2], `x` at [1:1], `y` at [0:0]. -/
def opsK23D16A9B2X1Y0 (k : BitVec 3) (d : BitVec 7) (a : BitVec 7) (b : BitVec 7) (x : Bool) (y : Bool) : Nat :=
  k.toNat * 2 ^ 23 + d.toNat * 2 ^ 16 + a.toNat * 2 ^ 9 + b.toNat * 2 ^ 2 + bit x * 2 ^ 1 + bit y

/-- Operand bits: `w` at [26:26], `c` at [25:23], `m` at [18:16], `a` at [15:9], `b` at [8:2], `x` at [1:1], `y` at [0:0]. -/
def opsW26C23M16A9B2X1Y0 (w : Bool) (c : BitVec 3) (m : BitVec 3) (a : BitVec 7) (b : BitVec 7) (x : Bool) (y : Bool) : Nat :=
  bit w * 2 ^ 26 + c.toNat * 2 ^ 23 + m.toNat * 2 ^ 16 + a.toNat * 2 ^ 9 + b.toNat * 2 ^ 2 + bit x * 2 ^ 1 + bit y

/-- Operand bits: `t` at [27:26], `d` at [22:16], `a` at [15:9], `b` at [8:2], `x` at [1:1], `y` at [0:0]. -/
def opsT26D16A9B2X1Y0 (t : BitVec 2) (d : BitVec 7) (a : BitVec 7) (b : BitVec 7) (x : Bool) (y : Bool) : Nat :=
  t.toNat * 2 ^ 26 + d.toNat * 2 ^ 16 + a.toNat * 2 ^ 9 + b.toNat * 2 ^ 2 + bit x * 2 ^ 1 + bit y

/-- Operand bits: `t` at [25:25], `c` at [24:23], `m` at [18:16], `a` at [15:9], `b` at [8:2], `x` at [1:1], `y` at [0:0]. -/
def opsT25C23M16A9B2X1Y0 (t : Bool) (c : BitVec 2) (m : BitVec 3) (a : BitVec 7) (b : BitVec 7) (x : Bool) (y : Bool) : Nat :=
  bit t * 2 ^ 25 + c.toNat * 2 ^ 23 + m.toNat * 2 ^ 16 + a.toNat * 2 ^ 9 + b.toNat * 2 ^ 2 + bit x * 2 ^ 1 + bit y

/-- Operand bits: `f` at [25:23], `d` at [22:16], `a` at [15:9], `b` at [8:2], `x` at [1:1], `y` at [0:0]. -/
def opsF23D16A9B2X1Y0 (f : BitVec 3) (d : BitVec 7) (a : BitVec 7) (b : BitVec 7) (x : Bool) (y : Bool) : Nat :=
  f.toNat * 2 ^ 23 + d.toNat * 2 ^ 16 + a.toNat * 2 ^ 9 + b.toNat * 2 ^ 2 + bit x * 2 ^ 1 + bit y

/-- Operand bits: `d` at [23:17], `a` at [16:10], `f` at [9:6], `j` at [1:0]. -/
def opsD17A10F6J0 (d : BitVec 7) (a : BitVec 7) (f : BitVec 4) (j : BitVec 2) : Nat :=
  d.toNat * 2 ^ 17 + a.toNat * 2 ^ 10 + f.toNat * 2 ^ 6 + j.toNat

/-- Operand bits: `s` at [25:23], `d` at [22:16], `a` at [15:9], `b` at [8:2], `x` at [1:1], `y` at [0:0]. -/
def opsS23D16A9B2X1Y0 (s : BitVec 3) (d : BitVec 7) (a : BitVec 7) (b : BitVec 7) (x : Bool) (y : Bool) : Nat :=
  s.toNat * 2 ^ 23 + d.toNat * 2 ^ 16 + a.toNat * 2 ^ 9 + b.toNat * 2 ^ 2 + bit x * 2 ^ 1 + bit y

/-- Operand bits: `w` at [17:16], `d` at [15:9], `a` at [8:2], `x` at [1:1]. -/
def opsW16D9A2X1 (w : BitVec 2) (d : BitVec 7) (a : BitVec 7) (x : Bool) : Nat :=
  w.toNat * 2 ^ 16 + d.toNat * 2 ^ 9 + a.toNat * 2 ^ 2 + bit x * 2 ^ 1

/-- Operand bits: `w` at [16:16], `d` at [15:9], `a` at [8:2], `x` at [1:1]. -/
def opsW16D9A2X1n (w : Bool) (d : BitVec 7) (a : BitVec 7) (x : Bool) : Nat :=
  bit w * 2 ^ 16 + d.toNat * 2 ^ 9 + a.toNat * 2 ^ 2 + bit x * 2 ^ 1

/-- Operand bits: `t` at [17:16], `d` at [15:9], `a` at [8:2], `x` at [1:1]. -/
def opsT16D9A2X1 (t : BitVec 2) (d : BitVec 7) (a : BitVec 7) (x : Bool) : Nat :=
  t.toNat * 2 ^ 16 + d.toNat * 2 ^ 9 + a.toNat * 2 ^ 2 + bit x * 2 ^ 1

/-- Operand bits: `p` at [23:20], `q` at [19:16], `d` at [15:9], `a` at [8:2], `x` at [1:1]. -/
def opsP20Q16D9A2X1 (p : BitVec 4) (q : BitVec 4) (d : BitVec 7) (a : BitVec 7) (x : Bool) : Nat :=
  p.toNat * 2 ^ 20 + q.toNat * 2 ^ 16 + d.toNat * 2 ^ 9 + a.toNat * 2 ^ 2 + bit x * 2 ^ 1

/-- Operand bits: `o` at [21:19], `t` at [18:16], `d` at [15:9], `a` at [8:2], `x` at [1:1]. -/
def opsO19T16D9A2X1 (o : BitVec 3) (t : BitVec 3) (d : BitVec 7) (a : BitVec 7) (x : Bool) : Nat :=
  o.toNat * 2 ^ 19 + t.toNat * 2 ^ 16 + d.toNat * 2 ^ 9 + a.toNat * 2 ^ 2 + bit x * 2 ^ 1

/-- Operand bits: `f` at [25:23], `c` at [22:20], `a` at [19:13], `b` at [12:6], `r` at [5:5], `e` at [4:3], `x` at [1:1], `y` at [0:0]. -/
def opsF23C20A13B6R5E3X1Y0 (f : BitVec 3) (c : BitVec 3) (a : BitVec 7) (b : BitVec 7) (r : Bool) (e : BitVec 2) (x : Bool) (y : Bool) : Nat :=
  f.toNat * 2 ^ 23 + c.toNat * 2 ^ 20 + a.toNat * 2 ^ 13 + b.toNat * 2 ^ 6 + bit r * 2 ^ 5 + e.toNat * 2 ^ 3 + bit x * 2 ^ 1 + bit y

/-- Operand bits: `f` at [25:23], `c` at [22:20], `a` at [19:13], `b` at [12:6], `r` at [5:5], `e` at [4:3], `p` at [2:2], `x` at [1:1], `y` at [0:0]. -/
def opsF23C20A13B6R5E3P2X1Y0 (f : BitVec 3) (c : BitVec 3) (a : BitVec 7) (b : BitVec 7) (r : Bool) (e : BitVec 2) (p : Bool) (x : Bool) (y : Bool) : Nat :=
  f.toNat * 2 ^ 23 + c.toNat * 2 ^ 20 + a.toNat * 2 ^ 13 + b.toNat * 2 ^ 6 + bit r * 2 ^ 5 + e.toNat * 2 ^ 3 + bit p * 2 ^ 2 + bit x * 2 ^ 1 + bit y

/-- Operand bits: `c` at [18:16]. -/
def opsC16 (c : BitVec 3) : Nat :=
  c.toNat * 2 ^ 16

/-- Operand bits: `d` at [22:16], `c` at [11:9], `b` at [8:2], `y` at [0:0]. -/
def opsD16C9B2Y0 (d : BitVec 7) (c : BitVec 3) (b : BitVec 7) (y : Bool) : Nat :=
  d.toNat * 2 ^ 16 + c.toNat * 2 ^ 9 + b.toNat * 2 ^ 2 + bit y

/-- Operand bits: `c` at [18:16], `a` at [15:9], `b` at [8:2], `x` at [1:1], `y` at [0:0]. -/
def opsC16A9B2X1Y0 (c : BitVec 3) (a : BitVec 7) (b : BitVec 7) (x : Bool) (y : Bool) : Nat :=
  c.toNat * 2 ^ 16 + a.toNat * 2 ^ 9 + b.toNat * 2 ^ 2 + bit x * 2 ^ 1 + bit y

/-- Operand bits: `c` at [18:16], `a` at [15:9], `x` at [1:1]. -/
def opsC16A9X1 (c : BitVec 3) (a : BitVec 7) (x : Bool) : Nat :=
  c.toNat * 2 ^ 16 + a.toNat * 2 ^ 9 + bit x * 2 ^ 1

/-- Operand bits: `w` at [23:23], `d` at [22:16], `a` at [15:9], `x` at [1:1]. -/
def opsW23D16A9X1 (w : Bool) (d : BitVec 7) (a : BitVec 7) (x : Bool) : Nat :=
  bit w * 2 ^ 23 + d.toNat * 2 ^ 16 + a.toNat * 2 ^ 9 + bit x * 2 ^ 1

/-- Operand bits: `w` at [23:23], `d` at [22:16], `a` at [15:9], `b` at [8:2], `x` at [1:1], `y` at [0:0]. -/
def opsW23D16A9B2X1Y0 (w : Bool) (d : BitVec 7) (a : BitVec 7) (b : BitVec 7) (x : Bool) (y : Bool) : Nat :=
  bit w * 2 ^ 23 + d.toNat * 2 ^ 16 + a.toNat * 2 ^ 9 + b.toNat * 2 ^ 2 + bit x * 2 ^ 1 + bit y

/-- Operand bits: `d` at [22:16], `a` at [15:9], `x` at [8:8], `p` at [7:7], `t` at [6:4], `o` at [3:2], `s` at [1:0]. -/
def opsD16A9X8P7T4O2S0 (d : BitVec 7) (a : BitVec 7) (x : Bool) (p : Bool) (t : BitVec 3) (o : BitVec 2) (s : BitVec 2) : Nat :=
  d.toNat * 2 ^ 16 + a.toNat * 2 ^ 9 + bit x * 2 ^ 8 + bit p * 2 ^ 7 + t.toNat * 2 ^ 4 + o.toNat * 2 ^ 2 + s.toNat

/-- Operand bits: `d` at [22:16], `a` at [15:9], `x` at [8:8], `t` at [6:4], `o` at [3:2], `s` at [1:0]. -/
def opsD16A9X8T4O2S0 (d : BitVec 7) (a : BitVec 7) (x : Bool) (t : BitVec 3) (o : BitVec 2) (s : BitVec 2) : Nat :=
  d.toNat * 2 ^ 16 + a.toNat * 2 ^ 9 + bit x * 2 ^ 8 + t.toNat * 2 ^ 4 + o.toNat * 2 ^ 2 + s.toNat

/-- Operand bits: `d` at [22:16], `a` at [15:9], `x` at [8:8], `t` at [6:4]. -/
def opsD16A9X8T4 (d : BitVec 7) (a : BitVec 7) (x : Bool) (t : BitVec 3) : Nat :=
  d.toNat * 2 ^ 16 + a.toNat * 2 ^ 9 + bit x * 2 ^ 8 + t.toNat * 2 ^ 4

/-- Operand bits: `m` at [25:24], `z` at [23:23], `d` at [22:16], `a` at [15:9], `b` at [8:2], `x` at [1:1], `y` at [0:0]. -/
def opsM24Z23D16A9B2X1Y0 (m : BitVec 2) (z : Bool) (d : BitVec 7) (a : BitVec 7) (b : BitVec 7) (x : Bool) (y : Bool) : Nat :=
  m.toNat * 2 ^ 24 + bit z * 2 ^ 23 + d.toNat * 2 ^ 16 + a.toNat * 2 ^ 9 + b.toNat * 2 ^ 2 + bit x * 2 ^ 1 + bit y

/-- Operand bits: `o` at [25:23], `d` at [22:16], `a` at [15:9], `x` at [8:8], `t` at [6:4], `r` at [3:2], `s` at [1:0]. -/
def opsO23D16A9X8T4R2S0 (o : BitVec 3) (d : BitVec 7) (a : BitVec 7) (x : Bool) (t : BitVec 3) (r : BitVec 2) (s : BitVec 2) : Nat :=
  o.toNat * 2 ^ 23 + d.toNat * 2 ^ 16 + a.toNat * 2 ^ 9 + bit x * 2 ^ 8 + t.toNat * 2 ^ 4 + r.toNat * 2 ^ 2 + s.toNat

/-- Operand bits: `o` at [3:2], `s` at [1:0]. -/
def opsO2S0 (o : BitVec 2) (s : BitVec 2) : Nat :=
  o.toNat * 2 ^ 2 + s.toNat

/-- Operand bits: `k` at [23:23], `d` at [22:16], `a` at [15:9], `b` at [8:2], `x` at [1:1], `y` at [0:0]. -/
def opsK23D16A9B2X1Y0n (k : Bool) (d : BitVec 7) (a : BitVec 7) (b : BitVec 7) (x : Bool) (y : Bool) : Nat :=
  bit k * 2 ^ 23 + d.toNat * 2 ^ 16 + a.toNat * 2 ^ 9 + b.toNat * 2 ^ 2 + bit x * 2 ^ 1 + bit y

/-- Operand bits: `o` at [25:23], `d` at [22:16], `a` at [15:9], `b` at [8:2], `x` at [1:1], `y` at [0:0]. -/
def opsO23D16A9B2X1Y0 (o : BitVec 3) (d : BitVec 7) (a : BitVec 7) (b : BitVec 7) (x : Bool) (y : Bool) : Nat :=
  o.toNat * 2 ^ 23 + d.toNat * 2 ^ 16 + a.toNat * 2 ^ 9 + b.toNat * 2 ^ 2 + bit x * 2 ^ 1 + bit y

/-- Operand bits: `d` at [22:16], `a` at [15:9], `q` at [5:2]. -/
def opsD16A9Q2 (d : BitVec 7) (a : BitVec 7) (q : BitVec 4) : Nat :=
  d.toNat * 2 ^ 16 + a.toNat * 2 ^ 9 + q.toNat * 2 ^ 2

/-- Operand bits: `m` at [7:2]. -/
def opsM2 (m : BitVec 6) : Nat :=
  m.toNat * 2 ^ 2

/-- Operand bits: `d` at [22:16], `c` at [3:2]. -/
def opsD16C2 (d : BitVec 7) (c : BitVec 2) : Nat :=
  d.toNat * 2 ^ 16 + c.toNat * 2 ^ 2

/-- Operand bits: `d` at [22:16], `a` at [15:9], `k` at [4:2], `x` at [1:1]. -/
def opsD16A9K2X1 (d : BitVec 7) (a : BitVec 7) (k : BitVec 3) (x : Bool) : Nat :=
  d.toNat * 2 ^ 16 + a.toNat * 2 ^ 9 + k.toNat * 2 ^ 2 + bit x * 2 ^ 1

/-- Operand bits: `a` at [15:9], `b` at [6:2], `x` at [1:1]. -/
def opsA9B2X1 (a : BitVec 7) (b : BitVec 5) (x : Bool) : Nat :=
  a.toNat * 2 ^ 9 + b.toNat * 2 ^ 2 + bit x * 2 ^ 1

/-- Operand bits: `b` at [6:2]. -/
def opsB2 (b : BitVec 5) : Nat :=
  b.toNat * 2 ^ 2

/-- Operand bits: `d` at [22:16], `r` at [4:2]. -/
def opsD16R2 (d : BitVec 7) (r : BitVec 3) : Nat :=
  d.toNat * 2 ^ 16 + r.toNat * 2 ^ 2

/-- Operand bits: `a` at [15:9], `b` at [8:2], `x` at [1:1], `y` at [0:0]. -/
def opsA9B2X1Y0 (a : BitVec 7) (b : BitVec 7) (x : Bool) (y : Bool) : Nat :=
  a.toNat * 2 ^ 9 + b.toNat * 2 ^ 2 + bit x * 2 ^ 1 + bit y

/-- Operand bits: `d` at [22:16], `n` at [5:2]. -/
def opsD16N2 (d : BitVec 7) (n : BitVec 4) : Nat :=
  d.toNat * 2 ^ 16 + n.toNat * 2 ^ 2

/-- Operand bits: `d` at [22:16]. -/
def opsD16 (d : BitVec 7) : Nat :=
  d.toNat * 2 ^ 16

/-- Operand bits: `n` at [8:2]. -/
def opsN2 (n : BitVec 7) : Nat :=
  n.toNat * 2 ^ 2

/-- Operand bits: `d` at [25:19], `n` at [18:0]. -/
def opsD19N0 (d : BitVec 7) (n : BitVec 19) : Nat :=
  d.toNat * 2 ^ 19 + n.toNat

/-- Operand bits: `d` at [22:16], `a` at [15:9]. -/
def opsD16A9 (d : BitVec 7) (a : BitVec 7) : Nat :=
  d.toNat * 2 ^ 16 + a.toNat * 2 ^ 9

/-- Operand bits: `a` at [8:2], `x` at [1:1]. -/
def opsA2X1 (a : BitVec 7) (x : Bool) : Nat :=
  a.toNat * 2 ^ 2 + bit x * 2 ^ 1

/-- Operand bits: `d` at [15:9], `a` at [8:2], `x` at [1:1]. -/
def opsD9A2X1 (d : BitVec 7) (a : BitVec 7) (x : Bool) : Nat :=
  d.toNat * 2 ^ 9 + a.toNat * 2 ^ 2 + bit x * 2 ^ 1

/-- The word of an instruction; an event has none. -/
def encode : Instr → Option Lane
  | .sadd d a b x y => wordOf 0x04000000 (opsD16A9B2X1Y0 d a b x y)
  | .ssub d a b x y => wordOf 0x04800000 (opsD16A9B2X1Y0 d a b x y)
  | .smul d a b x y => wordOf 0x05000000 (opsD16A9B2X1Y0 d a b x y)
  | .smulh d a b x y => wordOf 0x05800000 (opsD16A9B2X1Y0 d a b x y)
  | .smulhn d a b x y => wordOf 0x06000000 (opsD16A9B2X1Y0 d a b x y)
  | .sdiv d a b x y => wordOf 0x06800000 (opsD16A9B2X1Y0 d a b x y)
  | .sdivn d a b x y => wordOf 0x07000000 (opsD16A9B2X1Y0 d a b x y)
  | .srem d a b x y => wordOf 0x07800000 (opsD16A9B2X1Y0 d a b x y)
  | .sremn d a b x y => wordOf 0x08000000 (opsD16A9B2X1Y0 d a b x y)
  | .sand d a b x y => wordOf 0x08800000 (opsD16A9B2X1Y0 d a b x y)
  | .sor d a b x y => wordOf 0x09000000 (opsD16A9B2X1Y0 d a b x y)
  | .sxor d a b x y => wordOf 0x09800000 (opsD16A9B2X1Y0 d a b x y)
  | .sandn d a b x y => wordOf 0x0A000000 (opsD16A9B2X1Y0 d a b x y)
  | .sshl d a b x y => wordOf 0x0A800000 (opsD16A9B2X1Y0 d a b x y)
  | .sshr d a b x y => wordOf 0x0B000000 (opsD16A9B2X1Y0 d a b x y)
  | .ssra d a b x y => wordOf 0x0B800000 (opsD16A9B2X1Y0 d a b x y)
  | .srot d a b x y => wordOf 0x0C000000 (opsD16A9B2X1Y0 d a b x y)
  | .smin d a b x y => wordOf 0x0C800000 (opsD16A9B2X1Y0 d a b x y)
  | .smax d a b x y => wordOf 0x0D000000 (opsD16A9B2X1Y0 d a b x y)
  | .sminn d a b x y => wordOf 0x0D800000 (opsD16A9B2X1Y0 d a b x y)
  | .smaxn d a b x y => wordOf 0x0E000000 (opsD16A9B2X1Y0 d a b x y)
  | .ssel d a b x y => wordOf 0x0E800000 (opsD16A9B2X1Y0 d a b x y)
  | .sclz d a x => wordOf 0x10000000 (opsD16A9X1 d a x)
  | .sctz d a x => wordOf 0x10800000 (opsD16A9X1 d a x)
  | .spopc d a x => wordOf 0x11000000 (opsD16A9X1 d a x)
  | .sbfe d a b x y => wordOf 0x11800000 (opsD16A9B2X1Y0 d a b x y)
  | .sbfi d a b x y => wordOf 0x12000000 (opsD16A9B2X1Y0 d a b x y)
  | .sset c d a b x y => wordOf 0x14000000 (opsC23D16A9B2X1Y0 c d a b x y)
  | .saddi d a i => wordOf 0x20000000 (opsD17A10I0 d a i)
  | .sandi d a i => wordOf 0x21000000 (opsD17A10I0 d a i)
  | .sori d a i => wordOf 0x22000000 (opsD17A10I0 d a i)
  | .sxori d a i => wordOf 0x23000000 (opsD17A10I0 d a i)
  | .sshli d a n => wordOf 0x24000000 (opsD17A10N0 d a n)
  | .sshri d a n => wordOf 0x25000000 (opsD17A10N0 d a n)
  | .ssrai d a n => wordOf 0x26000000 (opsD17A10N0 d a n)
  | .smovi d i => wordOf 0x28000000 (opsD19I0 d i)
  | .shigh d i => wordOf 0x2C000000 (opsD19I0 d i)
  | .sfadd t d a b x y => wordOf 0x30000000 (opsT25D16A9B2X1Y0 t d a b x y)
  | .sfmul t d a b x y => wordOf 0x30800000 (opsT25D16A9B2X1Y0 t d a b x y)
  | .sffma t d a b x y => wordOf 0x31000000 (opsT25D16A9B2X1Y0 t d a b x y)
  | .sfdiv t d a b x y => wordOf 0x31800000 (opsT25D16A9B2X1Y0 t d a b x y)
  | .sfset t c d a b x y => wordOf 0x34000000 (opsT25C23D16A9B2X1Y0 t c d a b x y)
  | .sfcvt p q d a x => wordOf 0xFC000000 (opsP18Q16D9A2X1 p q d a x)
  | .ppush k => wordOf 0x38000000 (opsK9 k)
  | .pinv => wordOf 0x38800000 0
  | .ppop => wordOf 0x39000000 0
  | .psetm k a x => wordOf 0x39800000 (opsK16A9X1 k a x)
  | .pgetm d k => wordOf 0x3A000000 (opsD16K9 d k)
  | .mlog o d a b => wordOf 0x3C000000 (opsO23D16A9B2 o d a b)
  | .br o => wordOf 0x40000000 (opsO0 o)
  | .brz a o => wordOf 0x40800000 (opsA16O0 a o)
  | .brnz a o => wordOf 0x41000000 (opsA16O0 a o)
  | .brany k o => wordOf 0x41800000 (opsK16O0 k o)
  | .brall k o => wordOf 0x42000000 (opsK16O0 k o)
  | .call a o => wordOf 0x42800000 (opsA16O0 a o)
  | .ret a x => wordOf 0x44000000 (opsA9X1 a x)
  | .jmpi a x => wordOf 0x44800000 (opsA9X1 a x)
  | .yield => wordOf 0x45000000 0
  | .haltg => wordOf 0x45800000 0
  | .nop => wordOf 0x46000000 0
  | .region i => wordOf 0x48000000 (opsI0 i)
  | .vand d a b x y => wordOf 0x50000000 (opsD16A9B2X1Y0 d a b x y)
  | .vor d a b x y => wordOf 0x50800000 (opsD16A9B2X1Y0 d a b x y)
  | .vxor d a b x y => wordOf 0x51000000 (opsD16A9B2X1Y0 d a b x y)
  | .viota d b y => wordOf 0x51800000 (opsD16B2Y0 d b y)
  | .vmovs d b y => wordOf 0x52000000 (opsD16B2Y0 d b y)
  | .vsel k d a b x y => wordOf 0x54000000 (opsK23D16A9B2X1Y0 k d a b x y)
  | .vcmp w c m a b x y => wordOf 0x58000000 (opsW26C23M16A9B2X1Y0 w c m a b x y)
  | .vadd32 d a b x y => wordOf 0x60000000 (opsD16A9B2X1Y0 d a b x y)
  | .vsub32 d a b x y => wordOf 0x60800000 (opsD16A9B2X1Y0 d a b x y)
  | .vmul32 d a b x y => wordOf 0x61000000 (opsD16A9B2X1Y0 d a b x y)
  | .vmad32 d a b x y => wordOf 0x61800000 (opsD16A9B2X1Y0 d a b x y)
  | .vshl32 d a b x y => wordOf 0x62000000 (opsD16A9B2X1Y0 d a b x y)
  | .vshr32 d a b x y => wordOf 0x62800000 (opsD16A9B2X1Y0 d a b x y)
  | .vsra32 d a b x y => wordOf 0x63000000 (opsD16A9B2X1Y0 d a b x y)
  | .vmulhI32 d a b x y => wordOf 0x63800000 (opsD16A9B2X1Y0 d a b x y)
  | .vmulhN32 d a b x y => wordOf 0x64000000 (opsD16A9B2X1Y0 d a b x y)
  | .vminI32 d a b x y => wordOf 0x64800000 (opsD16A9B2X1Y0 d a b x y)
  | .vminN32 d a b x y => wordOf 0x65000000 (opsD16A9B2X1Y0 d a b x y)
  | .vmaxI32 d a b x y => wordOf 0x65800000 (opsD16A9B2X1Y0 d a b x y)
  | .vmaxN32 d a b x y => wordOf 0x66000000 (opsD16A9B2X1Y0 d a b x y)
  | .vsaddI32 d a b x y => wordOf 0x66800000 (opsD16A9B2X1Y0 d a b x y)
  | .vsaddN32 d a b x y => wordOf 0x67000000 (opsD16A9B2X1Y0 d a b x y)
  | .vssubI32 d a b x y => wordOf 0x67800000 (opsD16A9B2X1Y0 d a b x y)
  | .vssubN32 d a b x y => wordOf 0x68000000 (opsD16A9B2X1Y0 d a b x y)
  | .vbfeI32 d a b x y => wordOf 0x68800000 (opsD16A9B2X1Y0 d a b x y)
  | .vbfeN32 d a b x y => wordOf 0x69000000 (opsD16A9B2X1Y0 d a b x y)
  | .vadd64 d a b x y => wordOf 0x69800000 (opsD16A9B2X1Y0 d a b x y)
  | .vsub64 d a b x y => wordOf 0x6A000000 (opsD16A9B2X1Y0 d a b x y)
  | .vshl64 d a b x y => wordOf 0x6A800000 (opsD16A9B2X1Y0 d a b x y)
  | .vshr64 d a b x y => wordOf 0x6B000000 (opsD16A9B2X1Y0 d a b x y)
  | .vsra64 d a b x y => wordOf 0x6B800000 (opsD16A9B2X1Y0 d a b x y)
  | .vadd16 d a b x y => wordOf 0x6C000000 (opsD16A9B2X1Y0 d a b x y)
  | .vsub16 d a b x y => wordOf 0x6C800000 (opsD16A9B2X1Y0 d a b x y)
  | .vsaddI16 d a b x y => wordOf 0x6D000000 (opsD16A9B2X1Y0 d a b x y)
  | .vssubI16 d a b x y => wordOf 0x6D800000 (opsD16A9B2X1Y0 d a b x y)
  | .vadd8 d a b x y => wordOf 0x6E000000 (opsD16A9B2X1Y0 d a b x y)
  | .vsub8 d a b x y => wordOf 0x6E800000 (opsD16A9B2X1Y0 d a b x y)
  | .vsaddI8 d a b x y => wordOf 0x6F000000 (opsD16A9B2X1Y0 d a b x y)
  | .vssubI8 d a b x y => wordOf 0x6F800000 (opsD16A9B2X1Y0 d a b x y)
  | .vfadd t d a b x y => wordOf 0x70000000 (opsT26D16A9B2X1Y0 t d a b x y)
  | .vfsub t d a b x y => wordOf 0x70800000 (opsT26D16A9B2X1Y0 t d a b x y)
  | .vfmul t d a b x y => wordOf 0x71000000 (opsT26D16A9B2X1Y0 t d a b x y)
  | .vffma t d a b x y => wordOf 0x71800000 (opsT26D16A9B2X1Y0 t d a b x y)
  | .vfmin t d a b x y => wordOf 0x72000000 (opsT26D16A9B2X1Y0 t d a b x y)
  | .vfmax t d a b x y => wordOf 0x72800000 (opsT26D16A9B2X1Y0 t d a b x y)
  | .vfdiv t d a b x y => wordOf 0x73000000 (opsT26D16A9B2X1Y0 t d a b x y)
  | .vfcmp t c m a b x y => wordOf 0x80000000 (opsT25C23M16A9B2X1Y0 t c m a b x y)
  | .vpack f d a b x y => wordOf 0x90000000 (opsF23D16A9B2X1Y0 f d a b x y)
  | .vunpk d a f j => wordOf 0x94000000 (opsD17A10F6J0 d a f j)
  | .vscale d a i => wordOf 0x95000000 (opsD17A10I0 d a i)
  | .vshuf s d a b x y => wordOf 0x98000000 (opsS23D16A9B2X1Y0 s d a b x y)
  | .vbcast d a b x y => wordOf 0x9A800000 (opsD16A9B2X1Y0 d a b x y)
  | .vballot d a x => wordOf 0x9B000000 (opsD16A9X1 d a x)
  | .vxch d b y => wordOf 0x9B800000 (opsD16B2Y0 d b y)
  | .vrebal k d a b x y => wordOf 0x9C000000 (opsK23D16A9B2X1Y0 k d a b x y)
  | .vabs w d a x => wordOf 0xFC400000 (opsW16D9A2X1 w d a x)
  | .vneg w d a x => wordOf 0xFC440000 (opsW16D9A2X1 w d a x)
  | .vclz w d a x => wordOf 0xFC480000 (opsW16D9A2X1 w d a x)
  | .vpopc w d a x => wordOf 0xFC4C0000 (opsW16D9A2X1 w d a x)
  | .vmov w d a x => wordOf 0xFC520000 (opsW16D9A2X1n w d a x)
  | .vfsqrt t d a x => wordOf 0xFC800000 (opsT16D9A2X1 t d a x)
  | .vfrcp t d a x => wordOf 0xFC840000 (opsT16D9A2X1 t d a x)
  | .vfrsq t d a x => wordOf 0xFC880000 (opsT16D9A2X1 t d a x)
  | .vfexp2 t d a x => wordOf 0xFC8C0000 (opsT16D9A2X1 t d a x)
  | .vflog2 t d a x => wordOf 0xFC900000 (opsT16D9A2X1 t d a x)
  | .vfclass t d a x => wordOf 0xFC940000 (opsT16D9A2X1 t d a x)
  | .vfabs t d a x => wordOf 0xFC980000 (opsT16D9A2X1 t d a x)
  | .vfneg t d a x => wordOf 0xFC9C0000 (opsT16D9A2X1 t d a x)
  | .vcvt p q d a x => wordOf 0xFD000000 (opsP20Q16D9A2X1 p q d a x)
  | .vred o t d a x => wordOf 0xFE000000 (opsO19T16D9A2X1 o t d a x)
  | .vscan o t d a x => wordOf 0xFE400000 (opsO19T16D9A2X1 o t d a x)
  | .mma f c a b r e x y => wordOf 0xA0000000 (opsF23C20A13B6R5E3X1Y0 f c a b r e x y)
  | .mmas f c a b r e p x y => wordOf 0xA4000000 (opsF23C20A13B6R5E3P2X1Y0 f c a b r e p x y)
  | .mxeOperation _ => none
  | .mgang a x => wordOf 0xA8000000 (opsA9X1 a x)
  | .mzero c => wordOf 0xA8800000 (opsC16 c)
  | .maccr d c b y => wordOf 0xA9000000 (opsD16C9B2Y0 d c b y)
  | .maccw c a b x y => wordOf 0xA9800000 (opsC16A9B2X1Y0 c a b x y)
  | .maccst c a x => wordOf 0xAA000000 (opsC16A9X1 c a x)
  | .maccld c a x => wordOf 0xAA800000 (opsC16A9X1 c a x)
  | .vld f d a b x y => wordOf 0xB0000000 (opsF23D16A9B2X1Y0 f d a b x y)
  | .vst f d a b x y => wordOf 0xB4000000 (opsF23D16A9B2X1Y0 f d a b x y)
  | .vlds f d a b x y => wordOf 0xB4000000 (opsF23D16A9B2X1Y0 f d a b x y)
  | .vldp w d a x => wordOf 0xB8000000 (opsW23D16A9X1 w d a x)
  | .vstp w d a x => wordOf 0xB9000000 (opsW23D16A9X1 w d a x)
  | .vgath w d a b x y => wordOf 0xBA000000 (opsW23D16A9B2X1Y0 w d a b x y)
  | .vscat w d a b x y => wordOf 0xBB000000 (opsW23D16A9B2X1Y0 w d a b x y)
  | .vldo d a x p t o s => wordOf 0xBC000000 (opsD16A9X8P7T4O2S0 d a x p t o s)
  | .sldo d a x p t o s => wordOf 0xBC800000 (opsD16A9X8P7T4O2S0 d a x p t o s)
  | .vsto d a x t o s => wordOf 0xBD000000 (opsD16A9X8T4O2S0 d a x t o s)
  | .ssto d a x t o s => wordOf 0xBD800000 (opsD16A9X8T4O2S0 d a x t o s)
  | .swaitge d a x p t o s => wordOf 0xBE000000 (opsD16A9X8P7T4O2S0 d a x p t o s)
  | .sld d a x t => wordOf 0xBE800000 (opsD16A9X8T4 d a x t)
  | .sst d a x t => wordOf 0xBF000000 (opsD16A9X8T4 d a x t)
  | .pollReperform _ _ => none
  | .xld m z d a b x y => wordOf 0xC0000000 (opsM24Z23D16A9B2X1Y0 m z d a b x y)
  | .xst m z d a b x y => wordOf 0xC4000000 (opsM24Z23D16A9B2X1Y0 m z d a b x y)
  | .vatom o d a x t r s => wordOf 0xC8000000 (opsO23D16A9X8T4R2S0 o d a x t r s)
  | .satom o d a x t r s => wordOf 0xCC000000 (opsO23D16A9X8T4R2S0 o d a x t r s)
  | .fence o s => wordOf 0xFC100000 (opsO2S0 o s)
  | .zld d a b x y => wordOf 0xD0000000 (opsD16A9B2X1Y0 d a b x y)
  | .zst d a b x y => wordOf 0xD0800000 (opsD16A9B2X1Y0 d a b x y)
  | .zcurOpen d a b x y => wordOf 0xD1000000 (opsD16A9B2X1Y0 d a b x y)
  | .zcurClose d a x => wordOf 0xD1800000 (opsD16A9X1 d a x)
  | .znext k d a b x y => wordOf 0xD2000000 (opsK23D16A9B2X1Y0n k d a b x y)
  | .zgen d a b x y => wordOf 0xD3000000 (opsD16A9B2X1Y0 d a b x y)
  | .zatom o d a b x y => wordOf 0xD4000000 (opsO23D16A9B2X1Y0 o d a b x y)
  | .reclaimSweep _ => none
  | .push d a q => wordOf 0xD8000000 (opsD16A9Q2 d a q)
  | .waitc m => wordOf 0xD8800000 (opsM2 m)
  | .sgetwp d c => wordOf 0xD9000000 (opsD16C2 d c)
  | .trecld d a k x => wordOf 0xD9800000 (opsD16A9K2X1 d a k x)
  | .barinit a b x => wordOf 0xE0000000 (opsA9B2X1 a b x)
  | .bararv b => wordOf 0xE0800000 (opsB2 b)
  | .bararw b => wordOf 0xE1000000 (opsB2 b)
  | .barw b => wordOf 0xE1800000 (opsB2 b)
  | .ringputClaim d r => wordOf 0xE2000000 (opsD16R2 d r)
  | .ringputPub d r => wordOf 0xE2800000 (opsD16R2 d r)
  | .ringgetTake d r => wordOf 0xE3000000 (opsD16R2 d r)
  | .ringgetFree d r => wordOf 0xE3800000 (opsD16R2 d r)
  | .mbpost a b x y => wordOf 0xE4000000 (opsA9B2X1Y0 a b x y)
  | .mbtake d a b x y => wordOf 0xE4800000 (opsD16A9B2X1Y0 d a b x y)
  | .txbegin d n => wordOf 0xE8000000 (opsD16N2 d n)
  | .txend d => wordOf 0xE8800000 (opsD16 d)
  | .txabort n => wordOf 0xE9000000 (opsN2 n)
  | .txstat d => wordOf 0xE9800000 (opsD16 d)
  | .srd d n => wordOf 0xF0000000 (opsD19N0 d n)
  | .swr d n => wordOf 0xF4000000 (opsD19N0 d n)
  | .trap n => wordOf 0xF8000000 (opsN2 n)
  | .eret => wordOf 0xF8800000 0
  | .tinva d a b x y => wordOf 0xF9000000 (opsD16A9B2X1Y0 d a b x y)
  | .tinvc d a x => wordOf 0xF9800000 (opsD16A9X1 d a x)
  | .launch d a => wordOf 0xFA000000 (opsD16A9 d a)
  | .arml d a b x y => wordOf 0xFA800000 (opsD16A9B2X1Y0 d a b x y)
  | .ctxsave d a x => wordOf 0xFB000000 (opsD16A9X1 d a x)
  | .ctxload d a x => wordOf 0xFB800000 (opsD16A9X1 d a x)
  | .idle => wordOf 0xFFC00000 0
  | .keysel a x => wordOf 0xFFC10000 (opsA2X1 a x)
  | .rtcall d a x => wordOf 0xFFC20000 (opsD9A2X1 d a x)
  | .rtMeasurementLog _ _ => none
  | .rtQuote _ _ => none
  | .rtRandom _ _ => none
  | .spdmRequest _ => none
  | .clauseFetch _ => none
  | .longLatencyLanding _ _ => none
  | .vxchMatch _ _ => none
  | .vxchTimeout _ => none
  | .throttleInterval _ => none
  | .copy _ => none
  | .multicastCopy _ => none
  | .densify _ => none
  | .qfence _ => none
  | .gather _ => none
  | .sectorDelivery _ => none
  | .commandComplete _ => none
  | .rqcWindowTimeout _ => none
  | .rqcLineReturn _ _ => none
  | .passOpen _ => none
  | .subscribe _ => none
  | .start _ => none
  | .abort _ => none
  | .sweepFetch _ _ => none
  | .catchupFetch _ _ _ => none
  | .deliver _ _ _ => none
  | .mergeRecord _ => none
  | .migration _ => none
  | .migrationRelease _ => none
  | .migrationLine _ => none
  | .migrationLineLands _ => none
  | .walkComplete _ => none
  | .invalidationComplete _ => none
  | .gets _ => none
  | .getx _ => none
  | .upg _ => none
  | .rdu _ => none
  | .mwb _ => none
  | .farAtomic _ => none
  | .putm _ => none
  | .pute _ => none
  | .memoryData _ => none
  | .invack _ => none
  | .fwdack _ => none
  | .doneMsg _ => none
  | .fwdDataCopy _ => none
  | .recallAck _ => none
  | .grant _ => none
  | .invMsg _ => none
  | .fwds _ => none
  | .fwdx _ => none
  | .fwdd _ => none
  | .rclMsg _ => none
  | .putack _ => none
  | .spillReturn _ => none
  | .errorResponse _ => none
  | .slcPcdump _ _ => none
  | .pcdumpCopyDone _ => none
  | .zrgRegister _ => none
  | .zrgUnregister _ => none
  | .teamRingWrite _ _ => none
  | .grpRmWrite _ => none
  | .grpTrsmWrite _ => none
  | .rqcCtlWrite _ => none
  | .coreThrottleWrite _ => none
  | .slcErrClear _ _ => none
  | .cpeErrClear _ _ => none
  | .rqcErrClear _ => none
  | .dspSvbaseWrite _ => none
  | .dspSvlenWrite _ => none
  | .frqBaseWrite _ => none
  | .dtrIrqClear _ => none
  | .netRxWrite _ _ => none
  | .netRxtWrite _ _ => none
  | .pwrCapWrite _ => none
  | .accessTableWrite _ _ _ => none
  | .dbgStop _ _ _ => none
  | .debugTrap _ => none
  | .sysregWrite _ _ => none
  | .heldRecordWrite _ => none
  | .frqRespResume _ => none
  | .frqRespKillAccess _ => none
  | .frqRespKillLaunch _ => none
  | .launchCommand _ => none
  | .setdet _ => none
  | .startConditionPoll _ => none
  | .blockPlacement _ => none
  | .blockEnd _ _ => none
  | .preemption _ _ => none
  | .stopLimit _ => none
  | .blockResume _ _ => none
  | .orderedFlush _ _ => none
  | .rankEndReport _ => none
  | .ticketRequest _ => none
  | .reservationHead _ => none
  | .validationAnswers _ => none
  | .commitWrite _ => none
  | .fallbackLockGrant => none
  | .merge _ => none
  | .split _ => none
  | .pmReset _ => none
  | .pmFence _ => none
  | .restart _ => none
  | .quiesceDrained => none
  | .quiesceTimeout => none
  | .phase2Complete => none
  | .send _ => none
  | .ethMessageReceive _ _ _ _ _ => none
  | .cxlDoorbell _ => none
  | .cxlMemRequest _ _ _ _ _ _ => none
  | .linkTrainingFailure _ => none
  | .powerThrottle => none
  | .packageReset _ _ => none
  | .illegalInstruction _ => none
  | .pcieFunctionRequest _ _ _ _ _ => none
  | .rootOfTrustNotice _ => none

/-- The instruction that the decoder reads from an instruction of `nbits` bits numbered as the opcode table numbers them: one
word, stored with its bit 0 in the least significant bit of its first byte. -/
def decodeTableWord (nbits w : Nat) : Option Instr :=
  if nbits = 32 then
    match decode (BitVec.ofNat 32 w) with
    | .ok i => some i
    | .error _ => none
  else none

end Sys2Proof
end

