-- ==== Sys2Proof/Config.lean ====
section
/-! DEFINITION. What the machine leaves open (free values with no body, named in notes/assumptions) and the constants an
implementation fixes. -/

namespace Sys2Proof.Config

/-- The bits of VFEXP2 or VFLOG2 where the interval arithmetic of `Machine/Float.lean` decides none (log entry 13): no
operand is known for which this is used. -/
opaque transcendental : Nat → Nat → Nat

/-- The bits that a byte of memory which no write has reached holds since power-on (R34), by the place of the byte (log entry 6). -/
opaque powerOn : Nat → BitVec 8

/-- The 64 bytes of the two AES keys of a key slot, by slot plus 1,024 times the generation of its key: the root-of-trust processor
generates them, and no register reads them (R33; log entry 14). -/
opaque keyMaterial : Nat → BitVec 512

/-- Which evictable line of a full set a cache or home gives up, by a free counter: the replacement order is not architectural (R80;
log entry 22). -/
opaque victim : Nat → Nat

/-- One less than the messages that one virtual channel holds at a router's input (R97: flow control is credit-based, and the manual
gives no depth; log entry 23). -/
opaque channelDepth : Nat

/-- A random byte, a signature byte or an answer byte of the root-of-trust processor (R410), by a free counter and a place
(log entry 15). -/
opaque rotByte : Nat → Nat → BitVec 8

/-- The first busy queue that a MERGE or SPLIT reports where no queue is busy and only accesses are outstanding (Table 19.4; log
entry 19), by a free counter. -/
opaque busyReport : Nat → BitVec 64

/-- Does a message reach its destination, and is it received there: by a free counter (R413; log entry 20)? -/
opaque reaches : Nat → Bool

/-- A register of a saved group whose save pool software has written, by a free counter and a place (R395; log entry 17). -/
opaque tampered : Nat → Nat → BitVec 64

/-- The virtual address of the clause at which firmware starts every distaff thread (log entry 2). -/
def firmwareEntry : Nat := 0

/-- Hardware threads of one distaff core: the manual names a thread by two bits (log entry 3). -/
def threadsPerDistaff : Nat := 4

end Sys2Proof.Config
end

