-- ==== Sys2Proof/Machine/Float.lean ====
section
/-! DEFINITION. Number formats and rounding (spec/08_number_formats.md, R165 to R182): values as exact dyadic numbers,
one rounding at the end of every operation. -/

namespace Sys2Proof.Machine

/-- The rounding modes of Table 8.6. -/
inductive Mode where
  | rne | rtz | rdn | rup | rna
  deriving DecidableEq, Repr

/-- The mode field of `GRP.RM` (Table 8.5). A reserved code is never held (R176). -/
def Mode.ofCode : Nat → Mode
  | 1 => .rtz
  | 2 => .rdn
  | 3 => .rup
  | 4 => .rna
  | _ => .rne

/-- The floating-point formats of Tables 8.2 and 8.3. -/
inductive Fmt where
  | f16 | b16 | f32 | f64 | zt8 | zt6
  deriving DecidableEq, Repr

/-- A value of a floating-point format: NaN (or NaR), an infinity, or `(-1)^neg * m * 2^e` exactly; `m = 0` is a zero. -/
inductive FVal where
  | nan
  | inf (neg : Bool)
  | num (neg : Bool) (m : Nat) (e : Int)
  deriving DecidableEq, Repr

/-- Significant bits of an IEEE format (R167). -/
def Fmt.prec : Fmt → Nat
  | .f16 => 11
  | .b16 => 8
  | .f32 => 24
  | .f64 => 53
  | .zt8 => 6
  | .zt6 => 6

/-- Bits of the whole element. -/
def Fmt.bits : Fmt → Nat
  | .f16 => 16
  | .b16 => 16
  | .f32 => 32
  | .f64 => 64
  | .zt8 => 8
  | .zt6 => 6

/-- Bits of the exponent field: the `es` of a tapered format (Table 8.3). -/
def Fmt.ebits : Fmt → Nat
  | .f16 => 5
  | .b16 => 8
  | .f32 => 8
  | .f64 => 11
  | .zt8 => 1
  | .zt6 => 0

/-- A tapered format (R170). -/
def Fmt.tapered : Fmt → Bool
  | .zt8 => true
  | .zt6 => true
  | _ => false

/-- The exponent bias of an IEEE format (Table 8.2). -/
def Fmt.bias (f : Fmt) : Nat := 2 ^ (f.ebits - 1) - 1

/-- The exponent of the unit of the least significant place of a subnormal. -/
def Fmt.qmin (f : Fmt) : Int := 1 - (f.bias : Int) - ((f.prec : Int) - 1)

/-- The exponent field value of infinities and NaNs. -/
def Fmt.emaxField (f : Fmt) : Nat := 2 ^ f.ebits - 1

/-- The encoding of +infinity. -/
def Fmt.infBits (f : Fmt) : Nat := f.emaxField * 2 ^ (f.prec - 1)

/-- The canonical quiet NaN of the format (Table 8.2), or NaR. -/
def Fmt.canonNaN (f : Fmt) : Nat :=
  if f.tapered then 2 ^ (f.bits - 1) else f.infBits + 2 ^ (f.prec - 2)

/-- `m * 2^k` for a natural `k`, `floor(m / 2^(-k))` for a negative one. -/
def shiftTo (m : Nat) (k : Int) : Nat :=
  if 0 ≤ k then m * 2 ^ k.toNat else m / 2 ^ (-k).toNat

/-- Compare two non-negative dyadic numbers exactly. -/
def dyadicLt (m : Nat) (e : Int) (n : Nat) (f : Int) : Bool :=
  let lo := min e f
  decide (m * 2 ^ (e - lo).toNat < n * 2 ^ (f - lo).toNat)

/-- Leading bits equal to `b` of the low `n` bits of `x`, from bit `n - 1` down (the run of R170). -/
def runLen (x : Nat) (b : Bool) : Nat → Nat
  | 0 => 0
  | n + 1 => if x.testBit n = b then runLen x b n + 1 else 0

/-- R170: the magnitude of a tapered word `y` (positive, neither zero nor NaR), as `m * 2^e`. -/
def taperedMag (bits es y : Nat) : Nat × Int :=
  let r := y.testBit (bits - 2)
  let run := runLen y r (bits - 1)
  let k : Int := if r then (run : Int) - 1 else -(run : Int)
  let restBits := (bits - 1) - (run + 1)
  let rest := y % 2 ^ restBits
  let ePart := if es ≤ restBits then rest / 2 ^ (restBits - es) else rest * 2 ^ (es - restBits)
  let fBits := restBits - es
  let f := rest % 2 ^ fBits
  (2 ^ fBits + f, k * (2 ^ es : Nat) + (ePart : Int) - (fBits : Int))

/-- Decode a tapered word (R170). -/
def decodeTapered (f : Fmt) (x : Nat) : FVal :=
  let x := x % 2 ^ f.bits
  if x = 0 then .num false 0 0
  else if x = 2 ^ (f.bits - 1) then .nan
  else
    let neg := x.testBit (f.bits - 1)
    let y := if neg then 2 ^ f.bits - x else x
    let p := taperedMag f.bits f.ebits y
    .num neg p.1 p.2

/-- Decode an IEEE or B16 word (R167). -/
def decodeIeee (f : Fmt) (x : Nat) : FVal :=
  let neg := x.testBit (f.bits - 1)
  let ex := x / 2 ^ (f.prec - 1) % 2 ^ f.ebits
  let fr := x % 2 ^ (f.prec - 1)
  if ex = f.emaxField then (if fr = 0 then .inf neg else .nan)
  else if ex = 0 then .num neg fr f.qmin
  else .num neg (2 ^ (f.prec - 1) + fr) ((ex : Int) - 1 + f.qmin)

/-- The value an encoding stands for. -/
def Fmt.decode (f : Fmt) (x : Nat) : FVal :=
  if f.tapered then decodeTapered f x else decodeIeee f x

/-- Does rounding move the magnitude up? `half` compares the discarded part with one half
(`lt`, `eq` or `gt`), and `odd` is bit 0 of the lower neighbour's encoding (Table 8.6). Nothing moves when `exact`. -/
def roundsUp (md : Mode) (neg exact odd : Bool) (half : Ordering) : Bool :=
  if exact then false
  else match md with
    | .rtz => false
    | .rdn => neg
    | .rup => !neg
    | .rne => match half with
      | .lt => false
      | .gt => true
      | .eq => odd
    | .rna => match half with
      | .lt => false
      | _ => true

/-- The result of an overflow: infinity or the largest finite value, as IEEE 754 specifies for the mode (R180). -/
def overflowBits (f : Fmt) (md : Mode) (neg : Bool) : Nat :=
  let toInf := match md with
    | .rne => true
    | .rna => true
    | .rtz => false
    | .rdn => neg
    | .rup => !neg
  if toInf then f.infBits else f.infBits - 1

/-- Round `m * 2^e`, plus a positive amount below one unit of `2^e` where `sticky`, to the magnitude bits of an IEEE
format. `m` must be positive, and with `sticky` it must hold at least two bits more than the precision. -/
def roundIeee (f : Fmt) (md : Mode) (neg : Bool) (m : Nat) (e : Int) (sticky : Bool) : Nat :=
  let q := max ((Nat.log2 m : Int) + e - ((f.prec : Int) - 1)) f.qmin
  let n := shiftTo m (e - q)
  let d := (q - e).toNat
  let rem := if e < q then m % 2 ^ d else 0
  let hb := if e < q then 2 ^ (d - 1) else 1
  let exact := decide (rem = 0) && !sticky
  let half := if rem < hb then Ordering.lt else if rem = hb && !sticky then .eq else .gt
  let n' := if roundsUp md neg exact (n % 2 == 1) half then n + 1 else n
  let b := (q - f.qmin).toNat * 2 ^ (f.prec - 1) + n'
  if f.infBits ≤ b then overflowBits f md neg else b

/-- The largest positive tapered encoding, up to `k`, whose value is at most `m * 2^e`; 0 where there is none. -/
def taperedFloor (bits es m : Nat) (e : Int) : Nat → Nat
  | 0 => 0
  | k + 1 =>
    let p := taperedMag bits es (k + 1)
    if dyadicLt m e p.1 p.2 then taperedFloor bits es m e k else k + 1

/-- R179: narrow the positive value `m * 2^e` to a tapered format: the magnitude word. -/
def roundTapered (f : Fmt) (md : Mode) (neg : Bool) (m : Nat) (e : Int) : Nat :=
  let top := 2 ^ (f.bits - 1) - 1
  let k := taperedFloor f.bits f.ebits m e top
  if k = top then top
  else
    let lo := if k = 0 then (0, (0 : Int)) else taperedMag f.bits f.ebits k
    let hi := taperedMag f.bits f.ebits (k + 1)
    let g := min lo.2 hi.2
    let s := lo.1 * 2 ^ (lo.2 - g).toNat + hi.1 * 2 ^ (hi.2 - g).toNat
    let exact := !dyadicLt lo.1 lo.2 m e
    let half := if dyadicLt m (e + 1) s g then Ordering.lt
      else if dyadicLt s g m (e + 1) then .gt else .eq
    if roundsUp md neg exact (k % 2 == 1) half then k + 1 else k

/-- Put the sign on a magnitude: the sign bit of an IEEE format, two's complement of a tapered one. -/
def withSign (f : Fmt) (neg : Bool) (b : Nat) : Nat :=
  if neg then (if f.tapered then (2 ^ f.bits - b) % 2 ^ f.bits else 2 ^ (f.bits - 1) + b) else b

/-- Encode a value in a format, rounded once by the mode. -/
def Fmt.encode (f : Fmt) (md : Mode) (v : FVal) (sticky : Bool := false) : Nat :=
  match v with
  | .nan => f.canonNaN
  | .inf neg => if f.tapered then f.canonNaN else withSign f neg f.infBits
  | .num neg m e =>
    if m = 0 then withSign f neg 0
    else if f.tapered then withSign f neg (roundTapered f md neg m e)
    else withSign f neg (roundIeee f md neg m e sticky)

/-- The sign of an exact zero sum of two values whose signs are `a` and `b` (R168). -/
def zeroSign (md : Mode) (a b : Bool) : Bool :=
  if a = b then a else decide (md = Mode.rdn)

/-- Exact sum. -/
def FVal.add (md : Mode) : FVal → FVal → FVal
  | .nan, _ => .nan
  | _, .nan => .nan
  | .inf a, .inf b => if a = b then .inf a else .nan
  | .inf a, _ => .inf a
  | _, .inf b => .inf b
  | .num a m e, .num b n f =>
    let lo := min e f
    let x : Int := (if a then -1 else 1) * (m * 2 ^ (e - lo).toNat : Nat)
    let y : Int := (if b then -1 else 1) * (n * 2 ^ (f - lo).toNat : Nat)
    let s := x + y
    if s = 0 then .num (zeroSign md a b) 0 0 else .num (decide (s < 0)) s.natAbs lo

/-- The negated value. -/
def FVal.neg : FVal → FVal
  | .nan => .nan
  | .inf a => .inf (!a)
  | .num a m e => .num (!a) m e

/-- Exact product. -/
def FVal.mul : FVal → FVal → FVal
  | .nan, _ => .nan
  | _, .nan => .nan
  | .inf a, .inf b => .inf (a != b)
  | .inf a, .num b n _ => if n = 0 then .nan else .inf (a != b)
  | .num a m _, .inf b => if m = 0 then .nan else .inf (a != b)
  | .num a m e, .num b n f => .num (a != b) (m * n) (e + f)

/-- The value is a NaN or a NaR. -/
def FVal.isNaN : FVal → Bool
  | .nan => true
  | _ => false

/-- The value is a zero. -/
def FVal.isZero : FVal → Bool
  | .num _ 0 _ => true
  | _ => false

/-- The sign of the value. -/
def FVal.sign : FVal → Bool
  | .nan => false
  | .inf a => a
  | .num a _ _ => a

/-- `x < y`, neither being a NaN, with the two zeros equal (R210). -/
def FVal.lt : FVal → FVal → Bool
  | .nan, _ => false
  | _, .nan => false
  | .inf a, .inf b => a && !b
  | .inf a, .num _ _ _ => a
  | .num _ _ _, .inf b => !b
  | .num a m e, .num b n f =>
    if m = 0 && n = 0 then false
    else if m = 0 then !b
    else if n = 0 then a
    else if a != b then a
    else if a then dyadicLt n f m e else dyadicLt m e n f

/-- `x = y`, neither being a NaN; +0 equals -0 (R210). -/
def FVal.eq (x y : FVal) : Bool := !x.isNaN && !y.isNaN && !x.lt y && !y.lt x

/-- The conditions of SFSET and VFCMP (R210, R232). -/
def fcmp (c : Nat) (x y : FVal) : Bool :=
  match c with
  | 0 => x.eq y
  | 1 => x.lt y
  | 2 => x.lt y || x.eq y
  | _ => x.isNaN || y.isNaN

/-- An IEEE operation on two encodings: decode, compute exactly, round once. -/
def fadd (f : Fmt) (md : Mode) (a b : Nat) : Nat := f.encode md ((f.decode a).add md (f.decode b))

/-- `a - b`. -/
def fsub (f : Fmt) (md : Mode) (a b : Nat) : Nat := f.encode md ((f.decode a).add md (f.decode b).neg)

/-- `a * b`. -/
def fmul (f : Fmt) (md : Mode) (a b : Nat) : Nat := f.encode md ((f.decode a).mul (f.decode b))

/-- `a * b + c`, rounded once (R209). -/
def ffma (f : Fmt) (md : Mode) (a b c : Nat) : Nat :=
  f.encode md (((f.decode a).mul (f.decode b)).add md (f.decode c))

/-- `a / b`, rounded once (R209). -/
def fdiv (f : Fmt) (md : Mode) (a b : Nat) : Nat :=
  match f.decode a, f.decode b with
  | .nan, _ => f.canonNaN
  | _, .nan => f.canonNaN
  | .inf _, .inf _ => f.canonNaN
  | .inf s, .num t _ _ => f.encode md (.inf (s != t))
  | .num s _ _, .inf t => f.encode md (.num (s != t) 0 0)
  | .num s m e, .num t n g =>
    if n = 0 then (if m = 0 then f.canonNaN else f.encode md (.inf (s != t)))
    else if m = 0 then f.encode md (.num (s != t) 0 0)
    else
      let k := f.prec + 3 + Nat.log2 n
      let x := m * 2 ^ k
      f.encode md (.num (s != t) (x / n) (e - g - (k : Int))) (!(x % n == 0))

/-- minimumNumber of R168: a NaN gives the other operand, two give the canonical NaN, and -0 orders below +0. -/
def fmin (f : Fmt) (a b : Nat) : Nat :=
  let x := f.decode a
  let y := f.decode b
  if x.isNaN then (if y.isNaN then f.canonNaN else b)
  else if y.isNaN then a
  else if x.isZero && y.isZero then (if x.sign then a else b)
  else if y.lt x then b else a

/-- maximumNumber of R168. -/
def fmax (f : Fmt) (a b : Nat) : Nat :=
  let x := f.decode a
  let y := f.decode b
  if x.isNaN then (if y.isNaN then f.canonNaN else b)
  else if y.isNaN then a
  else if x.isZero && y.isZero then (if x.sign then b else a)
  else if x.lt y then b else a

/-- The integer square root, bit by bit from bit `n - 1` of the root down, over the root `r` found so far. -/
def isqrtGo (x : Nat) : Nat → Nat → Nat
  | 0, r => r
  | n + 1, r =>
    let c := r + 2 ^ n
    if c * c ≤ x then isqrtGo x n c else isqrtGo x n r

/-- The floor of the square root. -/
def isqrt (x : Nat) : Nat := isqrtGo x (Nat.log2 x / 2 + 1) 0

/-- Square root, correctly rounded (R233). -/
def fsqrt (f : Fmt) (md : Mode) (a : Nat) : Nat :=
  match f.decode a with
  | .nan => f.canonNaN
  | .inf s => if s then f.canonNaN else f.encode md (.inf false)
  | .num s m e =>
    if m = 0 then f.encode md (.num s 0 0)
    else if s then f.canonNaN
    else
      let k := 2 * (f.prec + 3) + (if e % 2 = 0 then 0 else 1)
      let x := m * 2 ^ k
      let r := isqrt x
      f.encode md (.num false r ((e - (k : Int)) / 2)) (!(r * r == x))

/-- The reciprocal, correctly rounded (R233). -/
def frcp (f : Fmt) (md : Mode) (a : Nat) : Nat := fdiv f md (f.encode .rne (.num false 1 0)) a

/-- The reciprocal square root, correctly rounded once (R233). -/
def frsq (f : Fmt) (md : Mode) (a : Nat) : Nat :=
  match f.decode a with
  | .nan => f.canonNaN
  | .inf s => if s then f.canonNaN else f.encode md (.num false 0 0)
  | .num s m e =>
    if m = 0 then f.encode md (.inf s)
    else if s then f.canonNaN
    else
      -- 1 / sqrt(m * 2^e), with e made even: floor(sqrt(2^(2k) / m')) * 2^(-e'/2 - k)
      let m' := if e % 2 = 0 then m else 2 * m
      let e' := if e % 2 = 0 then e else e - 1
      let k := f.prec + 3 + Nat.log2 m'
      let r := isqrt (2 ^ (2 * k) / m')
      f.encode md (.num false r (-(e' / 2) - (k : Int))) (!(r * r * m' == 2 ^ (2 * k)))

/-- One interval step of 2^f: multiply the bounds, scaled by 2^P, by the bounds of 2^(2^-i) where bit i of f is 1, and
take the square root of the factor's bounds. -/
def exp2Go (P : Nat) : List Bool → Nat → Nat → Nat → Nat → Nat × Nat
  | [], _, _, lo, hi => (lo, hi)
  | b :: r, flo, fhi, lo, hi =>
    let glo := isqrt (flo * 2 ^ P)
    let ghi := isqrt (fhi * 2 ^ P) + 1
    if b then exp2Go P r glo ghi (lo * glo / 2 ^ P) (hi * ghi / 2 ^ P + 1)
    else exp2Go P r glo ghi lo hi

/-- The bits of a fraction `x / 2^n`, from the most significant. -/
def fracBits (x : Nat) : Nat → List Bool
  | 0 => []
  | n + 1 => x.testBit n :: fracBits x n

/-- `floor(2^(x / 2^n) * 2^k)` for `0 < x < 2^n`, where `P` bits of interval arithmetic decide it. -/
def exp2Frac (x n k P : Nat) : Option Nat :=
  let r := exp2Go P (fracBits x n) (2 * 2 ^ P) (2 * 2 ^ P) (2 ^ P) (2 ^ P)
  if r.1 / 2 ^ (P - k) = r.2 / 2 ^ (P - k) then some (r.1 / 2 ^ (P - k)) else none

/-- The first answer of a list of attempts. -/
def firstSome : List (Option Nat) → Option Nat
  | [] => none
  | some x :: _ => some x
  | none :: r => firstSome r

/-- 2^a, correctly rounded (R233). A value that is not an integer power is irrational, so the rounding is never exact. -/
def fexp2 (f : Fmt) (md : Mode) (a : Nat) : Nat :=
  match f.decode a with
  | .nan => f.canonNaN
  | .inf s => if s then f.encode md (.num false 0 0) else f.encode md (.inf false)
  | .num s m e =>
    let one := 2 ^ (f.prec + 3)
    let base : Int := -((f.prec : Int) + 3)
    if m = 0 then f.encode md (.num false 1 0)
    else if 0 ≤ e || m % 2 ^ (-e).toNat = 0 then
      -- an integer exponent, cut where the result overflows or underflows in any case
      let n := shiftTo m (min e 14)
      let n : Int := if s then -(min n 40000 : Nat) else (min n 40000 : Nat)
      f.encode md (.num false one (base + n))  
    else
      let n := (-e).toNat
      if (Nat.log2 m : Int) + e < -((f.prec : Int) + 4) then
        -- |a| below 2^-(prec + 4): the result is 1 with a remainder of the sign of a
        if s then f.encode md (.num false (2 * one - 1) (base - 1)) true
        else f.encode md (.num false one base) true
      else
        let ip := min (m / 2 ^ n) 40000
        let fp := m % 2 ^ n
        let ip' : Int := if s then -(ip : Int) - 1 else ip
        let fp' := if s then 2 ^ n - fp else fp
        let k := f.prec + 3
        match firstSome [exp2Frac fp' n k (k + 40 + Nat.log2 (n + 1)), exp2Frac fp' n k (4 * k + 64 + n)] with
        | some r => f.encode md (.num false r (ip' - (k : Int))) true
        | none => Config.transcendental 0 a

/-- Bits of log2 of a number in [1, 2) whose bounds are `lo / 2^P` and `hi / 2^P`, by repeated squaring, most significant
first; `none` where the interval decides no bit. -/
def log2Go (P : Nat) : Nat → Nat → Nat → Nat → Option Nat
  | 0, _, _, acc => some acc
  | n + 1, lo, hi, acc =>
    let l := lo * lo / 2 ^ P
    let h := hi * hi / 2 ^ P + 1
    if 2 * 2 ^ P ≤ l then log2Go P n (l / 2) (h / 2 + 1) (2 * acc + 1)
    else if h < 2 * 2 ^ P then log2Go P n l h (2 * acc)
    else none

/-- `floor(log2(m / 2^w) * 2^k)` for `2^w < m < 2^(w+1)`, with `P` bits. -/
def log2Frac (m w k P : Nat) : Option Nat :=
  log2Go P k (m * 2 ^ P / 2 ^ w) (m * 2 ^ P / 2 ^ w + 1) 0

/-- log2 a, correctly rounded (R233). A value whose logarithm is not an integer has an irrational logarithm. -/
def flog2 (f : Fmt) (md : Mode) (a : Nat) : Nat :=
  match f.decode a with
  | .nan => f.canonNaN
  | .inf s => if s then f.canonNaN else f.encode md (.inf false)
  | .num s m e =>
    if m = 0 then f.encode md (.inf true)
    else if s then f.canonNaN
    else
      let w := Nat.log2 m
      let n : Int := (w : Int) + e
      if m = 2 ^ w then f.encode md (.num (decide (n < 0)) n.natAbs 0)
      else
        let k := 2 * f.prec + 6
        match firstSome [log2Frac m w k (2 * k + 40), log2Frac m w k (4 * k + 200)] with
        | none => Config.transcendental 1 a
        | some r =>
          if 0 ≤ n then f.encode md (.num false (n.toNat * 2 ^ k + r) (-(k : Int))) true
          else f.encode md (.num true ((-n).toNat * 2 ^ k - r - 1) (-(k : Int))) true

/-- The class code of R234. -/
def fclass (f : Fmt) (x : Nat) : Nat :=
  let neg := x.testBit (f.bits - 1)
  let ex := x / 2 ^ (f.prec - 1) % 2 ^ f.ebits
  let fr := x % 2 ^ (f.prec - 1)
  if ex = f.emaxField then
    (if fr = 0 then (if neg then 2 ^ 0 else 2 ^ 7)
     else if fr.testBit (f.prec - 2) then 2 ^ 9 else 2 ^ 8)
  else if ex = 0 then
    (if fr = 0 then (if neg then 2 ^ 3 else 2 ^ 4) else (if neg then 2 ^ 2 else 2 ^ 5))
  else (if neg then 2 ^ 1 else 2 ^ 6)

/-- R180: round a value to an integer by the mode. NaN gives 0; infinities are left to the caller's saturation. -/
def roundInt (md : Mode) (neg : Bool) (m : Nat) (e : Int) : Int :=
  let n := shiftTo m e
  let d := (-e).toNat
  let rem := if e < 0 then m % 2 ^ d else 0
  let hb := if e < 0 then 2 ^ (d - 1) else 1
  let half := if rem < hb then Ordering.lt else if rem = hb then .eq else .gt
  let n' := if roundsUp md neg (decide (rem = 0)) (n % 2 == 1) half then n + 1 else n
  if neg then -(n' : Int) else n'

/-- Clamp to a range. -/
def clampInt (lo hi x : Int) : Int := if x < lo then lo else if hi < x then hi else x

/-- R180: a value to an integer of `n` bits, rounded by the mode and saturated. -/
def toInteger (signed : Bool) (n : Nat) (md : Mode) (v : FVal) : Int :=
  let lo : Int := if signed then -(2 ^ (n - 1) : Nat) else 0
  let hi : Int := if signed then (2 ^ (n - 1) : Nat) - 1 else (2 ^ n : Nat) - 1
  match v with
  | .nan => 0
  | .inf neg => if neg then lo else hi
  | .num neg m e => clampInt lo hi (roundInt md neg m e)

/-- An integer as a value. -/
def ofInteger (x : Int) : FVal := .num (decide (x < 0)) x.natAbs 0

/-- The two's-complement word of `n` bits that holds an integer. -/
def wrapInt (n : Nat) (x : Int) : Nat := (x % (2 ^ n : Nat)).toNat

/-- The signed value of the low `n` bits of a word. -/
def signedOf (n x : Nat) : Int :=
  let y := x % 2 ^ n
  if y.testBit (n - 1) then (y : Int) - (2 ^ n : Nat) else y

/-- The format codes of Table 9.8: an integer with its signedness and width, or a floating-point format. -/
inductive Code where
  | int (signed : Bool) (bits : Nat)
  | flt (f : Fmt)
  deriving DecidableEq, Repr

/-- Table 9.8. -/
def Code.of : Nat → Option Code
  | 0 => some (.int true 8)
  | 1 => some (.int false 8)
  | 2 => some (.int true 16)
  | 3 => some (.int false 16)
  | 4 => some (.int true 32)
  | 5 => some (.int false 32)
  | 6 => some (.int true 64)
  | 7 => some (.int false 64)
  | 8 => some (.flt .f16)
  | 9 => some (.flt .b16)
  | 10 => some (.flt .f32)
  | 11 => some (.flt .f64)
  | 12 => some (.flt .zt8)
  | 13 => some (.flt .zt6)
  | _ => none

/-- The width of a code's element. -/
def Code.bits : Code → Nat
  | .int _ n => n
  | .flt f => f.bits

/-- R179 to R181: convert one element. -/
def convert (md : Mode) (dst src : Code) (x : Nat) : Nat :=
  match src, dst with
  | .int s n, .int t k =>
    let v : Int := if s then signedOf n x else ((x % 2 ^ n : Nat) : Int)
    let lo : Int := if t then -(2 ^ (k - 1) : Nat) else 0
    let hi : Int := if t then (2 ^ (k - 1) : Nat) - 1 else (2 ^ k : Nat) - 1
    wrapInt k (clampInt lo hi v)
  | .int s n, .flt f =>
    f.encode md (ofInteger (if s then signedOf n x else ((x % 2 ^ n : Nat) : Int)))
  | .flt f, .int t k => wrapInt k (toInteger t k md (f.decode (x % 2 ^ f.bits)))
  | .flt f, .flt g => g.encode md (f.decode (x % 2 ^ f.bits))

/-- R175: one matrix block. `terms` are the pairs (A, B) of its positions, `ieee` says whether they are B16 or F16, and
`scale` is the exponent of both scales (`none` when a scale is 0xFF). The result is the new accumulator word. -/
def blockUpdate (ieee : Bool) (terms : List (FVal × FVal)) (scale : Option Int) (acc : Nat) : Nat :=
  let bad := terms.any (fun t => t.1.isNaN || t.2.isNaN)
  match scale with
  | none => Fmt.canonNaN .f32
  | some k =>
    if bad then Fmt.canonNaN .f32
    else
      let prods := terms.map (fun t => t.1.mul t.2)
      let allNegZero := ieee && !prods.isEmpty && prods.all (fun p => p.isZero && p.sign)
      let sum := prods.foldl (fun (a : FVal) (p : FVal) => FVal.add .rne a p) (FVal.num false 0 0)
      let q : FVal := match sum with
        | .nan => .nan
        | .inf s => .inf s
        | .num s m e => if m = 0 then .num allNegZero 0 0 else .num s m (e + k)
      Fmt.encode .f32 .rne ((Fmt.decode .f32 acc).add .rne q)

end Sys2Proof.Machine
end

