-- ==== Sys2Proof/Machine/Table.lean ====
section
/-! DEFINITION. Sparse tables keyed by a number: one list of pairs in one canonical form (keys strictly rising).
Every container of the state that is indexed by an address, a register, a slot or a token is such a table. -/

namespace Sys2Proof.Machine

/-- A table: pairs of a key and a value, keys strictly rising. -/
abbrev Tab (α : Type) := List (Nat × α)

/-- The value at a key, if the table lists it. -/
def Tab.find {α : Type} : Tab α → Nat → Option α
  | [], _ => none
  | (j, v) :: r, k => if j = k then some v else Tab.find r k

/-- The value at a key, or `d` where the table lists none. -/
def Tab.getD {α : Type} (t : Tab α) (k : Nat) (d : α) : α :=
  match t.find k with
  | some v => v
  | none => d

/-- Does the table list the key? -/
def Tab.has {α : Type} (t : Tab α) (k : Nat) : Bool := (t.find k).isSome

/-- Write one entry, keeping the keys rising. -/
def Tab.put {α : Type} : Tab α → Nat → α → Tab α
  | [], k, x => [(k, x)]
  | (j, v) :: r, k, x =>
    if k < j then (k, x) :: (j, v) :: r
    else if k = j then (k, x) :: r
    else (j, v) :: Tab.put r k x

/-- Remove what a key lists. -/
def Tab.del {α : Type} : Tab α → Nat → Tab α
  | [], _ => []
  | (j, v) :: r, k => if j = k then Tab.del r k else (j, v) :: Tab.del r k

/-- Write an entry of a table whose unlisted keys read as `d`: writing `d` removes the entry. -/
def Tab.putD {α : Type} [DecidableEq α] (t : Tab α) (d : α) (k : Nat) (x : α) : Tab α :=
  if x = d then t.del k else t.put k x

/-- Change the entry at a key, where there is one. -/
def Tab.upd {α : Type} (t : Tab α) (k : Nat) (f : α → α) : Tab α :=
  match t.find k with
  | some v => t.put k (f v)
  | none => t

/-- The lowest key from `k` on, within `n` keys, that the table does not list. -/
def Tab.free {α : Type} (t : Tab α) : Nat → Nat → Nat
  | k, 0 => k
  | k, n + 1 => if t.has k then Tab.free t (k + 1) n else k

/-- The keys are strictly rising, and above `lo` where one is given. -/
def Tab.risingFrom {α : Type} : Nat → Tab α → Bool
  | _, [] => true
  | lo, (j, _) :: r => decide (lo ≤ j) && Tab.risingFrom (j + 1) r

/-- The canonical form of a table. -/
def Tab.wf {α : Type} (t : Tab α) : Bool := Tab.risingFrom 0 t

/-- A set of numbers as a list in rising order: insertion. -/
def insertNat : List Nat → Nat → List Nat
  | [], k => [k]
  | j :: r, k => if k < j then k :: j :: r else if k = j then j :: r else j :: insertNat r k

/-- Removal from a set of numbers. -/
def eraseNat (l : List Nat) (k : Nat) : List Nat := l.filter (fun j => !(j == k))

/-- The element at a place of a list, or a default. -/
def nth {α : Type} : List α → Nat → α → α
  | [], _, d => d
  | x :: _, 0, _ => x
  | _ :: r, n + 1, d => nth r n d

/-- Replace the element at a place of a list. -/
def setNth {α : Type} : List α → Nat → α → List α
  | [], _, _ => []
  | _ :: r, 0, x => x :: r
  | y :: r, n + 1, x => y :: setNth r n x

/-- Remove the element at a place of a list. -/
def dropNth {α : Type} : List α → Nat → List α
  | [], _ => []
  | _ :: r, 0 => r
  | y :: r, n + 1 => y :: dropNth r n

/-- The place of the first element that satisfies `p`, counted from `n`. -/
def placeOf {α : Type} (p : α → Bool) : List α → Nat → Option Nat
  | [], _ => none
  | x :: r, n => if p x then some n else placeOf p r (n + 1)

end Sys2Proof.Machine
end

