-- ==== Sys2Proof/Machine/Router.lean ====
section
/-! DEFINITION. The die network (spec/04_caches_coherence_network.md R94 to R96): the graph of a compute die's 50 routers, their route
tables, and the path of a message. A site is a die (0 to 3; 4 the host die, which has no router graph) and a router of it. -/

namespace Sys2Proof.Machine

/-! ## The graph (R94) -/

/-- The vertex of a router. -/
structure Vertex where
  s : Nat
  x : Nat
  y : Nat
  deriving DecidableEq, Repr

/-- Router `i` is the vertex with *i* = 25*s* + 5*x* + *y*. -/
def vertexOf (i : Nat) : Vertex := ⟨i / 25, i / 5 % 5, i % 5⟩

/-- The router of a vertex. -/
def Vertex.router (v : Vertex) : Nat := 25 * v.s + 5 * v.x + v.y

/-- Table 4.8: the router that a port links to; none for port 7, which is the local bay or the package fabric. -/
def linkOf (i p : Nat) : Option Nat :=
  let v := vertexOf i
  if p = 0 then some (Vertex.router ⟨v.s, v.x, (v.y + v.s + 1) % 5⟩)
  else if p = 1 then some (Vertex.router ⟨v.s, v.x, (v.y + 4 - v.s) % 5⟩)
  else if p < 7 then
    let j := p - 2
    some (Vertex.router (if v.s = 0 then ⟨1, j, (v.y + 20 - j * v.x) % 5⟩ else ⟨0, j, (v.x * j + v.y) % 5⟩))
  else none

/-- The port of router `i` that links it to router `k`. -/
def portTo (i k : Nat) : Option Nat := (upto 7).find? (fun p => linkOf i p == some k)

/-- Router 48 is bridge 0, and router 49 is bridge 1. -/
def bridge (b : Nat) : Nat := 48 + b % 2

/-! ## Route tables (R95) -/

/-- The first port of the unique minimal route from router `i` to router `k`; port 7 at its end. -/
def routePort (i k : Nat) : Nat :=
  if i = k then 7
  else match portTo i k with
    | some p => p
    | none => ((upto 7).find? (fun p => match linkOf i p with
      | some j => (portTo j k).isSome
      | none => false)).getD 7

/-- A router: its route table of 50 entries, and whether it has failed its self-test. -/
structure Router where
  table : List Nat
  failed : Bool
  deriving DecidableEq, Repr

/-- A router as reset loads it. -/
def Router.reset (i : Nat) : Router := ⟨(upto 50).map (routePort i), false⟩

/-! ## Paths (R96, R97) -/

/-- Where a message stands: a die and router, the input it came in by (7: its own bay, bridge or fabric) and its hop index. -/
structure Spot where
  die : Nat
  router : Nat
  inp : Nat
  vc : Nat
  deriving DecidableEq, Repr

/-- One link that a message has still to cross: the output port of the router it stands at, and where it arrives. -/
structure Hop where
  port : Nat
  goal : Spot
  deriving DecidableEq, Repr

/-- The hops of a leg within one die, by the route tables, from hop index `vc`. A message that reaches the bridge of its die is passed on
by the remote-data cache there (R87), so that the requests of one half leave in one order: its input is then 7. -/
def legHops (table : Nat → List Nat) (die dst : Nat) (leave : Bool) : Nat → Nat → Nat → List Hop
  | 0, _, _ => []
  | n + 1, src, vc =>
    if src = dst then []
    else
      let p := nth (table src) dst 7
      match linkOf src p with
      | none => []
      | some j =>
        ⟨p, ⟨die, j, if leave && j == dst then 7 else (portTo j src).getD 7, vc⟩⟩ :: legHops table die dst leave n j (vc + 1)

/-- R96: the bridge that a message uses: bit 0 of the home line index of the line it names, or the source router's number modulo 2. -/
def bridgeFor (line : Option Nat) (src : Nat) : Nat :=
  match line with
  | some l => bridge l
  | none => bridge src

/-- R96: the path of a message from one site to another: within a die, or to the bridge of its die, across the package fabric, and from the
bridge of the other die. Hop indices 0 and 1 stand before the fabric, 2 and 3 after it (R97). -/
def pathOf (table : Nat → Nat → List Nat) (src dst : Nat × Nat) (line : Option Nat) : List Hop :=
  if src.1 = dst.1 then (if src.1 = 4 then [] else legHops (table src.1) src.1 dst.2 false 2 src.2 0)
  else
    let b := bridgeFor line src.2
    (if src.1 = 4 then [] else legHops (table src.1) src.1 b true 2 src.2 0)
      ++ [⟨7, ⟨dst.1, b, 7, 1⟩⟩]
      ++ (if dst.1 = 4 then [] else legHops (table dst.1) dst.1 dst.2 false 2 b 2)

end Sys2Proof.Machine
end

