-- ==== Sys2Proof/Machine/State.lean ====
section
/-! DEFINITION. The state of a Jartar Boxel node as plain data: every piece of state the manual names, the reasons a step
can stop, and the machine right after reset. -/

namespace Sys2Proof.Machine

/-! ## Control threads: SIMT groups and distaff hardware threads -/

/-- What kind of control thread: a SIMT group (R8) or a distaff hardware thread (R9). -/
inductive Kind where
  | group
  | distaff
  deriving DecidableEq, Repr

/-- Why a control thread issues or does not issue. -/
inductive Status where
  /-- A group slot that holds no resident group, or whose block is saved. -/
  | vacant
  /-- Resident or running: it may issue. -/
  | running
  /-- Stopped by a fault record that waits for an answer (R392), or by an unhandled trap (R385). -/
  | parked
  /-- The group has ended (R217). -/
  | ended
  /-- A distaff thread stopped by HALTG, or by a trap in its handler (R217, R399). -/
  | stopped
  /-- A distaff thread that waits in IDLE (R330). -/
  | idle
  /-- Its block has been asked to stop and the group has stopped (R393). -/
  | halted
  deriving DecidableEq, Repr

/-- Scalar, vector and mask registers with their full/empty and poison bits (R144, R146, R150, R82). A vector register's
lane `l` of `v k` has the key `64 * k + l`. -/
structure Regs where
  sreg : Tab Word
  vreg : Tab Lane
  mask : Tab Mask
  sEmpty : List Nat
  vEmpty : List Nat
  sPoison : List Nat
  vPoison : List Nat
  deriving DecidableEq, Repr

/-- The clause a thread executes (R183, R187): its header address, the next word (0 while the clause has not begun), the
words fetched, header first (none before the fetch), and the address whose fetch faulted. -/
structure Fetch where
  hdr : Word
  wix : Nat
  words : List Lane
  deriving DecidableEq, Repr

/-- Who the thread is (R142, R148): `core` is a global core index, or the number of a distaff core; `slot` the group slot or
the hardware thread; `team` the key of its team. -/
structure Ident where
  core : Nat
  slot : Nat
  team : Nat
  lnum : Nat
  block : Nat
  gnum : Nat
  crank : Nat
  wcode : Nat
  nvr : Nat
  role : Nat
  deriving DecidableEq, Repr

/-- An operand set of a matrix operation that waits in the rendezvous latch (R256); `bad`: its B descriptor's register was poisoned
(R262). -/
structure MatOp where
  sparse : Bool
  fmt : Nat
  acc : Nat
  sp : Bool
  badr : Nat
  bswz : Nat
  va : Nat
  bsel : Nat
  reuse : Bool
  bad : Bool
  deriving DecidableEq, Repr

/-- What the thread waits for inside the word at its position. -/
inductive Wait where
  | none
  /-- BARARW or BARW on a barrier, against a recorded phase; once a completion has ended the wait, the scope of its acquire
  (R311, R159, R301). -/
  | barrier (b : Nat) (phase : Bool) (ahead : Option Nat)
  /-- An offer of VXCH: the register, the scalar that names the partner, and the active lanes (R245). -/
  | exchange (vd : Nat) (goal : Word) (lanes : Mask)
  /-- A matrix operation in the rendezvous latch (R256). -/
  | latch (op : MatOp)
  /-- A commit (R355): its ticket (0 while it is requested), the slices that have not answered, the lanes that passed (C, once
  it is formed), and whether a validation met poison (R362). -/
  | commit (ticket : Nat) (slices : List Nat) (pass : Mask) (bad : Bool)
  /-- A release that has written the masked bytes of its core back, up to the masked write-back of this number. -/
  | release (upto : Nat)
  /-- A retry that waits for the fallback lock before it transfers to `RH` (R319). -/
  | lock
  deriving DecidableEq, Repr

/-- Does the wait leave its word at a boundary (R386)? A release leaves nothing half done. -/
def Wait.idle : Wait → Bool
  | .none => true
  | .release _ => true
  | _ => false

/-- The rank of a memory order and scope (R190). -/
structure Order where
  acq : Bool
  rel : Bool
  scope : Nat
  deriving DecidableEq, Repr

/-- What one lane's memory access does at the place where it is performed. -/
inductive AccOp where
  /-- A load of `n` bytes. -/
  | load
  /-- A store of the bytes of the number `v`; bit `i` of `bad` marks byte `i` as poisoned (R83). -/
  | store (v bad : Nat)
  /-- A polling load: performed again until it differs from `expect` (R284). -/
  | poll (expect : Nat)
  /-- SWAITGE: performed again until it reaches the threshold (R285). -/
  | waitGe (least : Nat)
  /-- An atomic: operation, type code, operand and swap value, rounding mode code (R289). -/
  | atomic (op ty v s rm : Nat)
  deriving DecidableEq, Repr

/-- A translation entry of a TLB (R46), or a pointer a walk cache holds (Table 2.7): address space, level, virtual base, the
table entry's word, the draining mark and the invalidation that set it (R53). -/
structure TlbEntry where
  asid : Nat
  level : Nat
  vbase : Nat
  leaf : Word
  draining : Bool
  inval : Nat
  deriving DecidableEq, Repr

/-- One lane's access that has been translated and not yet performed. `pa` is the home byte address (or the physical address
word of a register, for `mmio`), `prod` the producer that receives its result with `lane`, `via` the translation it used,
`sync` a synchronising access (R380), `ticket` the Halyard ticket under which a far atomic of levels 1 and 2 is performed (R378),
0 for none, `va` its virtual address. -/
structure Access where
  agent : Nat
  prod : Nat
  lane : Nat
  op : AccOp
  pa : Nat
  size : Nat
  key : Nat
  scope : Nat
  mid : Nat
  via : Option TlbEntry
  sync : Bool
  ticket : Nat
  va : Nat
  deriving DecidableEq, Repr

/-- Where a landing result goes: a scalar register, a lane of a vector register, or a word of a tensor record slot (R309). -/
inductive Dest where
  | s (r : Nat)
  | v (r : Nat) (lane : Nat)
  | slot (k word : Nat)
  deriving DecidableEq, Repr

/-- What a producer waits on beside its accesses. -/
inductive Await where
  | none
  /-- Re-performed accesses of a polling load or SWAITGE (R286). -/
  | poll (accs : List Access)
  /-- The row of a share (R139): die, token word and row. -/
  | take (die : Nat) (token : Word) (row : Nat)
  /-- The root-of-trust processor's answer (R332): physical address of the request page, and the translation used. -/
  | rot (page : Word) (via : Option TlbEntry)
  deriving DecidableEq, Repr

/-- How the raw bytes of a lane become its registers: the first register, whether scalar, how many registers, the bytes,
and whether the last part is sign-extended. A form of 64 bytes is a tensor record for slot `count - 1` (R309). -/
structure Form where
  scalar : Bool
  reg : Nat
  count : Nat
  bytes : Nat
  signed : Bool
  deriving DecidableEq, Repr

/-- One lane's memory request before translation: the lane, its virtual address, what it does, its size, and whether it is a
synchronising access (R380). -/
structure LaneReq where
  lane : Nat
  va : Word
  op : AccOp
  size : Nat
  scope : Nat
  sync : Bool
  deriving DecidableEq, Repr

/-- A long-latency producer that has issued and not landed (R150): its destination registers, the values that have arrived, the
accesses that have not, what it waits on, the region it issued in, the acquire that ends it, the requests of a polling load or
SWAITGE, which a save issues again (R441), the header of its clause and the position after its word, for the trap of lanes that fail
(R384, R386, R389; none for the stores that the replay queue performs, whose trap is asynchronous); whether it is a store, which has
no destination, and whether its group waits for it because lanes of its word have failed already (R384). -/
structure Producer where
  id : Nat
  form : Form
  sdests : List Nat
  vdests : List Nat
  vals : List (Dest × Word)
  poison : List Dest
  left : Nat
  await : Await
  spin : Bool
  order : Order
  inRegion : Bool
  failed : List (Nat × Nat × Nat × Nat)
  reqs : List LaneReq
  hdr : Word
  rsm : Option Word
  store : Bool
  holds : Bool
  deriving DecidableEq, Repr

/-- A word or fetch parked on faults (R384, R392): the lanes not yet performed with their requests, their producer (0 for
none), whether it is a fetch, or a word that is issued again whole, the records not yet answered (token, lanes), and whether it is a
producer that a resume has issued again (R397). -/
structure Park where
  reqs : List LaneReq
  prod : Nat
  fetch : Bool
  answers : List (Nat × Mask)
  again : Bool
  deriving DecidableEq, Repr

/-- The read log, write buffer and phase of a transaction (R317, R352): `log` the bytes that a lane has read, `buf` the bytes
it will write, by `64 * home byte address + lane`, `bufBad` those of them that are poisoned (R83); `lkeys` the key of each line, `pages`
the translations used (R53), `wsync` the lines written, by plain and by synchronising accesses (R380). -/
structure Trans where
  live : Bool
  tm : Mask
  done : Mask
  d0 : Nat
  att : Nat
  budget : Nat
  fbk : Bool
  cause : Nat
  code : Nat
  rh : Word
  rd : Nat
  log : Tab Byte
  buf : Tab Byte
  bufBad : List Nat
  lkeys : Tab Nat
  pages : List TlbEntry
  wsync : List (Nat × Bool)
  deriving DecidableEq, Repr

/-- The trap registers: `GRP.TCS`, `GRP.TLM`, `GRP.TVA`, `GRP.TRSM` of a group (R385), or `DTR.CS`, `DTR.VA`, `DTR.RSM` of a
distaff thread with `DTR.VEC` and `DTR.IRQ` (R399, R404). -/
structure TrapRegs where
  tcs : Word
  tlm : Word
  tva : Word
  trsm : Word
  vec : Word
  irq : Word
  deriving DecidableEq, Repr

/-- The results that system operations leave in a thread's own registers: `ZRG.STAT` (R58), `KEY.STAT` (R331) and
`FRQ.RESP.ST` (R388). -/
structure Results where
  zrgStat : Word
  keyStat : Word
  frqSt : Nat
  deriving DecidableEq, Repr

/-- The slice a reuse latch holds (R261): `VA`, format, and the bytes. -/
structure Reuse where
  va : Nat
  fmt : Nat
  bytes : List Nat
  deriving DecidableEq, Repr

/-- A trap that a thread takes at its next word boundary (R386): cause, reason, code, lanes named, address and `MORE`; the header of
the clause of the word that failed, where it is not the clause the thread is in; and that word's resume point, none for an
asynchronous trap, which resumes at the word before which it is taken. -/
structure Later where
  cause : Nat
  reason : Nat
  code : Nat
  lanes : Mask
  va : Word
  more : Bool
  hdr : Option Word
  rsm : Option Word
  deriving DecidableEq, Repr

/-- A SIMT group or a distaff hardware thread. `stuck`: its latest turn found it not ready (R161). -/
structure Thread where
  kind : Kind
  status : Status
  ident : Ident
  priv : Bool
  regs : Regs
  fetch : Fetch
  rm : Nat
  xltRoot : Word
  xltAsid : Word
  wc : Tab Nat
  wcScope : Tab Nat
  pstack : List (Mask × Mask)
  region : Option Nat
  gap : Bool
  trap : TrapRegs
  res : Results
  gang : Nat
  reuse : Option Reuse
  wait : Wait
  barRec : Tab (Bool × Option Nat)
  producers : List Producer
  park : Option Park
  later : List Later
  stuck : Bool
  tx : Trans
  deriving DecidableEq, Repr

/-! ## Teams and cores -/

/-- A stage ring (R155): the configuration register without its read-only bits, `PME`, `REJ`, the full slots with the scope of
their producers (R156), and the indexes P and C. -/
structure Ring where
  cfg : Word
  pme : Bool
  rej : Bool
  full : Tab Nat
  prod : Nat
  cons : Nat
  deriving DecidableEq, Repr

/-- A named barrier, or a core's view of a cluster barrier (R157, R158), with the highest scope of an arrival counted in the
current phase (R159, R301). -/
structure Bar where
  expect : Nat
  count : Nat
  phase : Bool
  scope : Nat
  deriving DecidableEq, Repr

/-- A team on its core (R142, R143): scratchpad, stage rings 0 to 7, barriers b0 to b15 (0 to 15) and views of cb0 to cb3
(16 to 19), write pointers `CPE.WP`, error registers `CPE.ERR` (0 to 3) and `RQC.ERR` (4), tensor-walker record slots, and
the accumulator tiles (`acc(k, r, c)` at `6144 * k + 64 * r + c`, none where the team holds none, R248). -/
structure Team where
  core : Nat
  lnum : Nat
  block : Nat
  rank : Nat
  groups : Nat
  alloc : Nat
  cluster : Nat
  asid : Nat
  resident : Bool
  scratch : Tab Byte
  scratchPoison : List Nat
  rings : Tab Ring
  bars : Tab Bar
  wp : Tab Word
  err : Tab Word
  nseq : Tab Nat
  recSlots : Tab (List Word)
  tiles : Bool
  acc : Tab Lane
  accPoison : List Nat
  deriving DecidableEq, Repr

/-- One entry of a core's replay queue (R275): its number, the group, the stores of the lanes left, the header of their
clause, the records not yet answered (token, lanes) and the lanes killed (lane, cause, reason, address). -/
structure Replay where
  id : Nat
  agent : Nat
  reqs : List LaneReq
  hdr : Word
  answers : List (Nat × Mask)
  killed : List (Nat × Nat × Nat × Nat)
  deriving DecidableEq, Repr

/-- An operation the matrix engine has accepted (R256, R267): the team, the members in rising group number with their
operand bytes, and what to do: slices, A scales, B scales and position masks, one list for each member. -/
structure MatJob where
  team : Nat
  op : MatOp
  members : List Nat
  slices : List (List Nat)
  ascale : List (List Nat)
  bscale : List (List Nat)
  masks : List (List Nat)
  poisoned : Bool
  deriving DecidableEq, Repr

/-- A window of the request collector (R117): its lines with their keys, and the requests that wait on it. -/
structure Window where
  lines : List (Nat × Nat)
  reqs : List Access
  issued : Bool
  deriving DecidableEq, Repr

/-- A SIMT core (R80, R105, R116, R162, R275, R376, R437). `rqcWait` holds the collector's requests for which no window can open,
`stale` the slots whose latest acquire follows the opening of the open window (R117, R118). `active` holds the active set in the order
of entry, `queue` the slots of the ready pending groups in the order in which they have waited, and `denied` how often the first of
them has found no place (R162, R375). -/
structure Core where
  clk : Nat
  throttle : Word
  rqcCtl : Word
  scores : Tab Nat
  permits : List Nat
  withheld : Tab Nat
  victims : List (Nat × Nat)
  active : List Nat
  queue : List Nat
  denied : Nat
  dbgStop : Nat
  replay : List Replay
  mxq : List MatJob
  windows : List Window
  rqcWait : List Access
  stale : List Nat
  icache : Tab Lane
  deriving DecidableEq, Repr

/-! ## Memory, caches and coherence -/

/-- The MOESI state of a cached line; `U` is the untracked copy of the masked regime (R85, R88). -/
inductive Moesi where
  | U | S | E | M | O
  deriving DecidableEq, Repr

/-- Bytes that one block has staged in a line (R378): the launch, the block, the bytes and their mask, and whether plain and
synchronising writes are among them (R380). -/
structure Staged where
  lnum : Nat
  block : Nat
  data : BitVec 1024
  mask : BitVec 128
  plain : Bool
  sync : Bool
  deriving DecidableEq, Repr

/-- A line in an L1 or remote-data cache (R80, R85, R35): its bytes, dirty byte mask, `KEYID`, state, the poisoned 8-byte
units, what blocks have staged in it (R378), the speculative mark of a distaff transaction (R357), and the slot of the group
that last touched it (R376); `stale` where only its staged bytes are held, an acquire having invalidated the others (Table 4.3b). -/
structure CLine where
  data : BitVec 1024
  dirty : BitVec 128
  key : Nat
  st : Moesi
  poison : BitVec 16
  stage : List Staged
  spec : Bool
  toucher : Nat
  stale : Bool
  deriving DecidableEq, Repr

/-- The states of a directory entry (R88, Table 4.6). -/
inductive DirSt where
  | I | S | EM | O | MD | SI | FS | FX | FD | RC
  deriving DecidableEq, Repr

/-- The request and message kinds of the coherence protocol (R89 to R92), and `visit`, the request of an engine, a walker or a service
that its home cannot take at once (R98). -/
inductive MsgKind where
  | getS | getX | upg | rdU | mwb | fa | putM | putE | ev | visit
  | memData | invAck | fwdAck | done | fdData | rcAck
  | grant | inv | fwdS | fwdX | fwdD | rcl | putAck | error
  deriving DecidableEq, Repr

/-- Where a message is: in the network; received; or, a request, in the miss table or the spill queue of its slice (R98). -/
inductive Place where
  | wire | here | table | spill
  deriving DecidableEq, Repr

/-- A message in flight (R97). `src` and `dst` are owner codes of Table 4.4 (home: 254); `acc` an access performed at the home; `excl`
marks a grant of ownership, or an owner that keeps its copy, and `modified` a grant of the line in M; `tx` a request of a
transactional access, and `agent` the thread that makes it. `spot` is where it stands and `path` what it has still to cross (R96);
`clk` and `arr` are the slice clock and the order in which a request arrived (R89); `num` numbers the masked write-backs. -/
structure Msg where
  kind : MsgKind
  line : Nat
  src : Nat
  dst : Nat
  mid : Nat
  key : Nat
  data : BitVec 1024
  mask : BitVec 128
  poison : BitVec 16
  hasData : Bool
  excl : Bool
  modified : Bool
  acc : Option Access
  tx : Bool
  agent : Nat
  place : Place
  spot : Spot
  path : List Hop
  clk : Nat
  arr : Nat
  num : Nat
  deriving DecidableEq, Repr

/-- A directory entry (Table 4.4), with the request its transient state serves, the completions it still waits for, whether
the line is resident in its home's cache, and under which key (R35) and with which 8-byte units dirty (R82), and whether a transient
state came from O. -/
structure Dir where
  st : DirSt
  owner : Nat
  rsh : List Nat
  csv : List Nat
  dsh : List Nat
  resident : Bool
  req : Option Msg
  acks : Nat
  formerO : Bool
  key : Nat
  dirty : List Nat
  deriving DecidableEq, Repr

/-- A page access-counter entry (Table 1.5a). -/
structure PageCount where
  page : Nat
  rd : Nat
  wr : Nat
  deriving DecidableEq, Repr

/-- A page walk in flight (R47): the die whose walkers make it (4: the host die), for which address space and 4 KiB page, from
which root, under which master, the waiting threads and their structures. -/
structure Walk where
  place : Nat
  asid : Nat
  vpage : Nat
  root : Word
  mid : Nat
  waiters : List Nat
  deriving DecidableEq, Repr

/-- The fault of a walk that a waiting thread has still to take (R47). -/
structure WalkFault where
  agent : Nat
  asid : Nat
  vpage : Nat
  cause : Nat
  reason : Nat
  deriving DecidableEq, Repr

/-- An invalidation that is not complete, with the cores whose L1 TLB held a matched entry, and, once these have written
their masked bytes back, the number of the last such write-back (R53, R54). -/
structure Inval where
  num : Nat
  cores : List Nat
  mark : Option Nat
  deriving DecidableEq, Repr

/-- A migration context (R30): source and destination home addresses, size, keys, boundary, whether the boundary line is being recalled or
is in transit, poison seen, command, the line in transit with its poison, and the release command that is ending it (R32). -/
structure Migr where
  src : Nat
  dst : Nat
  skey : Nat
  dkey : Nat
  len : Nat
  bound : Nat
  transit : Bool
  moving : Bool
  poisoned : Bool
  cmd : Nat
  line : BitVec 1024
  linePoison : BitVec 16
  recalled : Bool
  ending : Option Nat
  deriving DecidableEq, Repr

/-! ## Engines -/

/-- How far a command has come. -/
inductive CmdSt where
  | queued
  | running
  /-- Stopped at a fault whose record waits (R115, R391). -/
  | faulted (token : Nat)
  /-- Only its status word and its signal are left. -/
  | finishing
  deriving DecidableEq, Repr

/-- A 32-byte sector an engine has fetched and not yet delivered (R109): the team whose scratchpad receives it, or a physical
address word; the address in delivery order (physical in a scratchpad, virtual in memory); and each byte with its poison, none
where it is not written. -/
structure Sector where
  team : Nat
  scratch : Bool
  addr : Nat
  pa : Word
  bytes : List (Option (Nat × Bool))
  deriving DecidableEq, Repr

/-- A translation that a command holds (R51): the page, whether it was made for writing, and the physical address word of its first
byte with the entry it came through, or the cause and reason of a fault that is reported when its tile is transferred. -/
structure Ahead where
  page : Nat
  write : Bool
  pa : Word
  via : Option TlbEntry
  fault : Option (Nat × Nat)
  deriving DecidableEq, Repr

/-- An accepted engine command (R300, R302): its queue, the agent, team and group number that pushed it, launch, partition, the words,
the address space and mode sampled, the master of the issuing core, and its number on its channel, or the number of its launch;
whether it has begun and ended its own work, its status, the units of work done and in all, the records it read, the sectors left with
the address from which they wait for the next unit, the translations of its current tile (R54), the words of its status record, what
of its completion is done, the teams that a multicast has reached, or the interrupt cores of the partitions that a partition-manager
command affects, the pieces of a gather's current row that have come, by virtual address and length (none of its bytes where its
request was lost), and the translations that a copy holds for coming tiles. -/
structure Cmd where
  id : Nat
  q : Nat
  agent : Nat
  team : Nat
  gnum : Nat
  lnum : Nat
  part : Nat
  words : List Word
  root : Word
  asid : Nat
  priv : Bool
  mid : Nat
  seq : Nat
  st : CmdSt
  started : Bool
  ended : Bool
  status : Nat
  prog : Nat
  total : Nat
  recs : List Word
  sectors : List Sector
  hold : Option Nat
  via : List TlbEntry
  out : List Word
  statusDone : Bool
  signalDone : Bool
  reached : List Nat
  got : List ((Nat × Nat) × List (Option (Nat × Bool)))
  ahead : List Ahead
  deriving DecidableEq, Repr

/-- A cursor of a sparse region (R74): the region, the generation, the launch that opened it. -/
structure Cursor where
  region : Nat
  gen : Nat
  lnum : Nat
  deriving DecidableEq, Repr

/-- A region-table entry (R56, R59): the descriptor's address, the range, the pools, generations, root and height, the
allocators (next node, next value slot, free value slots), the broken mark, the generations that densify commands pin (R78),
and the sweep under way: its master and the leaf it visits next, none at its start (R76, R79). -/
structure Region where
  desc : Word
  base : Nat
  len : Nat
  asid : Nat
  vsz : Nat
  widths : List Nat
  npool : Word
  vpool : Word
  ncnt : Nat
  vcnt : Nat
  cur : Nat
  lwm : Nat
  root : Nat
  hgt : Nat
  nnext : Nat
  vnext : Nat
  vfree : List Nat
  broken : Bool
  pins : List (Nat × Nat)
  sweep : Option (Nat × Option Nat)
  deriving DecidableEq, Repr

/-- The state of a share (Table 6.8). -/
inductive ShareSt where
  | catchup | live | sent | done | taken | aborted
  deriving DecidableEq, Repr

/-- A share of a query (R128, R129): `rows` is one less than its rows, `list` its pages, `next` how many the sweep or a catch-up
has taken for it, `bar` its barrier (16 and above: a cluster barrier), `taken` the rows it has taken. -/
structure Share where
  qh : Nat
  share : Nat
  nsh : Nat
  rows : Nat
  hd : Nat
  b16 : Bool
  list : List Nat
  next : Nat
  st : ShareSt
  slot : Nat
  team : Nat
  ring : Nat
  bar : Nat
  taken : List Nat
  deriving DecidableEq, Repr

/-- A page in the page store, with the shares it has still to be delivered to (R132): its image with poison (none until it has
been fetched), whether it is delivered as zeros, whether as the zeros of an unusable page (R141), the token of the fault its
fetch has stopped at, and the shares for which it is unusable because it has not their format (R122). -/
structure PageImg where
  pass : Nat
  page : Nat
  data : Option (List (Nat × Bool))
  zero : Bool
  unusable : Bool
  token : Option Nat
  goal : List Nat
  misfit : List Nat
  deriving DecidableEq, Repr

/-- A merge-buffer slot (R134): its record, its poisoned 8-byte units, and the share that it was made for (pass context, serial of
the pass, place of the share). -/
structure Slot where
  m : Nat
  l : Nat
  o : List Nat
  next : Nat
  qst : Nat
  poison : List Nat
  pix : Nat
  ser : Nat
  place : Nat
  deriving DecidableEq, Repr

/-- A formed result (R138): the triple, its status, and the 32-bit words of its record (R316) that are poisoned. -/
structure RowRes where
  m : Nat
  l : Nat
  o : List Nat
  status : Nat
  poison : List Nat
  deriving DecidableEq, Repr

/-- What an aborted pass still owes a share that has become TAKEN (R141): the ring as the share left it, the barrier and the scope of
the arrivals, the images already fetched, oldest first, and how many pages of zeros, of what size, follow. -/
structure Owed where
  team : Nat
  ring : Nat
  cfg : Word
  bar : Nat
  scope : Nat
  images : List (List (Nat × Bool))
  zeros : Nat
  size : Nat
  deriving DecidableEq, Repr

/-- A pass context (R125 to R131), in the address space of the team that opened it. A row's result has the key
`128 * l + row`, where `l` is the first share of its query. -/
structure Pass where
  ser : Nat
  dira : Word
  npg : Nat
  held : Bool
  pos : Nat
  asid : Nat
  root : Word
  priv : Bool
  part : Nat
  lnum : Nat
  shares : List Share
  results : Tab RowRes
  aborted : Bool
  deriving DecidableEq, Repr

/-- A record in the merge unit's input queue (R135). -/
structure Post where
  pix : Nat
  ser : Nat
  share : Nat
  m : Nat
  l : Nat
  pos : Nat
  row : Nat
  o : List Nat
  poison : Bool
  deriving DecidableEq, Repr

/-- The PME of a die with its merge unit (R125, R134, R135). -/
structure Pme where
  passes : Tab Pass
  serials : Tab Nat
  store : List PageImg
  slots : Tab Slot
  posts : List Post
  owed : List Owed
  deriving DecidableEq, Repr

/-! ## Transactions, launches, faults, partitions, the outside -/

/-- A signature entry (R351, R380): the line, the transaction's master ID and slot (or launch and block at level 2), and
the read, write and synchronising marks. -/
structure Sig where
  line : Nat
  agent : Nat
  r : Bool
  w : Bool
  deriving DecidableEq, Repr

/-- A registration of a level-2 access (R380): retired with a ticket or not. -/
structure RaceEnt where
  line : Nat
  lnum : Nat
  block : Nat
  w : Bool
  sync : Bool
  retired : Option Nat
  deriving DecidableEq, Repr

/-- A reservation at a slice (R355): of a commit, or of a far atomic that is performed under a flush's ticket (R378). -/
structure Resv where
  ticket : Nat
  agent : Nat
  slice : Nat
  head : Bool
  write : Bool
  atomic : Bool
  deriving DecidableEq, Repr

/-- A launch the dispatcher has accepted (R364, R365): its command, its issuer's stream and address space, its shape, and
the image's sections. -/
inductive LaunchSt where
  | waiting | running | complete
  deriving DecidableEq, Repr

/-- A launch. -/
structure Launch where
  cmd : List Word
  stream : Nat
  part : Nat
  root : Word
  asid : Nat
  priv : Bool
  rm : Nat
  det : Nat
  st : LaunchSt
  img : Nat
  codeOff : Nat
  trapOff : Nat
  regOff : Nat
  regCnt : Nat
  rank : Nat
  npkg : Nat
  bfirst : Nat
  bcnt : Nat
  bnext : Nat
  ended : List Nat
  killed : Bool
  team : Nat
  agent : Nat
  payload : Option Word
  rankReady : Bool
  deriving DecidableEq, Repr

/-- The life of a block (R371, R393). -/
inductive BlockSt where
  | resident
  /-- Stop has been requested (R393). -/
  | stopping
  | saved
  | ended
  deriving DecidableEq, Repr

/-- A block (R142): its launch, index, die, and its teams by cluster rank; the acquire ticket of R380; and the core and reason of a race
that is still to be reported (R381); `mark` the last masked write-back of a save's release (R393). -/
structure Block where
  lnum : Nat
  index : Nat
  die : Nat
  teams : List Nat
  st : BlockSt
  flushed : Bool
  acqTicket : Nat
  raced : Option (Nat × Nat)
  mark : Option Nat
  deriving DecidableEq, Repr

/-- A saved group (Table 18.5): the thread as it will resume, its replay entries, and the producers held for re-issue. -/
structure SavedGroup where
  thread : Thread
  whole : Bool
  replay : List Replay
  deriving DecidableEq, Repr

/-- A fault record (Table 18.4) as its eight words, with its partition and the die of its source. -/
structure Record where
  part : Nat
  die : Nat
  words : List Word
  deriving DecidableEq, Repr

/-- What a token of an unanswered record names. -/
inductive Source where
  | word (agent : Nat)
  | replay (core id : Nat)
  | engine (cmd : Nat)
  | trap (agent : Nat)
  | page (die pass page : Nat)
  /-- The receive ring, which an Ethernet port could not write (R413). -/
  | port (port : Nat)
  deriving DecidableEq, Repr

/-- An unanswered record's token (R390): partition, token, kind, launch, lanes and source. -/
structure Token where
  part : Nat
  token : Nat
  kind : Nat
  lnum : Nat
  lanes : Mask
  cause : Nat
  reason : Nat
  src : Source
  rsm : Word
  deriving DecidableEq, Repr

/-- The fault record queue of a partition (R388). -/
structure Frq where
  base : Word
  head : Nat
  tail : Nat
  deriving DecidableEq, Repr

/-- The receive ring of a partition (R413). -/
structure NetRx where
  rx : Word
  rxa : Word
  rxh : Nat
  rxt : Nat
  rxs : Word
  deriving DecidableEq, Repr

/-- An arm (R328): its tag, the partition of its issuer, its number, and the command as it would be accepted. -/
structure Arm where
  tag : Nat
  part : Nat
  num : Nat
  cmd : Cmd
  deriving DecidableEq, Repr

/-- The partition manager's running MERGE or SPLIT (R406), which holds placement and issue on the affected dies: its command, the
dies, A and B, the distaff cores affected, and whether the layout has been rewritten and class 7 requests naming A or B wait. -/
structure Quiesce where
  cmd : Nat
  dies : List Nat
  parts : List Nat
  distaff : List Nat
  phase2 : Bool
  deriving DecidableEq, Repr

/-- A message that an Ethernet port has received and not yet written to its partition's ring (R413): the port, the sender's tag,
node and package, the payload, and the token of the fault that the ring's write has stopped at. -/
structure Mail where
  port : Nat
  tag : Nat
  node : Nat
  pkg : Nat
  payload : List Nat
  token : Option Nat
  deriving DecidableEq, Repr

/-- What moves by itself inside the machine, once it can: one pending thing, by its number or place. -/
inductive Mover where
  /-- A message in flight, at its place in the network's list (R97). -/
  | message (i : Nat)
  /-- A page walk, at its place in the list (R47). -/
  | walk (i : Nat)
  /-- A producer of a thread: it lands, is performed again, or is answered (R150, R286, R410). -/
  | producer (agent id : Nat)
  /-- An offer of VXCH that meets another thread's (R245). -/
  | exchange (agent partner : Nat)
  /-- An engine command (R301). -/
  | command (cmd : Nat)
  /-- A core's request collector: its window closes, or a line returns (R117). -/
  | window (core : Nat)
  | line (core line : Nat)
  /-- A core's matrix engine (R267). -/
  | matrix (core : Nat)
  /-- The PME of a die: its sweep, a catch-up, a delivery, the merge unit (R130 to R136). -/
  | sweep (die pix : Nat)
  | catchup (die pix share : Nat)
  | page (die image share : Nat)
  | record (die : Nat)
  /-- A migration context (R30). -/
  | migrate (ctx : Nat)
  /-- An invalidation (R54). -/
  | inval (num : Nat)
  /-- A slice's dump (R27). -/
  | dump (slice : Nat)
  /-- The background sweep of a sparse region (R76). -/
  | reclaim (region : Nat)
  /-- The held records of a die (R390). -/
  | held (die : Nat)
  /-- The dispatcher, for a launch and for a block (R371, R393, R397, R378). -/
  | place (lnum : Nat)
  | block (lnum index : Nat)
  /-- A committing thread, a slice with reservations, and the fallback lock (R355, R361). -/
  | commit (agent : Nat)
  | slice (slice : Nat)
  | lock
  /-- A running MERGE or SPLIT (R406). -/
  | layout
  /-- The replay queue of a core (R275). -/
  | replay (core : Nat)
  /-- The waiting messages of an Ethernet port (R413). -/
  | mail (port : Nat)
  /-- Accesses that wait at a cache for a way or a flush (R80, R442). -/
  | access (cache line : Nat)
  /-- An ended group's trap that is still to be reported (R391). -/
  | report (agent : Nat)
  /-- A page that an aborted pass owes (R141). -/
  | owed (die place : Nat)
  deriving DecidableEq, Repr

/-- One turn of the machine: which agent or unit moves next (log entry 11). -/
inductive Turn where
  /-- The thread of this key fetches its next clause, or issues its next word. -/
  | issue (agent : Nat)
  /-- An event of the opcode table occurs. -/
  | event (i : Instr)
  /-- Something pending moves. -/
  | move (m : Mover)
  /-- A cache (Table 4.4 code, or a SIMT core's L1) evicts a line. -/
  | evict (cache line : Nat)
  /-- A home replaces a line it holds (the Ev row of Table 4.5). -/
  | replace (line : Nat)
  /-- A TLB drops its entries. -/
  | dropTlb (place : Nat)
  /-- A core's clock passes so many clocks (R3). -/
  | clocks (core n : Nat)
  /-- The slices' clock passes one clock (R89). -/
  | sliceClock
  /-- A router fails its self-test (R95). -/
  | routerFails (die router : Nat)
  /-- An uncorrectable error: a memory line, a dirty unit of a cached line, a scratchpad unit of a team, a register, an
  accumulator unit, or a merge-buffer slot (R82). -/
  | poisonMem (line : Nat)
  | poisonLine (cache line unit : Nat)
  /-- An error in a clean sector of a cached line, and in a dirty unit of a line in its home's cache (R82). -/
  | sectorError (cache line sector : Nat)
  | poisonHome (line unit : Nat)
  | poisonScratch (team unit : Nat)
  | poisonReg (agent : Nat) (vector : Bool) (reg lane : Nat)
  | poisonAcc (team unit : Nat)
  | poisonSlot (die slot unit : Nat)
  /-- An uncorrectable error destroys a spilled request (R101). -/
  | loseSpill (msg : Nat)
  /-- A corrected error counted by a slice (R84). -/
  | corrected (slice : Nat)
  deriving DecidableEq, Repr

/-- Control threads by key, the thread whose word is being issued, teams, cores, launches and blocks. -/
structure Work where
  threads : Tab Thread
  cur : Nat
  teams : Tab Team
  cores : Tab Core
  launches : Tab Launch
  blocks : List Block
  saved : Tab SavedGroup
  lnumNext : Nat
  teamNext : Nat
  streams : Tab Nat
  rotate : Tab Nat
  deriving DecidableEq, Repr

/-- Main memory with its keys, caches, directory, network and counters. `blockKey` is the key and tweak under which each 16-byte block was
stored (R33, R34); `rdcVec` the coarse vectors of the remote-data caches, by die and line (R87); `refill` the fills of a cache's
line that an acquire, or a write on its way home, has outrun; `grants` the input that each output port served last, by class (R97);
`sliceClk` the slices' clock and `arrNext` the next number of arrival (R89); `mwbNext` the number of the last masked write-back. -/
structure Mem where
  bytes : Tab Byte
  blockKey : Tab Nat
  poison : List Nat
  keys : Tab Nat
  acl : Tab Nat
  caches : Tab (Tab CLine)
  dir : Tab Dir
  rdcVec : Tab (List Nat)
  refill : List (Nat × Nat)
  net : List Msg
  grants : Tab Nat
  sliceClk : Nat
  arrNext : Nat
  mwbNext : Nat
  pend : List Access
  wbBuf : Tab CLine
  counts : Tab (List PageCount)
  slcErr : Tab Word
  pcDump : Tab Word
  sigs : List Sig
  races : List RaceEnt
  resv : List Resv
  locked : List Nat
  migr : Tab Migr
  deriving DecidableEq, Repr

/-- Translation structures (R46 to R55). A place is a core (0 to 191 L1, 256 to 447 walk-ahead), a die's L2 (512 to 515) or last level
(520 to 523), a distaff core (600 to 663) or sixteen of them (700 to 703); a walk cache has a die's number, 4 for the host die.
`invalWrapped`: the numbers of invalidations have all been issued once; `past`: entries that have left a core's L1 TLB, under which
its L1 may still hold written bytes (R54). -/
structure Xlt where
  tlbs : Tab (List TlbEntry)
  wcache : Tab (List TlbEntry)
  walks : List Walk
  faults : List WalkFault
  invals : List Inval
  invalNum : Nat
  invalWrapped : Bool
  past : Tab (List TlbEntry)
  deriving DecidableEq, Repr

/-- Engines and package services. -/
structure Svc where
  cmds : List Cmd
  cmdNext : Nat
  regions : Tab Region
  cursors : Tab Cursor
  pmes : Tab Pme
  ticket : Nat
  fblHolder : Option Nat
  fblWait : List Nat
  arms : List Arm
  armNext : Nat
  tokens : List Token
  tokenNext : Nat
  frq : Tab Frq
  heldRecs : List Record
  netrx : Tab NetRx
  portWait : List Mail
  spdm : List (List Nat)
  measure : List (List Nat)
  deriving DecidableEq, Repr

/-- Partitions, power and the registers of the whole package. -/
structure Pkg where
  slsub : Tab Word
  ivl : Tab Word
  nbnd : Tab Word
  ptnRes : Tab Word
  svBase : Tab Word
  svLen : Tab Word
  node : Word
  cxlWin : Tab Word
  cxlT2 : Tab Word
  pwrCap : Word
  modules : Nat
  routers : Tab Router
  links : List Nat
  quiesce : Option Quiesce
  deadDies : List Nat
  booted : Bool
  deriving DecidableEq, Repr

/-- The whole machine: the work it runs, its memory, translation, services, and the package; and the model's own three
fields: the list of turns, the counter of the turns that the model has chosen itself, and the counter of free values (log
entries 11 and 12). -/
structure State where
  work : Work
  mem : Mem
  xlt : Xlt
  svc : Svc
  pkg : Pkg
  agenda : List Turn
  turn : Nat
  free : Nat
  deriving DecidableEq, Repr

/-- The reasons a step can stop with a fault. The manual turns every fault into a trap, a record or a status, so no step of
this model stops with one (R383). -/
inductive Fault where
  /-- Raised by no meaning: the manual gives the machine no fault that ends it. Safe. -/
  | none
  deriving DecidableEq, Repr

/-- The reasons a step is refused. -/
inductive Refusal where
  /-- An instruction whose meaning the model does not hold. Safe: nothing is claimed of it. -/
  | notModelled (mnemonic : String)
  deriving DecidableEq, Repr

/-! ## Reset -/

/-- Registers all full, unpoisoned and zero. -/
def Regs.zero : Regs := ⟨[], [], [], [], [], [], []⟩

/-- No transaction begun (R322). -/
def Trans.none : Trans := ⟨false, 0, 0, 1, 0, 0, false, 0, 0, 0, 0, [], [], [], [], [], []⟩

/-- A distaff hardware thread at reset: it runs privileged at the firmware entry, translation off (R410; log entries 1, 2). -/
def Thread.distaffReset (core slot : Nat) : Thread :=
  { kind := .distaff, status := .running,
    ident := ⟨core, slot, 0, 0, 0, 0, 0, 0, 0, 3⟩, priv := true, regs := Regs.zero,
    fetch := ⟨BitVec.ofNat 64 Config.firmwareEntry, 0, []⟩, rm := 0, xltRoot := 0, xltAsid := 0, wc := [],
    wcScope := [], pstack := [(1, 1)], region := none, gap := false, trap := ⟨0, 0, 0, 0, 0, 0⟩, res := ⟨0, 0, 0⟩, gang := 0,
    reuse := none, wait := .none, barRec := [], producers := [], park := none, later := [], stuck := false,
    tx := Trans.none }

/-- The key of a distaff thread: 6,144 and above, past the 192 cores' 32 group slots. -/
def distaffKey (core slot : Nat) : Nat := 6144 + core * Config.threadsPerDistaff + slot

/-- A SIMT core at reset (Tables 5.6 and 17.6; log entry 5). -/
def Core.reset : Core :=
  { clk := 0, throttle := 0x0007000004000100, rqcCtl := 0x8100, scores := [], permits := [], withheld := [], victims := [],
    active := [], queue := [], denied := 0, dbgStop := 0, replay := [], mxq := [], windows := [], rqcWait := [], stale := [],
    icache := [] }

/-- The machine right after reset. Where the manual gives a register no value it holds the value that a log entry names (log entries 1 to
5, 8 to 10); all twelve LPDDR-6 modules are installed (R25; log entry 8). -/
def State.reset : State :=
  { work :=
      { threads := (upto 64).flatMap (fun c =>
          (upto Config.threadsPerDistaff).map (fun t => (distaffKey c t, Thread.distaffReset c t))),
        cur := distaffKey 0 0, teams := [], cores := [], launches := [], blocks := [], saved := [], lnumNext := 1,
        teamNext := 0, streams := [], rotate := [] },
    mem :=
      { bytes := [], blockKey := [], poison := [], keys := [],
        acl := (upto 10).flatMap (fun t => [(4096 * t + 645, 0x0028003F), (4096 * t + 647, 0x0028003F)]),
        caches := [], dir := [], rdcVec := [], refill := [], net := [], grants := [], sliceClk := 0, arrNext := 0, mwbNext := 0,
        pend := [], wbBuf := [], counts := [], slcErr := [], pcDump := [], sigs := [], races := [], resv := [], locked := [], migr := [] },
    xlt := { tlbs := [], wcache := [], walks := [], faults := [], invals := [], invalNum := 0, invalWrapped := false, past := [] },
    svc :=
      { cmds := [], cmdNext := 0, regions := [], cursors := [], pmes := [], ticket := 1, fblHolder := none, fblWait := [],
        arms := [], armNext := 1, tokens := [], tokenNext := 1, frq := [], heldRecs := [], netrx := [], portWait := [], spdm := [],
        measure := [] },
    pkg :=
      { slsub := [],
        ivl := (upto 4).map (fun p => (p, BitVec.ofNat 64 (2 ^ (32 + p) + 1))),
        nbnd := (upto 4).map (fun p => (p, BitVec.ofNat 64
          (2 ^ 63 + 3 * 2 ^ (48 + 2 * p) + 2 ^ (44 + p) + 2 ^ (36 + p) + 15 * 2 ^ (16 + 4 * p) + 7 * 2 ^ (3 * p)))),
        ptnRes := (upto 4).map (fun p => (p, BitVec.ofNat 64
          (256 * p * 2 ^ 54 + 8 * 2 ^ 50 + 64 * 2 ^ 40 + 64 * 2 ^ 32 + 16 * p))),
        svBase := [], svLen := [], node := 0, cxlWin := [], cxlT2 := [], pwrCap := 2600, modules := 0xFFF,
        routers := (upto 200).map (fun r => (r, Router.reset (r % 50))),
        links := upto 7, quiesce := none, deadDies := [], booted := true },
    agenda := [], turn := 0, free := 0 }

end Sys2Proof.Machine
end

