-- ==== Sys2Proof/Machine/Base.lean ====
section
/-! DEFINITION. Accessors of the state: threads, teams, cores, launches, clause positions, and the counter of free values. -/

namespace Sys2Proof.Machine

/-- A group slot with no resident group. -/
def Thread.vacant : Thread :=
  { Thread.distaffReset 0 0 with kind := .group, status := .vacant, priv := false }

/-- The thread of a key; a key without a thread is a vacant slot. -/
def State.thread (s : State) (k : Nat) : Thread := s.work.threads.getD k Thread.vacant

/-- The thread whose word is being issued. -/
def State.th (s : State) : Thread := s.thread s.work.cur

/-- Change the table of threads. -/
def State.setThreads (s : State) (t : Tab Thread) : State := { s with work := { s.work with threads := t } }

/-- Write a thread. -/
def State.putThread (s : State) (k : Nat) (t : Thread) : State := s.setThreads (s.work.threads.put k t)

/-- Change a thread. -/
def State.mapThread (s : State) (k : Nat) (f : Thread → Thread) : State := s.putThread k (f (s.thread k))

/-- Change the current thread. -/
def State.mapTh (s : State) (f : Thread → Thread) : State := s.mapThread s.work.cur f

/-- Make a thread the current one. -/
def State.setCur (s : State) (k : Nat) : State := { s with work := { s.work with cur := k } }

/-- A team with nothing in it. -/
def Team.none : Team :=
  { core := 0, lnum := 0, block := 0, rank := 0, groups := 0, alloc := 0, cluster := 1, asid := 0, resident := false,
    scratch := [], scratchPoison := [], rings := [], bars := [], wp := [], err := [], nseq := [], recSlots := [],
    tiles := false, acc := [], accPoison := [] }

/-- The team of a key. -/
def State.team (s : State) (k : Nat) : Team := s.work.teams.getD k Team.none

/-- Change a team. -/
def State.mapTeam (s : State) (k : Nat) (f : Team → Team) : State :=
  { s with work := { s.work with teams := s.work.teams.put k (f (s.team k)) } }

/-- The current thread's team. -/
def State.tm (s : State) : Team := s.team s.th.ident.team

/-- A SIMT core. A core that nothing has changed is as reset leaves it. -/
def State.core (s : State) (c : Nat) : Core := s.work.cores.getD c Core.reset

/-- Change a core. -/
def State.mapCore (s : State) (c : Nat) (f : Core → Core) : State :=
  { s with work := { s.work with cores := s.work.cores.put c (f (s.core c)) } }

/-- A launch by its number. -/
def State.launch? (s : State) (n : Nat) : Option Launch := s.work.launches.find n

/-- Change a launch. -/
def State.mapLaunch (s : State) (n : Nat) (f : Launch → Launch) : State :=
  { s with work := { s.work with launches := s.work.launches.upd n f } }

/-- The key of a group slot. -/
def groupKey (core slot : Nat) : Nat := core * 32 + slot

/-- A thread key names a group slot of a SIMT core. -/
def isGroupKey (k : Nat) : Bool := k < 6144

/-- Lanes of a group; a distaff thread is one lane (R317). -/
def Thread.width (t : Thread) : Nat :=
  match t.kind with
  | .group => 16 * 2 ^ t.ident.wcode
  | .distaff => 1

/-- The mask of all lanes of a group. -/
def Thread.allLanes (t : Thread) : Mask := BitVec.ofNat 64 (2 ^ t.width - 1)

/-- `active()` (R153, R317): the top mask of the predicate stack, and inside a live transaction the lanes of TM. -/
def Thread.active (t : Thread) : Mask :=
  let top := match t.pstack with
    | [] => 0
    | (m, _) :: _ => m
  if t.tx.live then top &&& t.tx.tm else top

/-- The base mask: entry 0 of the predicate stack. -/
def Thread.base (t : Thread) : Mask :=
  match t.pstack.getLast? with
  | some (m, _) => m
  | none => 0

/-- The lanes of a mask, in rising order. -/
def lanesOf (m : Mask) : List Nat := (upto 64).filter (fun l => m.getLsbD l)

/-- A mask from a list of lanes. -/
def maskOf (l : List Nat) : Mask := BitVec.ofNat 64 (l.foldl (fun a x => a ||| 2 ^ x) 0)

/-- The active lanes, in rising order. -/
def Thread.lanes (t : Thread) : List Nat := lanesOf t.active

/-- The rounding mode a thread samples at issue (R177). -/
def Thread.mode (t : Thread) : Mode := Mode.ofCode t.rm

/-- The window of the clause: `WIN` of its header (Table 9.1). -/
def Thread.win (t : Thread) : Nat :=
  match t.fetch.words with
  | [] => 0
  | h :: _ => h.toNat / 2 ^ 18 % 8

/-- `CNT` of the fetched clause. -/
def Thread.cnt (t : Thread) : Nat := t.fetch.words.length - 1

/-- The header after the current clause: H + 4 (CNT + 1) (R183). -/
def Thread.nextHdr (t : Thread) : Word := t.fetch.hdr + BitVec.ofNat 64 (4 * (t.cnt + 1))

/-- Is the word at the thread's position the last of its clause? -/
def Thread.lastWord (t : Thread) : Bool := t.cnt ≤ t.fetch.wix

/-- Move to a clause header, which is fetched next. -/
def Thread.goto (t : Thread) (h : Word) : Thread := { t with fetch := ⟨h, 0, []⟩ }

/-- Move past the current word: to the next word, or to the next header after the last one (R183, R187). -/
def Thread.advance (t : Thread) : Thread :=
  if t.lastWord then t.goto t.nextHdr else { t with fetch := { t.fetch with wix := t.fetch.wix + 1 } }

/-- A position in the layout of `GRP.TRSM` (Table 18.2). -/
def rsmWord (wix : Nat) (hdr : Word) : Word := setBits (setBits 0 0 56 hdr.toNat) 60 4 wix

/-- The position of the thread's current word. -/
def Thread.here (t : Thread) : Word := rsmWord t.fetch.wix t.fetch.hdr

/-- The position after the current word. -/
def Thread.after (t : Thread) : Word :=
  if t.lastWord then rsmWord 0 t.nextHdr else rsmWord (t.fetch.wix + 1) t.fetch.hdr

/-- Take the next value of the counter that the free values are applied to (log entry 12). -/
def State.tick (s : State) : State := { s with free := s.free + 1 }

/-! ## Registers by absolute number -/

/-- The value of a scalar register. -/
def Regs.s (r : Regs) (k : Nat) : Word := r.sreg.getD k 0

/-- Write a scalar register. -/
def Regs.setS (r : Regs) (k : Nat) (v : Word) : Regs :=
  { r with sreg := r.sreg.putD 0 k v, sPoison := eraseNat r.sPoison k }

/-- The value of a lane of a vector register. -/
def Regs.v (r : Regs) (k l : Nat) : Lane := r.vreg.getD (64 * k + l) 0

/-- Write a lane of a vector register. -/
def Regs.setV (r : Regs) (k l : Nat) (v : Lane) : Regs :=
  { r with vreg := r.vreg.putD 0 (64 * k + l) v, vPoison := eraseNat r.vPoison (64 * k + l) }

/-- The value of a mask. -/
def Regs.m (r : Regs) (k : Nat) : Mask := r.mask.getD k 0

/-- Write a mask. -/
def Regs.setM (r : Regs) (k : Nat) (v : Mask) : Regs := { r with mask := r.mask.putD 0 k v }

/-- The 64-bit value of a lane of a register pair, the low half in the even register (R12). -/
def Regs.v64 (r : Regs) (k l : Nat) : Word := BitVec.ofNat 64 ((r.v k l).toNat + (r.v (k + 1) l).toNat * 2 ^ 32)

/-- Write a lane of a register pair. -/
def Regs.setV64 (r : Regs) (k l : Nat) (v : Word) : Regs :=
  (r.setV k l (BitVec.ofNat 32 v.toNat)).setV (k + 1) l (BitVec.ofNat 32 (v.toNat / 2 ^ 32))

/-- Is a scalar register full? -/
def Regs.sFull (r : Regs) (k : Nat) : Bool := !(r.sEmpty.contains k)

/-- Is a vector register full? -/
def Regs.vFull (r : Regs) (k : Nat) : Bool := !(r.vEmpty.contains k)

/-- The absolute number of a scalar field: s(128 * WIN + f) (R146). -/
def Thread.abs (t : Thread) (f : BitVec 7) : Nat := 128 * t.win + f.toNat

/-- Change the registers of a thread. -/
def Thread.mapRegs (t : Thread) (f : Regs → Regs) : Thread := { t with regs := f t.regs }

/-- Clear the clause temporaries: every lane of v120 to v127 reads zero at the start of a clause (R145). -/
def Regs.clearTemps (r : Regs) : Regs :=
  { r with vreg := r.vreg.filter (fun p => p.1 < 64 * 120), vPoison := r.vPoison.filter (fun k => k < 64 * 120) }

/-! ## Partitions and places -/

/-- The compute die of a global core index (R10). -/
def dieOf (core : Nat) : Nat := core / 48

/-- The partition whose `NBND` holds a bit, among the valid ones (R401). -/
def State.partWith (s : State) (bitNo : Nat) : Option Nat :=
  (upto 4).find? (fun p =>
    let w := s.pkg.nbnd.getD p 0
    w.getLsbD 63 && w.getLsbD bitNo)

/-- The partition of a compute die. -/
def State.partOfDie (s : State) (d : Nat) : Option Nat := s.partWith (36 + d)

/-- The partition of a distaff core. -/
def State.partOfDistaff (s : State) (dc : Nat) : Option Nat := s.partWith (16 + dc / 4)

/-- The partition of a thread: that of its die, or of its quartet (R402). -/
def State.partOfThread (s : State) (t : Thread) : Option Nat :=
  match t.kind with
  | .group => s.partOfDie (dieOf t.ident.core)
  | .distaff => s.partOfDistaff t.ident.core

/-- The master ID of a thread's core (Table 1.8). -/
def Thread.mid (t : Thread) : Nat :=
  match t.kind with
  | .group => t.ident.core
  | .distaff => 192 + t.ident.core

/-- R404: the distaff core that receives a partition's interrupts; none where `IRQDC` names one outside the partition. -/
def State.irqCore (s : State) (p : Nat) : Option Nat :=
  let dc := bitsAt (s.pkg.ptnRes.getD p 0) 0 6
  if (s.pkg.nbnd.getD p 0).getLsbD (16 + dc / 4) then some dc else none

/-- Set a bit of `DTR.IRQ` on hardware thread 0 of a distaff core, and wake it from IDLE (R404). -/
def State.interruptCore (s : State) (dc bitNo : Nat) : State :=
  s.mapThread (distaffKey dc 0) (fun t =>
    { t with
      trap := { t.trap with irq := setBits t.trap.irq bitNo 1 1 },
      status := if t.status = .idle then .running else t.status })

/-- An interrupt of a partition (R404). -/
def State.interrupt (s : State) (p bitNo : Nat) : State :=
  match s.irqCore p with
  | some dc => s.interruptCore dc bitNo
  | none => s

end Sys2Proof.Machine
end

