-- ==== Sys2Proof/Machine/Cipher.lean ====
section
/-! DEFINITION. The cipher of the memory controllers (spec/01_memory_and_homes.md R33): AES-256 as FIPS 197 gives it, and the XTS mode
of IEEE 1619 on the eight 16-byte blocks of a 128-byte line. A block is a list of 16 bytes, the first at the lowest address. -/

namespace Sys2Proof.Machine

/-! ## AES-256 -/

/-- Multiplication by `x` in GF(2^8) modulo x^8 + x^4 + x^3 + x + 1. -/
def xtime (b : Nat) : Nat := if b < 128 then 2 * b else (2 * b) ^^^ 0x11B

/-- The product of two elements of GF(2^8), by the low `n` bits of the second. -/
def gfMul (a b : Nat) : Nat → Nat
  | 0 => 0
  | n + 1 => (if b % 2 = 1 then a else 0) ^^^ gfMul (xtime a) (b / 2) n

/-- The inverse in GF(2^8), 0 for 0: the 254th power, through the powers 2^1 to 2^7. -/
def gfInv (a : Nat) : Nat :=
  ((List.range 7).foldl (fun (p : Nat × Nat) _ =>
    let q := gfMul p.1 p.1 8
    (q, gfMul p.2 q 8)) (a, 1)).2

/-- A byte rotated left. -/
def rotl8 (b n : Nat) : Nat := (b * 2 ^ n) % 256 ||| b / 2 ^ (8 - n)

/-- The substitution of a byte: its inverse, and the affine map. -/
def subByte (b : Nat) : Nat :=
  let i := gfInv b
  i ^^^ rotl8 i 1 ^^^ rotl8 i 2 ^^^ rotl8 i 3 ^^^ rotl8 i 4 ^^^ 0x63

/-- The inverse substitution. -/
def invSubByte (b : Nat) : Nat := gfInv (rotl8 b 1 ^^^ rotl8 b 3 ^^^ rotl8 b 6 ^^^ 0x05)

/-- Two lists of bytes, byte by byte, by exclusive or. -/
def xorBytes (a b : List Nat) : List Nat := (a.zip b).map (fun p => p.1 ^^^ p.2)

/-- The words of the key schedule, oldest first, after `n` more words have been derived: `rc` is the next round constant. -/
def keyWords : Nat → Nat → Nat → List (List Nat) → List (List Nat)
  | 0, _, _, ws => ws
  | n + 1, i, rc, ws =>
    let t := ws.getLastD []
    let t := if i % 8 = 0 then xorBytes ((t.drop 1 ++ t.take 1).map subByte) [rc, 0, 0, 0]
      else if i % 8 = 4 then t.map subByte else t
    keyWords n (i + 1) (if i % 8 = 0 then xtime rc else rc) (ws ++ [xorBytes (ws.getD (i - 8) []) t])

/-- The fifteen round keys of a 32-byte key. -/
def roundKeys (key : List Nat) : List (List Nat) :=
  let ws := keyWords 52 8 1 ((List.range 8).map (fun i => (key.drop (4 * i)).take 4))
  (List.range 15).map (fun r => ((ws.drop (4 * r)).take 4).flatten)

/-- ShiftRows moves byte `i` of the result from here; the state's columns are four bytes each. -/
def shiftFrom (i : Nat) : Nat := (i + 4 * (i % 4)) % 16

/-- InvShiftRows moves byte `i` of the result from here. -/
def unshiftFrom (i : Nat) : Nat := (i + 16 - 4 * (i % 4)) % 16

/-- The bytes of a block in another order. -/
def permute (f : Nat → Nat) (b : List Nat) : List Nat := (List.range 16).map (fun i => b.getD (f i) 0)

/-- MixColumns with the coefficients of its first row, or of its inverse's. -/
def mixColumns (c : List Nat) (b : List Nat) : List Nat :=
  (List.range 16).map (fun i =>
    (List.range 4).foldl (fun a j => a ^^^ gfMul (b.getD (i / 4 * 4 + (i + j) % 4) 0) (c.getD j 0) 8) 0)

/-- AES-256 encryption of a block. -/
def aesEncrypt (key block : List Nat) : List Nat :=
  let ks := roundKeys key
  let round (r : Nat) (b : List Nat) : List Nat :=
    xorBytes (mixColumns [2, 3, 1, 1] (permute shiftFrom (b.map subByte))) (ks.getD r [])
  let b := (List.range 13).foldl (fun b r => round (r + 1) b) (xorBytes block (ks.getD 0 []))
  xorBytes (permute shiftFrom (b.map subByte)) (ks.getD 14 [])

/-- AES-256 decryption of a block. -/
def aesDecrypt (key block : List Nat) : List Nat :=
  let ks := roundKeys key
  let round (r : Nat) (b : List Nat) : List Nat :=
    mixColumns [14, 11, 13, 9] (xorBytes ((permute unshiftFrom b).map invSubByte) (ks.getD r []))
  let b := (List.range 13).foldl (fun b r => round (13 - r) b) (xorBytes block (ks.getD 14 []))
  xorBytes ((permute unshiftFrom b).map invSubByte) (ks.getD 0 [])

/-! ## XTS -/

/-- The `n` little-endian bytes of a number. -/
def leBytes (v n : Nat) : List Nat := (List.range n).map (fun i => v / 256 ^ i % 256)

/-- The mask of block `j` of a data unit: the encrypted tweak, multiplied `j` times by alpha in GF(2^128). -/
def xtsMask (key2 : List Nat) (tweak : Nat) : Nat → List Nat
  | 0 => aesEncrypt key2 (leBytes tweak 16)
  | j + 1 =>
    let m := xtsMask key2 tweak j
    let carry (i : Nat) : Nat := if i = 0 then 0 else m.getD (i - 1) 0 / 128
    let d := (List.range 16).map (fun i => (2 * m.getD i 0) % 256 + carry i)
    if m.getD 15 0 < 128 then d else xorBytes d (0x87 :: List.replicate 15 0)

/-- The two 32-byte keys of AES-XTS-256 that a key slot holds, by slot and generation (R33: the root of trust generates them). -/
def xtsKey (tag half : Nat) : List Nat := leBytes ((Config.keyMaterial tag).toNat / 2 ^ (256 * half)) 32

/-- XTS encryption of block `j` of a line under a key and tweak. -/
def xtsEncrypt (tag tweak j : Nat) (plain : List Nat) : List Nat :=
  let m := xtsMask (xtsKey tag 1) tweak j
  xorBytes (aesEncrypt (xtsKey tag 0) (xorBytes plain m)) m

/-- XTS decryption of block `j` of a line under a key and tweak. -/
def xtsDecrypt (tag tweak j : Nat) (cipher : List Nat) : List Nat :=
  let m := xtsMask (xtsKey tag 1) tweak j
  xorBytes (aesDecrypt (xtsKey tag 0) (xorBytes cipher m)) m

end Sys2Proof.Machine
end

