-- ==== Sys2Proof/Machine/Home.lean ====
section
/-! DEFINITION. Main memory at its homes (spec/01_memory_and_homes.md, R17 to R37): from a physical address word to a home,
the order of refusals, owner keys, poison, access counters, and reads and writes performed at the home. A home byte address
is the number PA[51:0] of the class 0 to 5 address. -/

namespace Sys2Proof.Machine

/-! ## Where a byte lives -/

/-- The bytes of home memory of one compute die (R18, R20). -/
def dieBytes : Nat := 0x2FFD000000

/-- Table 1.2: the slot of a home offset. -/
def slotOf (o : Nat) : Nat :=
  let l := o / 128
  let nib (k : Nat) : Nat := l / 2 ^ k % 16
  let fold := nib 0 ^^^ nib 8 ^^^ nib 16 ^^^ nib 24 ^^^ (l / 2 ^ 28 % 8)
  16 * (l / 16 % 3) + fold

/-- Table 1.3: `subst(d, slot)`; substitution 0 applies first. -/
def subst (w : Word) (slot : Nat) : Nat :=
  if w.getLsbD 4 && bitsAt w 5 6 == slot then bitsAt w 11 6
  else if w.getLsbD 17 && bitsAt w 18 6 == slot then bitsAt w 24 6
  else slot

/-- Home class of a home byte address. -/
def classOf (a : Nat) : Nat := a / 2 ^ 46 % 8

/-- Home offset of a home byte address. -/
def offsetOf (a : Nat) : Nat := a % 2 ^ 46

/-- R20: the stack and the stack address of a home offset. -/
def stackOf (o : Nat) : Nat × Nat :=
  let q := o / 2 ^ 11 % 2 ^ 27
  (q % 3, q / 3 * 2048 + o % 2048)

/-- R21, R25: the slice that homes a byte: 48 d + slice on a compute die, 192 for the host L2. -/
def State.sliceOf (s : State) (a : Nat) : Nat :=
  let c := classOf a
  if c < 4 then 48 * c + subst (s.pkg.slsub.getD c 0) (slotOf (offsetOf a)) else 192

/-- The set bits of a number below 4, in rising order. -/
def dieSet (m : Nat) : List Nat := (upto 4).filter (fun d => m.testBit d)

/-- R23: the class 0 to 3 address that a window address aliases. -/
def State.window (s : State) (ofs : Nat) : Option Nat :=
  let w := s.pkg.ivl.getD (ofs / 2 ^ 44) 0
  let off := ofs % 2 ^ 44
  let dies := dieSet (bitsAt w 32 4)
  let n := dies.length
  let gsz := match bitsAt w 30 2 with
    | 0 => 2 ^ 12
    | 1 => 2 ^ 16
    | _ => 2 ^ 21
  if !(w.getLsbD 0) || n = 0 || n * dieBytes ≤ off then none
  else
    let g := off / gsz
    some (nth dies (g % n) 0 * 2 ^ 46 + (g / n * gsz + off % gsz))

/-- R25: is a class 4 offset backed by an installed module? -/
def State.lpddrBacked (s : State) (o : Nat) : Bool :=
  let k := o / (384 * 2 ^ 30)
  let u := o % (384 * 2 ^ 30)
  let m := ((upto 3).filter (fun j => s.pkg.modules.testBit (3 * k + j))).length
  k < 4 && u < m * (128 * 2 ^ 30)

/-- R25: the module position and the module address of a class 4 offset, whose set's installed modules share it in 256-byte units. -/
def State.moduleOf (s : State) (o : Nat) : Nat × Nat :=
  let k := o / (384 * 2 ^ 30)
  let u := o % (384 * 2 ^ 30)
  let l := (upto 3).filter (fun j => s.pkg.modules.testBit (3 * k + j))
  (3 * k + nth l (u / 256 % l.length) 0, u / 256 / l.length * 256 + o % 256)

/-- R411: the enabled window that holds a class 5 offset, the lowest first. -/
def State.cxlWindow (s : State) (o : Nat) : Option Nat :=
  (upto 16).find? (fun w =>
    let v := s.pkg.cxlWin.getD w 0
    let b := bitsAt v 30 16 * 2 ^ 30
    v.getLsbD 63 && b ≤ o && o < b + bitsAt v 14 16 * 2 ^ 30)

/-- The package this machine is (R410). -/
def State.ownPkg (s : State) : Nat := bitsAt s.pkg.node 0 3

/-- R17 to R19, R23: the home byte address of a physical address word; none where no memory backs it, as none of a die that is out of
service does (R22, R95). A class 6 word names a register and has no home. The node is modelled as this one package (log entry 16). -/
def State.home (s : State) (pa : Word) : Option Nat :=
  let cls := bitsAt pa 46 3
  let ofs := bitsAt pa 0 46
  let pkg := bitsAt pa 49 3
  if bitsAt pa 62 2 ≠ 0 || pkg ≠ s.ownPkg then none
  else if cls < 4 then (if ofs < dieBytes && !(s.pkg.deadDies.contains cls) then some (pkg * 2 ^ 49 + cls * 2 ^ 46 + ofs) else none)
  else if cls = 4 then (if s.lpddrBacked ofs then some (pkg * 2 ^ 49 + 4 * 2 ^ 46 + ofs) else none)
  else if cls = 5 then (if (s.cxlWindow ofs).isSome then some (pkg * 2 ^ 49 + 5 * 2 ^ 46 + ofs) else none)
  else if cls = 7 then (s.window ofs).map (fun a => pkg * 2 ^ 49 + a)
  else none

/-- R406: do class 7 requests of an address wait at their homes, while a MERGE or SPLIT of the partition it names ends? -/
def State.windowHeld (s : State) (pa : Word) : Bool :=
  match s.pkg.quiesce with
  | some q => q.phase2 && bitsAt pa 46 3 == 7 && q.parts.contains (bitsAt pa 44 2)
  | none => false

/-- `KEYID` of a physical address word. -/
def keyOf (pa : Word) : Nat := bitsAt pa 52 10

/-! ## Who may touch it -/

/-- The kinds of request an access table tells apart, as the bit of Table 1.9. -/
inductive ReqKind where
  | read | write | atomic | fetch | config | debug
  deriving DecidableEq, Repr

/-- The permission bit of a kind. -/
def ReqKind.bitNo : ReqKind → Nat
  | .read => 0
  | .write => 1
  | .atomic => 2
  | .fetch => 3
  | .config => 4
  | .debug => 5

/-- R402: the partition of a master; `some none` is a master of no partition, `none` one that serves every partition. -/
def State.partOfMaster (s : State) (mid : Nat) : Option (Option Nat) :=
  if mid < 192 then some (s.partOfDie (mid / 48))
  else if mid < 256 then some (s.partOfDistaff (mid - 192))
  else if mid < 448 then some (s.partOfDie ((mid - 256) / 48))
  else if mid < 640 then some (s.partOfDie ((mid - 448) / 48))
  else if mid < 644 then some (s.partOfDie (mid - 640))
  else if mid < 648 then none
  else if mid < 656 then some (s.partWith (48 + (mid - 648)))
  else if mid < 663 then none
  else if mid < 1024 then some none
  else some (s.partWith (44 + (mid - 1024) / 768))

/-- R402: the partition of the home a physical address word names. -/
def State.partOfHome (s : State) (pa : Word) (a : Nat) : Option Nat :=
  let cls := bitsAt pa 46 3
  if cls = 7 then (if (s.pkg.nbnd.getD (bitsAt pa 44 2) 0).getLsbD 63 then some (bitsAt pa 44 2) else none)
  else if cls < 4 then s.partOfDie cls
  else if cls = 4 then s.partWith (3 * (offsetOf a / (384 * 2 ^ 30)))
  else match s.cxlWindow (offsetOf a) with
    | some w => s.partWith (44 + bitsAt (s.pkg.cxlWin.getD w 0) 61 2)
    | none => none

/-- R402: does the boundary between partitions refuse the request? -/
def State.crossesBoundary (s : State) (mid : Nat) (home : Option Nat) : Bool :=
  match s.partOfMaster mid with
  | none => false
  | some p => p.isNone || home.isNone || p != home

/-- Table 1.9: does an entry permit a kind, and a key where one applies? -/
def entryPermits (e : Nat) (k : ReqKind) (key : Option Nat) : Bool :=
  let kspan := e / 2 ^ 18 % 16
  let kbase := e / 2 ^ 22 % 1024 / 2 ^ kspan * 2 ^ kspan
  e.testBit k.bitNo &&
    match key with
    | none => true
    | some n => kspan ≤ 10 && kbase ≤ n && n < kbase + 2 ^ kspan

/-- The access-table entry of a master: table 0 to 4 the memory of CD0 to CD3 and of the host die, 5 to 9 their MMIO (R36). -/
def State.aclEntry (s : State) (table mid : Nat) : Nat := if mid < 4096 then s.mem.acl.getD (4096 * table + mid) 0 else 0

/-- The state of a key slot: twice its generation, plus one while it is retired (R331). -/
def State.keySlot (s : State) (key : Nat) : Nat := s.mem.keys.getD key 0

/-- Does a key slot hold a key? (R34; log entry 7). -/
def State.keyValid (s : State) (key : Nat) : Bool := s.keySlot key % 2 == 0

/-- The key of a line: identifier and generation, so that a replaced key is another key. -/
def State.keyTag (s : State) (key : Nat) : Nat := key + 1024 * (s.keySlot key / 2)

/-- R37: the first refusal of a request in the order unbacked 2, boundary 4, table 1, key 3; or its home address. -/
def State.vet (s : State) (mid : Nat) (k : ReqKind) (pa : Word) : Except Nat Nat :=
  match s.home pa with
  | none => .error 2
  | some a =>
    if s.crossesBoundary mid (s.partOfHome pa a) then .error 4
    else if !(entryPermits (s.aclEntry (min (classOf a) 4) mid) k (some (keyOf pa))) then .error 1
    else if !(s.keyValid (keyOf pa)) then .error 3
    else .ok a

/-! ## Bytes at the home -/

/-- A number from little-endian bytes. -/
def ofBytes : List Nat → Nat
  | [] => 0
  | b :: r => b % 256 + 256 * ofBytes r

/-- The `n` little-endian bytes of a number. -/
def toBytes (v : Nat) : Nat → List Nat
  | 0 => []
  | n + 1 => v % 256 :: toBytes (v / 256) n

/-- R411: where the memory of a home byte address lies: in home class 5 the device address of its port's expander, named above every
home byte address. -/
def State.cell (s : State) (a : Nat) : Nat :=
  if classOf a = 5 then
    match s.cxlWindow (offsetOf a) with
    | some w =>
      let v := s.pkg.cxlWin.getD w 0
      2 ^ 60 + bitsAt v 61 2 * 2 ^ 46 + (offsetOf a - bitsAt v 30 16 * 2 ^ 30)
    | none => a
  else a

/-- R33: the tweak of a line, (home class << 40) | (home offset >> 7). -/
def tweakOf (line : Nat) : Nat := classOf (128 * line) * 2 ^ 40 + offsetOf (128 * line) / 128

/-- The key and tweak under which a line is stored (R33). Only in home class 5 can one place be reached under two tweaks. -/
def State.lineTag (s : State) (key line : Nat) : Nat := s.keyTag key + 2 ^ 64 * tweakOf line

/-- What a byte reads as under a key and tweak, where its block's 16 stored bytes are the cipher text given (R33). -/
def decrypted (tag c : Nat) (cipher : List Nat) : Byte :=
  BitVec.ofNat 8 ((xtsDecrypt (tag % 2 ^ 64) (tag / 2 ^ 64) (c % 128 / 16) cipher).getD (c % 16) 0)

/-- The cipher text of a 16-byte block that was written under a key and tweak. -/
def State.cipherOf (s : State) (tag block : Nat) : List Nat :=
  xtsEncrypt (tag % 2 ^ 64) (tag / 2 ^ 64) (block % 8) ((upto 16).map (fun i => (s.mem.bytes.getD (16 * block + i) 0).toNat))

/-- R34: the byte at a home address, decrypted under a key: the byte written where that key wrote it, else the XTS decryption of what
another key's write or power-on has left in its block. -/
def State.homeByte (s : State) (key a : Nat) : Byte :=
  let tag := s.lineTag key (a / 128)
  let c := s.cell a
  match s.mem.blockKey.find (c / 16) with
  | none => decrypted tag c ((upto 16).map (fun i => (Config.powerOn (c / 16 * 16 + i)).toNat))
  | some t => if t = tag then s.mem.bytes.getD c 0 else decrypted tag c (s.cipherOf t (c / 16))

/-- R34, R35: put the 16-byte block of a home address under a key. What another key or power-on has left there keeps, as its new
contents, what it reads as; the other blocks of the line keep their cipher text. -/
def State.retag (s : State) (key a : Nat) : State :=
  let tag := s.lineTag key (a / 128)
  let c := s.cell a
  if s.mem.blockKey.find (c / 16) = some tag then s
  else
    let b := (upto 16).foldl (fun (m : Tab Byte) i => m.put (c / 16 * 16 + i) (s.homeByte key (a / 16 * 16 + i))) s.mem.bytes
    { s with mem := { s.mem with bytes := b, blockKey := s.mem.blockKey.put (c / 16) tag } }

/-- The canonical form of memory: addresses strictly rising. What an address that is not listed reads as depends on the key it is
read under (log entry 6), so no listed byte stands for an unlisted one. -/
def Memory.wf (m : Tab Byte) : Bool := Tab.wf m

/-- Write one byte at its home, under a key. -/
def State.setByte (s : State) (key a : Nat) (b : Byte) : State :=
  let s := s.retag key a
  { s with mem := { s.mem with bytes := s.mem.bytes.put (s.cell a) b } }

/-- Write consecutive bytes at their home. -/
def State.setBytes (s : State) (key a : Nat) : List Nat → State
  | [] => s
  | b :: r => (s.setByte key a (BitVec.ofNat 8 b)).setBytes key (a + 1) r

/-- The 8-byte units that `n` bytes from `a` touch. -/
def unitsOf (a n : Nat) : List Nat := if n = 0 then [] else (upto ((a + n - 1) / 8 - a / 8 + 1)).map (fun i => a / 8 + i)

/-- The 8-byte units that `n` bytes from `a` cover completely (R83). -/
def unitsCovered (a n : Nat) : List Nat := (unitsOf a n).filter (fun u => a ≤ 8 * u && 8 * u + 8 ≤ a + n)

/-- Is any unit of the bytes poisoned at the home? -/
def State.memPoisoned (s : State) (a n : Nat) : Bool := (unitsOf a n).any (fun u => s.mem.poison.contains u)

/-- Mark units poisoned, or clear them. -/
def State.setPoison (s : State) (us : List Nat) (b : Bool) : State :=
  { s with mem := { s.mem with
      poison := if b then us.foldl insertNat s.mem.poison else s.mem.poison.filter (fun u => !(us.contains u)) } }

/-! ## Errors and access counters -/

/-- Add to a count field of `SLC.ERR` (Table 4.3a). -/
def State.countError (s : State) (slice lo n by_ : Nat) : State :=
  let w := s.mem.slcErr.getD slice 0
  { s with mem := { s.mem with
      slcErr := s.mem.slcErr.put slice (setBits w lo n (min (bitsAt w lo n + by_) (2 ^ n - 1))) } }

/-- Units of a line are poisoned by an error, and counted at their slice (R84). -/
def State.poisonUnits (s : State) (line : Nat) (units : List Nat) : State :=
  (s.setPoison (units.map (fun u => 16 * line + u)) true).countError (s.sliceOf (128 * line)) 24 16 units.length

/-- Saturating counters of 24 bits (R26). -/
def sat24 (n : Nat) : Nat := min n (2 ^ 24 - 1)

/-- The place of the entry with the smallest sum, the lowest-numbered among equals. -/
def coldest : List PageCount → Nat → Nat → Nat → Nat
  | [], _, _, best => best
  | c :: r, i, least, best => if c.rd + c.wr < least then coldest r (i + 1) (c.rd + c.wr) i else coldest r (i + 1) least best

/-- R26: count one access to a home page at its slice. Accesses of the migration engine are not counted. -/
def State.count (s : State) (a : Nat) (write : Bool) (mid : Nat) : State :=
  if mid = 644 then s
  else
    let sl := s.sliceOf a
    let page := a / 4096
    let l := s.mem.counts.getD sl []
    let bump (c : PageCount) : PageCount :=
      if write then { c with wr := sat24 (c.wr + 1) } else { c with rd := sat24 (c.rd + 1) }
    let l' := match placeOf (fun c : PageCount => c.page == page) l 0 with
      | some i => setNth l i (bump (nth l i ⟨page, 0, 0⟩))
      | none =>
        if l.length < (if sl = 192 then 4096 else 1024) then l ++ [bump ⟨page, 0, 0⟩]
        else setNth l (coldest l 0 (2 ^ 25) 0) (bump ⟨page, 0, 0⟩)
    { s with mem := { s.mem with counts := s.mem.counts.put sl l' } }

/-! ## Migration at the home -/

/-- R31, R32: where a home address is served by one context: a context whose range holds it forwards what lies below its boundary, under
the destination key. -/
def State.steerOnce (s : State) (p : Nat × Nat) : Nat × Nat :=
  match s.mem.migr.find? (fun q => q.2.src ≤ p.1 && p.1 < q.2.src + q.2.len) with
  | some (_, m) => if p.1 < m.bound then (m.dst + (p.1 - m.src), m.dkey) else p
  | none => p

/-- Where a home address is served: the destination of one context may lie in the range of another, and there are four (R30). -/
def State.steer (s : State) (a key : Nat) : Nat × Nat := s.steerOnce (s.steerOnce (s.steerOnce (s.steerOnce (a, key))))

/-- R30, R31: is the line at a boundary, being recalled or in transit? -/
def State.inTransit (s : State) (line : Nat) : Bool :=
  s.mem.migr.any (fun p => (p.2.transit || p.2.recalled) && p.2.bound / 128 == line)

end Sys2Proof.Machine
end

