-- ==== Sys2Proof/Machine/Cache.lean ====
section
/-! DEFINITION. Cached lines, aborts of transactions, and the accesses that engines, walkers and services make coherently at a
line's home (spec/04_caches_coherence_network.md R80 to R88, spec/16_transactions.md R350 to R361, spec/14 R319, R320). -/

namespace Sys2Proof.Machine

/-! ## Aborting a transaction -/

/-- Drop predicate-stack entries down to a depth. -/
def toDepth (st : List (Mask × Mask)) (d : Nat) : List (Mask × Mask) := st.drop (st.length - d)

/-- Remove the signature entries of a transaction (R351). -/
def State.dropSigs (s : State) (agent : Nat) : State :=
  { s with mem := { s.mem with sigs := s.mem.sigs.filter (fun e => !(e.agent == agent)) } }

/-- The cache of a thread: SIMT L1s are 0 to 191, distaff L1s 192 to 255, remote-data caches 256 to 259. -/
def Thread.cache (t : Thread) : Nat := t.mid

/-- The distaff threads whose core's L1 is `cache`. -/
def State.threadsOf (s : State) (cache : Nat) : List Nat :=
  (s.work.threads.filter (fun p => p.2.kind = .distaff && p.2.cache == cache)).map (·.1)

/-- Clear the speculative marks that no thread of the core holds any longer: the buffered bytes are kept apart, so the lines
stand (R357). -/
def State.clearSpec (s : State) (cache : Nat) : State :=
  let held (line : Nat) : Bool := s.mem.sigs.any (fun e => e.line == line && (s.threadsOf cache).contains e.agent)
  { s with mem := { s.mem with caches := s.mem.caches.upd cache (fun t =>
      t.map (fun p => (p.1, { p.2 with spec := p.2.spec && held p.1 }))) } }

/-- R361: release the fallback lock where the thread holds it, and withdraw its request. -/
def State.releaseLock (s : State) (agent : Nat) : State :=
  { s with svc := { s.svc with
      fblHolder := if s.svc.fblHolder = some agent then none else s.svc.fblHolder,
      fblWait := s.svc.fblWait.filter (fun k => !(k == agent)) } }

/-- Discard the buffered reads and writes of the lanes `f` (R319). -/
def Trans.discard (x : Trans) (f : Mask) : Trans :=
  { x with
    log := x.log.filter (fun p => !(f.getLsbD (p.1 % 64))), buf := x.buf.filter (fun p => !(f.getLsbD (p.1 % 64))),
    bufBad := x.bufBad.filter (fun b => !(f.getLsbD (b % 64))), wsync := [] }

/-- `retry(c, F)` of R319: the next attempt begins at `RH`, after any wait for the fallback lock. -/
def State.retry (s : State) (agent c : Nat) (f : Mask) : State :=
  let t := s.thread agent
  let att := min (t.tx.att + 1) 15
  let fbk := t.tx.fbk || decide (t.tx.budget ≤ att)
  let x := { t.tx.discard f with cause := c, att := att, tm := f, fbk := fbk, pages := [] }
  let t' := { t with tx := x, pstack := toDepth t.pstack x.d0 }
  let s := (s.dropSigs agent).clearSpec t.cache
  if fbk && s.svc.fblHolder ≠ some agent then
    { s.putThread agent { t' with wait := .lock } with svc := { s.svc with fblWait := s.svc.fblWait ++ [agent] } }
  else s.putThread agent (({ t' with wait := .none }.mapRegs (fun r => r.setS x.rd 0)).goto x.rh)

/-- `final(c)` of R319: the transaction ends, `s(RD)` holds the lanes that did not commit, and the group goes to `RH`. -/
def State.final (s : State) (agent c : Nat) : State :=
  let t := s.thread agent
  let x := { t.tx.discard t.tx.tm with cause := c, live := false, pages := [] }
  let s := ((s.releaseLock agent).dropSigs agent).clearSpec t.cache
  s.putThread agent
    (({ t with tx := x, wait := .none, pstack := toDepth t.pstack x.d0 }.mapRegs (fun r => r.setS x.rd t.tx.tm)).goto x.rh)

/-- Has the transaction's TXEND taken a ticket? Then no abort applies to it (R355, R359). -/
def Thread.committing (t : Thread) : Bool :=
  match t.wait with
  | .commit t _ _ _ => t != 0
  | _ => false

/-- The threads with an entry for a line, by rising master ID and slot, which is how their keys rise (R361). -/
def State.holders (s : State) (line : Nat) : List Nat :=
  ((s.mem.sigs.filter (fun e => e.line == line)).map (·.agent)).foldl insertNat []

/-- R359: a plain write to a line aborts every live transaction that has an entry for it, but a holder of the fallback
lock and one that has taken its ticket. -/
def State.hitSigs (s : State) (line : Nat) : State :=
  (s.holders line).foldl (fun (s : State) k =>
    let t := s.thread k
    if t.tx.live && !t.committing && s.svc.fblHolder ≠ some k then s.retry k 1 t.tx.tm else s) s

/-! ## Cached lines -/

/-- A cache's copy of a line. -/
def State.cached (s : State) (cache line : Nat) : Option CLine := (s.mem.caches.getD cache []).find line

/-- Write a cache's copy of a line. -/
def State.putLine (s : State) (cache line : Nat) (l : CLine) : State :=
  { s with mem := { s.mem with caches := s.mem.caches.put cache ((s.mem.caches.getD cache []).put line l) } }

/-- Drop a cache's copy of a line. -/
def State.dropLine (s : State) (cache line : Nat) : State :=
  { s with mem := { s.mem with caches := s.mem.caches.put cache ((s.mem.caches.getD cache []).del line) } }

/-- Units of a line that a mask of its bytes touches. -/
def unitsIn (mask : BitVec 128) : List Nat := (upto 16).filter (fun u => mask.toNat / 2 ^ (8 * u) % 256 != 0)

/-- Units of a line that a mask covers completely (R83). -/
def unitsFull (mask : BitVec 128) : List Nat := (upto 16).filter (fun u => mask.toNat / 2 ^ (8 * u) % 256 == 255)

/-- A set of units as a mask. -/
def unitMask (us : List Nat) : BitVec 16 := BitVec.ofNat 16 (us.foldl (fun n u => n ||| 2 ^ u) 0)

/-- The bytes that blocks have staged in a line. -/
def CLine.stageMask (l : CLine) : BitVec 128 := l.stage.foldl (fun m g => m ||| g.mask) 0

/-- A cache loses its copy of a line to coherence or to an acquire. What blocks have staged in it stays (R378), and nothing else. -/
def State.loseLine (s : State) (cache line : Nat) : State :=
  match s.cached cache line with
  | none => s
  | some l =>
    if l.stage.isEmpty then s.dropLine cache line
    else s.putLine cache line { l with
      dirty := 0, st := .U, spec := false, stale := true, poison := l.poison &&& unitMask (unitsIn l.stageMask) }

/-- A copy that is dirty under ownership. -/
def CLine.ownedDirty (l : CLine) : Bool := l.st = .M || l.st = .O

/-- A copy the home tracks. -/
def CLine.tracked (l : CLine) : Bool := !(l.st = .U)

/-- The owner's dirty copy of a line, where there is one. -/
def State.dirtyCopy (s : State) (line : Nat) : Option CLine :=
  s.mem.caches.findSome? (fun p =>
    match Tab.find p.2 line with
    | some l => if l.ownedDirty then some l else none
    | none => none)

/-- Bytes of a line. -/
def lineByte (d : BitVec 1024) (i : Nat) : Nat := d.toNat / 2 ^ (8 * i) % 256

/-- `n` bytes of a line from offset `i`, as a number. -/
def lineBytes (d : BitVec 1024) (i n : Nat) : Nat := d.toNat / 2 ^ (8 * i) % 2 ^ (8 * n)

/-- Replace `n` bytes of a line from offset `i`. -/
def setLineBytes (d : BitVec 1024) (i n v : Nat) : BitVec 1024 :=
  let x := d.toNat
  BitVec.ofNat 1024 (x % 2 ^ (8 * i) + v % 2 ^ (8 * n) * 2 ^ (8 * i) + x / 2 ^ (8 * (i + n)) * 2 ^ (8 * (i + n)))

/-- The bits of `n` bytes from offset `i` in a byte mask. -/
def byteMask (i n : Nat) : BitVec 128 := BitVec.ofNat 128 ((2 ^ n - 1) * 2 ^ i)

/-- The line as the home holds it, under a key. -/
def State.homeLine (s : State) (key line : Nat) : BitVec 1024 :=
  BitVec.ofNat 1024 (ofBytes ((upto 128).map (fun i => (s.homeByte key (128 * line + i)).toNat)))

/-- The poisoned units of a line at its home. -/
def State.homePoison (s : State) (line : Nat) : BitVec 16 :=
  BitVec.ofNat 16 ((upto 16).foldl (fun a u => if s.mem.poison.contains (16 * line + u) then a + 2 ^ u else a) 0)

/-- A directory entry of a line nothing tracks. -/
def Dir.idle : Dir := ⟨.I, 255, [], [], [], false, none, 0, false, 0, []⟩

/-- The directory entry of a line. -/
def State.dirOf (s : State) (line : Nat) : Dir := s.mem.dir.getD line Dir.idle

/-- Write a directory entry. -/
def State.putDir (s : State) (line : Nat) (d : Dir) : State := { s with mem := { s.mem with dir := s.mem.dir.put line d } }

/-- What a write at the home leaves in the home's cache (R82, R35): units of a line resident under its key become dirty; a line resident
under another key is written back and no longer resident. A line that is not resident is written in memory (log entry 24). -/
def State.dirtyHome (s : State) (key line : Nat) (units : List Nat) : State :=
  let d := s.dirOf line
  if !d.resident || units.isEmpty then s
  else if d.key = key then s.putDir line { d with dirty := units.foldl insertNat d.dirty }
  else if d.st = .I then s.putDir line { d with resident := false, dirty := [] }
  else s

/-- Merge the masked bytes of a line into the home (R85): poison travels, a completely covered unit is cleared (R83). -/
def State.mergeLine (s : State) (key line : Nat) (data : BitVec 1024) (mask : BitVec 128) (poison : BitVec 16) : State :=
  let s := (upto 128).foldl (fun (s : State) i =>
    if mask.getLsbD i then s.setByte key (128 * line + i) (BitVec.ofNat 8 (lineByte data i)) else s) s
  let s := s.setPoison ((unitsFull mask).map (fun u => 16 * line + u)) false
  let s := s.setPoison (((unitsIn mask).filter (fun u => poison.getLsbD u)).map (fun u => 16 * line + u)) true
  s.dirtyHome key line (unitsIn mask)

/-- All bytes of a line. -/
def fullMask : BitVec 128 := BitVec.allOnes 128

/-- Write back an owner's dirty copy. -/
def State.writeBack (s : State) (line : Nat) (l : CLine) : State := s.mergeLine l.key line l.data fullMask l.poison

/-- Table 4.6: is the entry in a transient state? -/
def DirSt.transient : DirSt → Bool
  | .I => false
  | .S => false
  | .EM => false
  | .O => false
  | _ => true

/-- R357: a snoop that reaches a speculative line aborts the distaff transactions of that core. -/
def State.snoopSpec (s : State) (cache line : Nat) : State :=
  match s.cached cache line with
  | some l =>
    if l.spec then
      (s.threadsOf cache).foldl (fun (s : State) k =>
        let t := s.thread k
        if t.tx.live && !t.committing && s.mem.sigs.any (fun e => e.agent == k && e.line == line) then
          s.retry k 1 t.tx.tm else s) s
    else s
  | none => s

/-- The ticket of a commit under way. -/
def Thread.ticket (t : Thread) : Nat :=
  match t.wait with
  | .commit n _ _ _ => n
  | _ => 0

/-- R358: snoops to a line that a committing thread holds speculative wait until its marks are cleared: here, those of a commit whose
ticket lies below `limit`, where one is given. -/
def State.snoopWaits (s : State) (cache line : Nat) (limit : Option Nat := none) : Bool :=
  match s.cached cache line with
  | some l => l.spec && (s.threadsOf cache).any (fun k =>
      (s.thread k).committing && s.mem.sigs.any (fun e => e.agent == k && e.line == line)
        && (match limit with
          | some n => decide ((s.thread k).ticket < n)
          | none => true))
  | none => false

/-- The caches that hold a line under tracking. -/
def State.trackers (s : State) (line : Nat) : List Nat :=
  (s.mem.caches.filter (fun p =>
    match Tab.find p.2 line with
    | some l => l.tracked
    | none => false)).map (·.1)

/-- Recall every tracked copy of a line to its home at once, as a home does message by message by the rows of Table 4.5. -/
def State.settle (s : State) (line : Nat) : State :=
  let holders := s.trackers line
  let s := holders.foldl (fun (s : State) c => s.snoopSpec c line) s
  let s := match s.dirtyCopy line with
    | some l => s.writeBack line l
    | none => s
  let s := holders.foldl (fun (s : State) c => s.loseLine c line) s
  let d := s.dirOf line
  if holders.isEmpty then s
  else s.putDir line { Dir.idle with resident := d.resident, csv := d.csv, key := d.key, dirty := d.dirty }

/-- A line whose home serves no request now: transient (R89), locked by a commit (R355), or in transit (R31). -/
def State.homeBusy (s : State) (line : Nat) : Bool :=
  (s.dirOf line).st.transient || s.mem.locked.contains line || s.inTransit line

/-- The kinds of message by which copies of a line are on their way. -/
def MsgKind.moves : MsgKind → Bool
  | .getS => false
  | .getX => false
  | .upg => false
  | .rdU => false
  | .mwb => false
  | .fa => false
  | .visit => false
  | .putAck => false
  | .error => false
  | _ => true

/-- Does a line's home serve a request for it, or is a grant, forward, acknowledgement or owner's eviction of it in flight? -/
def State.lineMoves (s : State) (line : Nat) : Bool :=
  s.homeBusy line || s.mem.net.any (fun m => m.line == line && m.kind.moves)

/-- A line on which no access of an engine or service may be performed at its home now: it moves, or its owner answers no snoop
until its commit is complete (R358). -/
def State.lineBusy (s : State) (line : Nat) : Bool :=
  s.lineMoves line || (s.trackers line).any (fun c => s.snoopWaits c line)

/-- R359, R361: a plain write waits while the line belongs to the transaction that holds the fallback lock. -/
def State.writeHeld (s : State) (line : Nat) : Bool :=
  match s.svc.fblHolder with
  | none => false
  | some k => s.mem.sigs.any (fun e => e.agent == k && e.line == line)

/-- Requests that write plainly at the home, or take a line to be written (R359). An owner's write-back is none, nor is a transaction's
request. -/
def Msg.writes (m : Msg) : Bool :=
  match m.kind with
  | .getX => !m.tx
  | .upg => !m.tx
  | .mwb => true
  | .fa => true
  | _ => false

/-- Does a message serve the holder of the fallback lock: is it its own access, or a write-back of its core's masked bytes or a
request of its distaff core for a line, which may carry or serve its own stores (log entry 50)? -/
def State.isHolder (s : State) (m : Msg) : Bool :=
  match s.svc.fblHolder, m.acc with
  | none, _ => false
  | some k, some a => k == a.agent
  | some k, none => (m.tx && k == m.agent) || (m.mid == (s.thread k).mid && (m.kind == .mwb || (s.thread k).kind == .distaff))

/-- Must a plain write of a thread to its own L1's exclusive copy wait? It does where a sibling thread's commit holds the line (R358), or a
sibling that holds the fallback lock has an entry for it (R361; log entry 51). -/
def State.siblingWaits (s : State) (agent cache line : Nat) : Bool :=
  s.snoopWaits cache line || ((s.cached cache line).any (·.spec) && s.writeHeld line && s.svc.fblHolder != some agent)

/-- R359, R361: a plain write waits at the home of a line of the transaction that holds the fallback lock. -/
def State.held (s : State) (m : Msg) : Bool := m.writes && s.writeHeld m.line && !(s.isHolder m)

/-- Does the thread hold the fallback lock? What its lock keeps waiting then keeps it waiting for nothing (log entry 50). -/
def State.holdsLock (s : State) (agent : Option Nat) : Bool := agent.isSome && s.svc.fblHolder == agent

/-! ## Coherent accesses of engines, walkers and services -/

/-- A line whose owner holds it under another key than a request's is first recalled (R35). -/
def State.settleKey (s : State) (line key : Nat) : State :=
  if s.mem.caches.any (fun p => match Tab.find p.2 line with
    | some l => l.tracked && l.key != key
    | none => false) then s.settle line else s

/-- One byte that a coherent read at package scope observes: an owner's dirty copy where there is one, else the home. -/
def State.peekByte (s : State) (key b : Nat) : Nat :=
  let s := s.settleKey (b / 128) key
  match s.dirtyCopy (b / 128) with
  | some l => lineByte l.data (b % 128)
  | none => (s.homeByte key b).toNat

/-- The bytes a coherent read at package scope observes. -/
def State.peek (s : State) (a key n : Nat) : List Nat :=
  let p := s.steer a key
  (upto n).map (fun i => s.peekByte p.2 (p.1 + i))

/-- R360, R35: what a coherent read of one line does to its owner: a distaff transaction that holds the line in E or M aborts, and a
copy under another key is recalled. -/
def State.snoopLine (s : State) (line key : Nat) : State :=
  let s := s.settleKey line key
  let d := s.dirOf line
  if d.st = .EM || d.st = .O then (s.trackers line).foldl (fun (s : State) c =>
    match s.cached c line with
    | some l => if l.st = .S then s else s.snoopSpec c line
    | none => s) s
  else s

/-- Is a byte of the range poisoned, at the home or in the owner's copy? -/
def State.peekPoison (s : State) (a n : Nat) : Bool :=
  let a := (s.steer a 0).1
  s.memPoisoned a n ||
    (upto n).any (fun i =>
      match s.dirtyCopy ((a + i) / 128) with
      | some l => l.poison.getLsbD ((a + i) % 128 / 8)
      | none => false)

/-- The lines of a range of home bytes. -/
def linesOf (a n : Nat) : List Nat := if n = 0 then [] else (upto ((a + n - 1) / 128 - a / 128 + 1)).map (fun i => a / 128 + i)

/-- A coherent read performed at the home by an engine, a walker or a service: its snoops, and its counts (R26). -/
def State.readAt (s : State) (a key n mid : Nat) : State :=
  let p := s.steer a key
  (linesOf p.1 n).foldl (fun (s : State) l => (s.snoopLine l p.2).count (128 * l) false mid) s

/-- A plain write performed at the home at package scope (R359): tracked copies are recalled, transactions that hold the
line abort, the bytes are written under the key, and completely covered units lose their poison. -/
def State.poke (s : State) (a key : Nat) (bs : List Nat) (mid : Nat) : State :=
  let p := s.steer a key
  let s := (linesOf p.1 bs.length).foldl (fun (s : State) l => (s.settle l).hitSigs l) s
  let s := s.setBytes p.2 p.1 bs
  let s := s.setPoison (unitsCovered p.1 bs.length) false
  let s := (unitsOf p.1 bs.length).foldl (fun (s : State) u => s.dirtyHome p.2 (u / 16) [u % 16]) s
  (linesOf p.1 bs.length).foldl (fun (s : State) l => s.count (128 * l) true mid) s

/-- May a plain write to a range be performed now? -/
def State.pokeReady (s : State) (a n : Nat) : Bool :=
  (linesOf (s.steer a 0).1 n).all (fun l => !(s.lineBusy l) && !(s.writeHeld l))

end Sys2Proof.Machine
end

