-- ==== Sys2Proof/Machine/Ops.lean ====
section
/-! DEFINITION. Taking a trap and returning from one (spec/18_faults_preemption.md R382 to R399), fault records (R388 to R390),
and issuing a word: the checks of R187 in their order, then its effect, then the move to the next word. -/

namespace Sys2Proof.Machine

/-! ## Fault records -/

/-- The queue of a partition (R388). -/
def State.frqOf (s : State) (p : Nat) : Frq := s.svc.frq.getD p ⟨0, 0, 0⟩

/-- Change the queue of a partition. -/
def State.mapFrq (s : State) (p : Nat) (f : Frq → Frq) : State :=
  { s with svc := { s.svc with frq := s.svc.frq.put p (f (s.frqOf p)) } }

/-- Records the ring holds: 2^(LOG2N + 6). -/
def Frq.size (q : Frq) : Nat := 2 ^ (bitsAt q.base 0 4 + 6)

/-- Is the queue enabled with room (R390)? -/
def Frq.open (q : Frq) : Bool := q.base.getLsbD 11 && (q.head + 2 ^ 32 - q.tail) % 2 ^ 32 < q.size

/-- The physical address word of record `n`. -/
def Frq.slot (q : Frq) (n : Nat) : Word :=
  BitVec.ofNat 64 (bitsAt q.base 12 50 * 2 ^ 12 + 64 * (n % q.size))

/-- R390: write a record where the queue has room and the line is free, advance `FRQ.HEAD` and raise the fault interrupt. -/
def State.writeRecord (s : State) (r : Record) : Option State :=
  let q := s.frqOf r.part
  if !q.open then none
  else match s.vet 645 .write (q.slot q.head) with
    | .error _ => none
    | .ok a =>
      if !(s.pokeReady a 64) then none
      else
        let s := s.poke a (keyOf (q.slot q.head)) (r.words.flatMap (fun w => toBytes w.toNat 8)) 645
        some ((s.mapFrq r.part (fun q => { q with head := (q.head + 1) % 2 ^ 32 })).interrupt r.part 0)

/-- R390: is the place of the next record of an open queue unbacked or denied? -/
def State.recordDenied (s : State) (part : Nat) : Bool :=
  let q := s.frqOf part
  q.open && (match s.vet 645 .write (q.slot q.head) with
    | .error _ => true
    | .ok _ => false)

/-- R390: the buffer of 256 held records of a die has room for `n`, if the queue does not take them. -/
def State.recordRoom (s : State) (die n : Nat) : Bool :=
  decide ((s.svc.heldRecs.filter (fun r => r.die == die)).length + n ≤ 256)

/-- It has room for one. -/
def State.holdRoom (s : State) (die : Nat) : Bool := s.recordRoom die 1

/-- What a fault record says beside its token (Table 18.4). -/
structure Report where
  kind : Nat
  cause : Nat
  reason : Nat
  mid : Nat
  slot : Nat
  acc : Nat
  asid : Nat
  va : Word
  lanes : Mask
  lnum : Nat
  detail : Word
  hdr : Word
  rsm : Word
  deriving DecidableEq, Repr

/-- Table 18.4: the eight words of a record. -/
def Report.words (r : Report) (token : Nat) : List Word :=
  [ BitVec.ofNat 64 (r.kind * 2 ^ 60 + r.cause * 2 ^ 52 + r.reason * 2 ^ 48 + r.mid * 2 ^ 36 + r.slot * 2 ^ 31
      + r.acc * 2 ^ 29 + r.asid % 2 ^ 16),
    r.va, r.lanes, BitVec.ofNat 64 (r.lnum % 2 ^ 32 * 2 ^ 32 + token % 2 ^ 32), r.detail, r.hdr, r.rsm, 0 ]

/-- R390: the token of the next record, which no unanswered record carries. Tokens are counted across the package, so that a MERGE
brings no two records of one token into a partition (log entry 49). -/
def State.freshToken (s : State) : Nat :=
  (((upto (s.svc.tokens.length + 1)).map (fun i => (s.svc.tokenNext + i - 1) % (2 ^ 32 - 1) + 1)).find?
    (fun n => s.svc.tokens.all (fun t => t.token != n))).getD s.svc.tokenNext

/-- R389, R390: report a fault of a source on a die: a token for kinds 1 to 4, the record written at once where no earlier
record of the die is held and the queue has room, else held. -/
def State.report (s : State) (part die : Nat) (r : Report) (src : Source) : State :=
  let tok := if r.kind ≤ 4 then s.freshToken else 0
  let s := if r.kind ≤ 4 then
      { s with svc := { s.svc with
          tokenNext := tok % (2 ^ 32 - 1) + 1,
          tokens := s.svc.tokens ++ [⟨part, tok, r.kind, r.lnum, r.lanes, r.cause, r.reason, src, r.rsm⟩] } }
    else s
  let rec0 : Record := ⟨part, die, r.words tok⟩
  let held := s.svc.heldRecs.any (fun h => h.die == die)
  match (if held then none else s.writeRecord rec0) with
  | some s' => s'
  | none =>
    let s := { s with svc := { s.svc with heldRecs := s.svc.heldRecs ++ [rec0] } }
    if s.recordDenied part then s.interrupt part 0 else s

/-- The latest token a partition has given out. -/
def State.lastToken (s : State) (part : Nat) : Nat :=
  match s.svc.tokens.reverse.find? (fun t => t.part == part) with
  | some t => t.token
  | none => 0

/-- The die whose buffer holds a thread's records: its own, or the host die (4). -/
def Thread.die (t : Thread) : Nat :=
  match t.kind with
  | .group => dieOf t.ident.core
  | .distaff => 4

/-- The partition that owns a thread's work: that of its launch, or of its quartet (R390). -/
def State.ownerPart (s : State) (t : Thread) : Nat :=
  match t.kind with
  | .group => match s.launch? t.ident.lnum with
    | some l => l.part
    | none => (s.partOfThread t).getD 0
  | .distaff => (s.partOfThread t).getD 0

/-! ## Taking a trap -/

/-- A trap: its cause, reason and code, the lanes it names, the faulting address (0 for none), `MORE`, and where the thread
resumes, in the layout of `GRP.TRSM`. -/
structure TrapInfo where
  cause : Nat
  reason : Nat
  code : Nat
  lanes : Mask
  va : Word
  more : Bool
  rsm : Word
  deriving DecidableEq, Repr

/-- `GRP.TCS` as a trap sets it (Table 18.2). -/
def TrapInfo.tcs (i : TrapInfo) : Word :=
  BitVec.ofNat 64 (2 ^ 63 + bit i.more * 2 ^ 62 + i.cause * 2 ^ 48 + i.reason * 2 ^ 40 + i.code * 2 ^ 32)

/-- The address of the trap clause of a group's kernel; none where it has no `trap:` clause (R385, Table 9.12). -/
def State.trapClause (s : State) (t : Thread) : Option Word :=
  match s.launch? t.ident.lnum with
  | some l => if l.trapOff = 2 ^ 32 - 1 then none else some (BitVec.ofNat 64 (l.img + l.codeOff + l.trapOff))
  | none => none

/-- `ACT`: the thread is in trap mode (R385, R399). -/
def Thread.inTrap (t : Thread) : Bool := t.trap.tcs.getLsbD 63

/-- The trap as the thread would take it at a later word boundary. -/
def TrapInfo.later (i : TrapInfo) (hdr : Word) : Later := ⟨i.cause, i.reason, i.code, i.lanes, i.va, i.more, some hdr, some i.rsm⟩

/-- R385: the group parks, and its trap goes to the handler in a record of kind 4, which names the header of the faulting word's
clause. While the buffer of its die is full the group stops without a record, and tries again at its next turn (R390). -/
def State.unhandled (s : State) (k : Nat) (t : Thread) (i : TrapInfo) (hdr : Word) : State :=
  if s.holdRoom t.die then
    (s.putThread k { t with status := .parked, park := none }).report (s.ownerPart t) t.die
      ⟨4, i.cause, i.reason, t.mid, t.ident.slot, 0, bitsAt t.xltAsid 0 16, 0, i.lanes, t.ident.lnum, i.tcs, hdr, i.rsm⟩
      (.trap k)
  else s.putThread k { t with status := .running, park := none, later := i.later hdr :: t.later }

/-- R385: a group enters trap mode, or parks with a record of kind 4. -/
def State.groupTrap (s : State) (k : Nat) (i : TrapInfo) (hdr : Word) : State :=
  let t := { s.thread k with reuse := none, wait := .none }
  match s.trapClause t with
  | some h =>
    if t.inTrap then s.unhandled k t i hdr
    else s.putThread k ({ t with
      trap := { t.trap with tcs := i.tcs, tlm := i.lanes, tva := i.va, trsm := i.rsm }, park := none, status := .running }.goto h)
  | none => s.unhandled k t i hdr

/-- R399: a distaff thread enters its handler, or stops where it is in its handler already. -/
def State.distaffTrap (s : State) (k : Nat) (i : TrapInfo) : State :=
  let t := { s.thread k with wait := .none }
  if t.inTrap then
    let s := s.putThread k { t with status := .stopped }
    match s.partOfThread t with
    | some p => s.interrupt p 6
    | none => s
  else
    s.putThread k ({ t with
      priv := true,
      trap := { t.trap with tcs := i.tcs ||| BitVec.ofNat 64 (bit t.priv * 2 ^ 61), tva := i.va, trsm := i.rsm } }.goto
        (BitVec.ofNat 64 (bitsAt t.trap.vec 2 54 * 4)))

/-- Take a trap on a thread (R383), for a word of the clause at a header: the one the thread is in, unless another is given. A trap inside a
live transaction first ends it by final(6) and resumes at `RH` (R387). -/
def State.trap (s : State) (k : Nat) (i : TrapInfo) (hdr : Option Word := none) : State :=
  let h := hdr.getD (s.thread k).fetch.hdr
  let live := (s.thread k).tx.live
  let i := if live then { i with rsm := rsmWord 0 (s.thread k).tx.rh } else i
  let s := if live then s.final k 6 else s
  match (s.thread k).kind with
  | .group => s.groupTrap k i h
  | .distaff => s.distaffTrap k i

/-- A trap of the current thread's word for the whole group, the word not performed: it resumes at the word (R386). -/
def State.trapHere (s : State) (cause reason : Nat) (va : Word := 0) : State :=
  s.trap s.work.cur ⟨cause, reason, 0, s.th.active, va, false, s.th.here⟩

/-- A trap that names lanes of a performed word: it resumes at the word after it (R386). -/
def State.trapAfter (s : State) (cause reason : Nat) (lanes : Mask) (va : Word) (more : Bool) (code : Nat := 0) : State :=
  s.trap s.work.cur ⟨cause, reason, code, lanes, va, more, s.th.after⟩

/-- ERET (R324, R386, R399): leave trap mode and resume where the resume register says; a misaligned `HDR` raises cause 0x06
while still in trap mode. Words fetched again are checked again, so a resume inside a clause keeps its word index. -/
def State.eret (s : State) : State :=
  let t := s.th
  let hdr := bitsAt t.trap.trsm 0 56
  let wix := bitsAt t.trap.trsm 60 4
  if hdr % 4 ≠ 0 then s.trapHere 0x06 0
  else
    let priv := match t.kind with
      | .group => t.priv
      | .distaff => t.trap.tcs.getLsbD 61
    s.mapTh (fun t => { t with
      priv := priv, trap := { t.trap with tcs := setBits t.trap.tcs 63 1 0 },
      fetch := ⟨BitVec.ofNat 64 hdr, wix, []⟩ })

/-! ## Issuing a word -/

/-- The outcome of a meaning: this machine always goes on (R383). -/
abbrev Out : Type := Host.Outcome State Fault Refusal

/-- The rows of Table 7.3. -/
inductive RoleRow where
  /-- Every role. -/
  | every
  /-- Vector and any. -/
  | vector
  /-- Matrix only. -/
  | gang
  /-- Matrix and any. -/
  | tile
  /-- Copy and any. -/
  | copy
  /-- Copy, matrix and any. -/
  | walker
  deriving DecidableEq, Repr

/-- Table 7.3: does a role code (0 copy, 1 matrix, 2 vector, 3 any) permit the row? -/
def RoleRow.permits (r : RoleRow) (role : Nat) : Bool :=
  match r with
  | .every => true
  | .vector => role == 2 || role == 3
  | .gang => role == 1
  | .tile => role == 1 || role == 3
  | .copy => role == 0 || role == 3
  | .walker => role == 0 || role == 1 || role == 3

/-- A source operand: a scalar or vector register by absolute number, its trap-if-empty policy, and whether reading it is
consumption (R83: a store's data is not). -/
structure Src where
  vec : Bool
  reg : Nat
  policy : Bool
  consumed : Bool
  deriving DecidableEq, Repr

/-- What a word needs before it is performed (R187, Table 14.1). -/
structure Need where
  illegal : Bool := false
  distaff : Bool := false
  simt : Bool := true
  priv : Bool := false
  role : RoleRow := .every
  /-- A lane-by-lane word: with `active()` empty it performs nothing (R149). -/
  lanes : Bool := false
  /-- Not performed inside a live transaction, which it aborts with cause 5 (Table 14.1, R318). -/
  aborts : Bool := false
  /-- Ends the group's idempotent region (R152). -/
  ends : Bool := false
  reads : List Src := []
  sdests : List Nat := []
  vdests : List Nat := []

/-- What the checks of R187 decide. -/
inductive Verdict where
  | go
  | skip
  | wait
  | abort
  | trap (cause reason : Nat)
  deriving DecidableEq, Repr

/-- Is a source empty? -/
def Thread.empty (t : Thread) (r : Src) : Bool := if r.vec then !(t.regs.vFull r.reg) else !(t.regs.sFull r.reg)

/-- Is a scalar source that the word consumes poisoned? -/
def Thread.poisoned (t : Thread) (r : Src) : Bool := r.consumed && !r.vec && t.regs.sPoison.contains r.reg

/-- R187, R150, R151, R83: the checks of a word, in order. -/
def verdict (t : Thread) (n : Need) : Verdict :=
  if n.illegal || (t.kind = .distaff && !n.distaff) || (t.kind = .group && !n.simt) then .trap 0x01 0
  else if n.priv && !t.priv then .trap 0x0F 0
  else if t.kind = .group && !(n.role.permits t.ident.role) then .trap 0x0E 0
  else if n.lanes && t.active = 0 then .skip
  else if n.reads.any (fun r => r.policy && t.empty r) then .trap 0x03 0
  else if n.reads.any t.empty || n.sdests.any (fun d => !(t.regs.sFull d)) || n.vdests.any (fun d => !(t.regs.vFull d)) then
    .wait
  else if n.reads.any t.poisoned then .trap 0x10 1
  else if n.aborts && t.tx.live then .abort
  else .go

/-- How a word's effect ends. -/
inductive Res where
  /-- Performed: the thread moves to the next word. -/
  | done (s : State)
  /-- A control transfer to a clause header. -/
  | goto (s : State) (hdr : Word)
  /-- Not finished: the word is considered again at the thread's next turn. -/
  | stay (s : State)
  /-- The effect has placed the thread itself. -/
  | moved (s : State)
  /-- Performed on some lanes: a trap names the others, and the thread resumes at the word after. -/
  | lanes (s : State) (cause reason : Nat) (mask : Mask) (va : Word) (more : Bool)

/-- A word that ends its region opens a gap until the next REGION (R394). -/
def Thread.endRegion (t : Thread) (ends : Bool) : Thread := if ends && t.kind = .group then { t with gap := true } else t

/-- Move the current thread past its word. -/
def State.advance (s : State) (ends : Bool) : State := s.mapTh (fun t => (t.endRegion ends).advance)

/-- Finish a word. -/
def Res.finish (r : Res) (ends : Bool) : State :=
  match r with
  | .done s => s.advance ends
  | .goto s h => s.mapTh (fun t => (t.endRegion ends).goto h)
  | .stay s => s
  | .moved s => s
  | .lanes s c r m va more => (s.mapTh (fun t => t.endRegion ends)).trapAfter c r m va more

/-- May the current thread issue its word? Not while it is stopped, nor while it waits for the fallback lock or for a polling
load (R164), nor before the producers that a resume issues again (R441), nor while lanes of a word that have failed wait for its others
(R384). -/
def Thread.issues (t : Thread) : Bool :=
  t.status = .running && t.wait ≠ .lock && !(t.producers.any (fun p => p.spin || p.holds || p.await = .poll []))

/-- Issue a word: the checks, then the effect. -/
def State.issue (s : State) (need : Thread → Need) (body : State → Res) : State :=
  if s.th.issues then
    match verdict s.th (need s.th) with
    | .trap c r => s.trapHere c r
    | .wait => s
    | .skip => s.advance false
    | .abort => s.final s.work.cur 5
    | .go => (body s).finish (need s.th).ends
  else s

end Sys2Proof.Machine
end

