-- ==== Sys2Proof/Machine/Operands.lean ====
section
/-! DEFINITION. Operand forms (Table 9.2, R144 to R146, R189 to R191, R223): which registers a field names, when a register or
a register group is illegal, and how lane results are written. -/

namespace Sys2Proof.Machine

/-- A scalar source named by a window offset, under a policy bit. -/
def Thread.srcS (t : Thread) (f : BitVec 7) (policy : Bool) : Src := ⟨false, t.abs f, policy, true⟩

/-- A scalar that a store only passes on (R83, R190): it always blocks, and poison travels. -/
def Thread.dataS (t : Thread) (f : BitVec 7) : Src := ⟨false, t.abs f, false, false⟩

/-- `n` scalars from a window offset, all blocking. -/
def Thread.srcGroupS (t : Thread) (f : BitVec 7) (n : Nat) : List Src :=
  (upto n).map (fun i => ⟨false, t.abs f + i, false, true⟩)

/-- A vector source under a policy bit. -/
def srcV (r : BitVec 7) (policy : Bool) : Src := ⟨true, r.toNat, policy, true⟩

/-- `n` vector registers from `r`, the first under a policy bit and the others blocking (R223). -/
def groupV (r : BitVec 7) (n : Nat) (policy : Bool) : List Src :=
  (upto n).map (fun i => ⟨true, r.toNat + i, policy && i == 0, true⟩)

/-- `n` vector registers that a store passes on. -/
def dataV (r : BitVec 7) (n : Nat) : List Src := (upto n).map (fun i => ⟨true, r.toNat + i, false, false⟩)

/-- The value of a scalar field. -/
def Thread.valS (t : Thread) (f : BitVec 7) : Word := t.regs.s (t.abs f)

/-- R144, R223: a register group of `n` vector registers from `r` is illegal when one of them lies from NVR to v119, when it
runs past v127 or from the last register into the temporaries, or when a 64-bit operand names an odd register. -/
def Thread.badV (t : Thread) (r : BitVec 7) (n : Nat) (even : Bool := false) : Bool :=
  let k := r.toNat
  (even && k % 2 == 1) ||
    (if k < 120 then decide (t.ident.nvr < k + n) else decide (128 < k + n))

/-- R145: a long-latency producer may not name a temporary. -/
def Thread.badDest (t : Thread) (r : BitVec 7) (n : Nat) (even : Bool := false) : Bool :=
  t.badV r n even || decide (120 ≤ r.toNat)

/-- R193: a scalar group runs past s(128 * WIN + 127). -/
def badS (f : BitVec 7) (n : Nat) : Bool := decide (128 < f.toNat + n)

/-- The destinations of a group of vector registers. -/
def destsV (r : BitVec 7) (n : Nat) : List Nat := (upto n).map (fun i => r.toNat + i)

/-- Sign-extend a 10-bit immediate (R191). -/
def simm10 (i : BitVec 10) : Word := i.signExtend 64

/-- Sign-extend a 19-bit immediate (R191). -/
def simm19 (i : BitVec 19) : Word := i.signExtend 64

/-- The target of a B-format transfer: H + 4 * sext(OFF16) (R188). -/
def Thread.target (t : Thread) (o : BitVec 16) : Word := t.fetch.hdr + 4 * o.signExtend 64

/-- Write a scalar destination of the current thread. -/
def State.setS (s : State) (f : BitVec 7) (v : Word) : State := s.mapTh (fun t => t.mapRegs (fun r => r.setS (t.abs f) v))

/-- Write a mask of the current thread, cut to W bits (R146). -/
def State.setM (s : State) (k : BitVec 3) (v : Mask) : State :=
  s.mapTh (fun t => t.mapRegs (fun r => r.setM k.toNat (v &&& t.allLanes)))

/-- Poisoned 32-bit units of lane `l` among the vector sources a word consumes (R83). -/
def Thread.lanePoison (t : Thread) (srcs : List Src) (l : Nat) : Bool :=
  srcs.any (fun r => r.vec && r.consumed && t.regs.vPoison.contains (64 * r.reg + l))

/-- The active lanes whose sources are clean, and those that consume poison. -/
def Thread.cleanLanes (t : Thread) (srcs : List Src) : List Nat × List Nat :=
  (t.lanes.filter (fun l => !(t.lanePoison srcs l)), t.lanes.filter (t.lanePoison srcs))

/-- Finish a lane-by-lane word (R384): done, or a trap 0x10 reason 1 that names the lanes that consumed poison. -/
def poisonRes (s : State) (bad : List Nat) : Res :=
  if bad.isEmpty then .done s else .lanes s 0x10 1 (maskOf bad) 0 false

/-- Write one 32-bit register lane by lane from the registers as they were: `f` computes a lane from its number. -/
def Regs.mapV (r : Regs) (d : Nat) (ls : List Nat) (f : Nat → Lane) : Regs :=
  ls.foldl (fun (q : Regs) l => q.setV d l (f l)) r

/-- Write a register pair lane by lane. -/
def Regs.mapV64 (r : Regs) (d : Nat) (ls : List Nat) (f : Nat → Word) : Regs :=
  ls.foldl (fun (q : Regs) l => q.setV64 d l (f l)) r

/-- A lane-by-lane word: on every active lane whose sources are clean, `f` writes the destination; the others trap. -/
def State.laneWord (s : State) (srcs : List Src) (f : Regs → List Nat → Regs) : Res :=
  let p := s.th.cleanLanes srcs
  poisonRes (s.mapTh (fun t => t.mapRegs (fun r => f r p.1))) p.2

/-- Write one bit per lane of a mask, leaving the other lanes (R223). -/
def Regs.mapM (r : Regs) (k : Nat) (ls : List Nat) (f : Nat → Bool) : Regs :=
  r.setM k (BitVec.ofNat 64 ((upto 64).foldl (fun a l =>
    a + bit (if ls.contains l then f l else (r.m k).getLsbD l) * 2 ^ l) 0))

/-- The packed elements of a lane word: apply `f` to each element of `n` bits (R224). -/
def packed1 (n : Nat) (f : Nat → Nat) (a : Lane) : Lane :=
  BitVec.ofNat 32 ((upto (32 / n)).foldl (fun x j => x + f (a.toNat / 2 ^ (n * j) % 2 ^ n) % 2 ^ n * 2 ^ (n * j)) 0)

/-- The same on two lane words. -/
def packed2 (n : Nat) (f : Nat → Nat → Nat) (a b : Lane) : Lane :=
  BitVec.ofNat 32 ((upto (32 / n)).foldl (fun x j =>
    x + f (a.toNat / 2 ^ (n * j) % 2 ^ n) (b.toNat / 2 ^ (n * j) % 2 ^ n) % 2 ^ n * 2 ^ (n * j)) 0)

/-- The same on three lane words. -/
def packed3 (n : Nat) (f : Nat → Nat → Nat → Nat) (a b c : Lane) : Lane :=
  BitVec.ofNat 32 ((upto (32 / n)).foldl (fun x j =>
    x + f (a.toNat / 2 ^ (n * j) % 2 ^ n) (b.toNat / 2 ^ (n * j) % 2 ^ n) (c.toNat / 2 ^ (n * j) % 2 ^ n) % 2 ^ n
      * 2 ^ (n * j)) 0)

end Sys2Proof.Machine
end

