-- ==== Sys2Proof/Machine/Flags.lean ====
section
/-! DEFINITION. What decides by a condition: integer comparisons, saturation, bit fields, counts, division, and the predicate
stack (R153, R166, R204 to R206, R226, R227). -/

namespace Sys2Proof.Machine

/-- The conditions of SSET and VCMP on numbers of `n` bits: 0 equal, 1 not equal, 2 signed less, 3 signed at least,
4 unsigned less, 5 unsigned at least (R206). -/
def icmp (n c a b : Nat) : Bool :=
  match c with
  | 0 => a == b
  | 1 => a != b
  | 2 => decide (signedOf n a < signedOf n b)
  | 3 => decide (signedOf n b ≤ signedOf n a)
  | 4 => decide (a < b)
  | _ => decide (b ≤ a)

/-- The conditions of VCMP: 0 equal, 1 not equal, 2 signed less, 3 signed at most, 4 unsigned less, 5 unsigned at most
(R227). -/
def vcmpCond (n c a b : Nat) : Bool :=
  match c with
  | 0 => a == b
  | 1 => a != b
  | 2 => decide (signedOf n a < signedOf n b)
  | 3 => decide (signedOf n a ≤ signedOf n b)
  | 4 => decide (a < b)
  | _ => decide (a ≤ b)

/-- Signed saturation to `n` bits (R166). -/
def satS (n : Nat) (x : Int) : Nat := wrapInt n (clampInt (-(2 ^ (n - 1) : Nat)) ((2 ^ (n - 1) : Nat) - 1) x)

/-- Unsigned saturation to `n` bits. -/
def satU (n : Nat) (x : Int) : Nat := wrapInt n (clampInt 0 ((2 ^ n : Nat) - 1) x)

/-- Leading zero bits of an `n`-bit number. -/
def clz (n x : Nat) : Nat := if x = 0 then n else n - 1 - Nat.log2 x

/-- Trailing zero bits of a number, from bit `i`, at most `n` more. -/
def ctzGo (x : Nat) : Nat → Nat → Nat
  | i, 0 => i
  | i, n + 1 => if x.testBit i then i else ctzGo x (i + 1) n

/-- Trailing zero bits of an `n`-bit number; `n` when it is zero. -/
def ctz (n x : Nat) : Nat := ctzGo x 0 n

/-- Number of 1 bits of an `n`-bit number. -/
def popc (n x : Nat) : Nat := ((upto n).filter x.testBit).length

/-- Shift right with copies of the sign bit, on `n` bits. -/
def sraBits (n a c : Nat) : Nat := wrapInt n (signedOf n a / (2 ^ c : Nat))

/-- Bit-field extract: `w` bits from `p`, cut at the top of `n` bits, sign- or zero-extended (R205, R226). -/
def bitField (n a p w : Nat) (signed : Bool) : Nat :=
  let w' := min w (n - p)
  if w' = 0 then 0
  else
    let f := a / 2 ^ p % 2 ^ w'
    if signed then wrapInt n (signedOf w' f) else f

/-- Bit-field insert (R205). -/
def bitInsert (n d a p w : Nat) : Nat :=
  let w' := min w (n - p)
  d % 2 ^ p + a % 2 ^ w' * 2 ^ p + d / 2 ^ (p + w') * 2 ^ (p + w')

/-- Signed division of R204 on 64 bits: quotient and remainder. -/
def sdivmod (a b : Nat) : Int × Int :=
  let x := signedOf 64 a
  let y := signedOf 64 b
  if y = 0 then (0, x) else (Int.tdiv x y, Int.tmod x y)

/-- PPUSH on a stack below its depth limit (R153). The head of the list is the top entry. -/
def pushEntry (st : List (Mask × Mask)) (m : Mask) : List (Mask × Mask) :=
  match st with
  | [] => [(m, m)]
  | (top, _) :: _ => (top &&& m, m) :: st

/-- PINV on a stack of depth 2 or more, with masks cut to the lanes of the group (R153). -/
def invertTop (all : Mask) (st : List (Mask × Mask)) : List (Mask × Mask) :=
  match st with
  | (_, c) :: (below, bc) :: r => (below &&& ~~~c, ~~~c &&& all) :: (below, bc) :: r
  | _ => st

end Sys2Proof.Machine
end

