-- ==== Sys2Proof/Machine/Control.lean ====
section
/-! DEFINITION. Control transfer, regions, predication and masks (spec/10_scalar_control_instructions.md, R212 to R222; R153) -/

namespace Sys2Proof.Machine

/-! ## Control transfer -/

/-- A conditional branch of B format (R213). -/
def State.branch (s : State) (o : BitVec 16) (c : Bool) : Res := if c then .goto s (s.th.target o) else .done s

/-- BR, R213. -/
def execBr (o : BitVec 16) (s : State) : Out :=
  .next (s.issue (fun _ => { distaff := true }) (fun s => s.branch o true))

/-- BRZ, R213. -/
def execBrz (a : BitVec 7) (o : BitVec 16) (s : State) : Out :=
  .next (s.issue (fun t => { distaff := true, reads := [t.srcS a false] }) (fun s => s.branch o (s.th.valS a == 0)))

/-- BRNZ, R213. -/
def execBrnz (a : BitVec 7) (o : BitVec 16) (s : State) : Out :=
  .next (s.issue (fun t => { distaff := true, reads := [t.srcS a false] }) (fun s => s.branch o (s.th.valS a != 0)))

/-- BRANY, R213: with `active()` empty it is not taken. -/
def execBrany (k : BitVec 3) (o : BitVec 16) (s : State) : Out :=
  .next (s.issue (fun _ => {}) (fun s => s.branch o ((s.th.regs.m k.toNat &&& s.th.active) != 0)))

/-- BRALL, R213: with `active()` empty it is taken. -/
def execBrall (k : BitVec 3) (o : BitVec 16) (s : State) : Out :=
  .next (s.issue (fun _ => {}) (fun s => s.branch o ((s.th.active &&& ~~~(s.th.regs.m k.toNat)) == 0)))

/-- CALL, R214: the link register is written before the transfer. -/
def execCall (a : BitVec 7) (o : BitVec 16) (s : State) : Out :=
  .next (s.issue (fun t => { distaff := true, sdests := [t.abs a] })
    (fun s => .goto (s.setS a s.th.nextHdr) (s.th.target o)))

/-- A transfer through a register (R188, R214): a misaligned target raises cause 0x06 and nothing transfers. -/
def State.jump (s : State) (v : Word) : Res :=
  if v.toNat % 4 ≠ 0 then .moved (s.trapHere 0x06 0 v) else .goto s v

/-- RET, R214. -/
def execRet (a : BitVec 7) (x : Bool) (s : State) : Out :=
  .next (s.issue (fun t => { distaff := true, reads := [t.srcS a x] }) (fun s => s.jump (s.th.valS a)))

/-- JMPI, R214: the effect of RET. -/
def execJmpi (a : BitVec 7) (x : Bool) (s : State) : Out :=
  .next (s.issue (fun t => { distaff := true, reads := [t.srcS a x] }) (fun s => s.jump (s.th.valS a)))

/-- Offer the current group for exchange: it leaves its core's active set (R162). -/
def State.offer (s : State) : State :=
  let t := s.th
  match t.kind with
  | .group => s.mapCore t.ident.core (fun c => { c with active := eraseNat c.active t.ident.slot })
  | .distaff => s

/-- YIELD, R215: no register and no memory changes. -/
def execYield (s : State) : Out := .next (s.issue (fun _ => { distaff := true }) (fun s => .done s.offer))

/-- The end of the issuing thread (R217): a live transaction aborts with cause 4 first, and the reuse latch is released (R261). -/
def State.halt (s : State) : State :=
  let s := if s.th.tx.live then s.final s.work.cur 4 else s
  s.mapTh (fun t => { t with
    reuse := none,
    status := match t.kind with
      | .group => .ended
      | .distaff => .stopped })

/-- HALTG, R217: it waits for the group's long-latency producers; privileged on a distaff thread. -/
def execHaltg (s : State) : Out :=
  .next (s.issue (fun t => { distaff := true, priv := t.kind = .distaff })
    (fun s => if s.th.producers.all (fun p => p.store) then .moved s.halt else .stay s))

/-- NOP, R216. -/
def execNop (s : State) : Out := .next (s.issue (fun _ => { distaff := true }) (fun s => .done s))

/-- The region table's length (R200). -/
def State.regionCount (s : State) (t : Thread) : Nat :=
  match s.launch? t.ident.lnum with
  | some l => l.regCnt
  | none => 0

/-- REGION, R218: it checks nothing on a distaff thread; on a group an index at or above `REGCNT` is illegal. Inside a live
transaction only the restart clause's REGION is performed (R317). -/
def execRegion (i : BitVec 19) (s : State) : Out :=
  .next (s.issue (fun t => { distaff := true, illegal := t.kind = .group && decide (s.regionCount t ≤ i.toNat) })
    (fun s =>
      if s.th.tx.live && s.th.fetch.hdr ≠ s.th.tx.rh then .moved (s.final s.work.cur 5)
      else .done (s.mapTh (fun t =>
        match t.kind with
        | .group => { t with
          region := some i.toNat, gap := false, producers := t.producers.map (fun p => { p with inRegion := false }) }
        | .distaff => t))))

/-! ## Predication and masks -/

/-- PPUSH, R153: depth 16 raises cause 0x04 and leaves the stack. -/
def execPpush (k : BitVec 3) (s : State) : Out :=
  .next (s.issue (fun _ => {}) (fun s =>
    if 16 ≤ s.th.pstack.length then .moved (s.trapHere 0x04 0)
    else .done (s.mapTh (fun t => { t with pstack := pushEntry t.pstack (t.regs.m k.toNat) }))))

/-- R317: would a pop or inversion act on an entry below the transaction's own? -/
def Thread.belowTx (t : Thread) : Bool := t.tx.live && t.pstack.length ≤ t.tx.d0

/-- PINV, R153: depth 1 raises cause 0x05; below a live transaction's own depth it aborts with cause 5 (R317). -/
def execPinv (s : State) : Out :=
  .next (s.issue (fun _ => {}) (fun s =>
    if s.th.belowTx then .moved (s.final s.work.cur 5)
    else if s.th.pstack.length ≤ 1 then .moved (s.trapHere 0x05 0)
    else .done (s.mapTh (fun t => { t with pstack := invertTop t.allLanes t.pstack }))))

/-- PPOP, R153: depth 1 raises cause 0x05; below a live transaction's own depth it aborts with cause 5 (R317). -/
def execPpop (s : State) : Out :=
  .next (s.issue (fun _ => {}) (fun s =>
    if s.th.belowTx then .moved (s.final s.work.cur 5)
    else if s.th.pstack.length ≤ 1 then .moved (s.trapHere 0x05 0)
    else .done (s.mapTh (fun t => { t with pstack := t.pstack.drop 1 }))))

/-- PSETM, R220: bits at or above W are ignored. -/
def execPsetm (k : BitVec 3) (a : BitVec 7) (x : Bool) (s : State) : Out :=
  .next (s.issue (fun t => { reads := [t.srcS a x] }) (fun s => .done (s.setM k (s.th.valS a))))

/-- PGETM, R220. -/
def execPgetm (d : BitVec 7) (k : BitVec 3) (s : State) : Out :=
  .next (s.issue (fun t => { sdests := [t.abs d] }) (fun s => .done (s.setS d (s.th.regs.m k.toNat))))

/-- The mask combinations of R221. -/
def maskOp (o : Nat) (a b : Mask) : Mask :=
  match o with
  | 0 => a &&& b
  | 1 => a ||| b
  | 2 => a ^^^ b
  | 3 => a &&& ~~~b
  | 4 => a ||| ~~~b
  | _ => ~~~a

/-- MLOG, R221. -/
def execMlog (o d a b : BitVec 3) (s : State) : Out :=
  .next (s.issue (fun _ => {}) (fun s =>
    .done (s.setM d (maskOp o.toNat (s.th.regs.m a.toNat) (s.th.regs.m b.toNat)))))

end Sys2Proof.Machine
end

