-- ==== Sys2Proof/Machine/Scratch.lean ====
section
/-! DEFINITION. The scratchpad of a team (spec/05_copy_engine_scratchpad.md, R102, R103): swizzle modes, bytes and poison; and
long-latency producers (R150). -/

namespace Sys2Proof.Machine

/-! ## Scratchpad -/

/-- R103: the physical scratchpad address of a logical one. -/
def swz (m a : Nat) : Nat :=
  let k := match m with
    | 0 => 0
    | 1 => 1
    | 2 => 3
    | _ => 7
  a ^^^ ((a / 128 % 8 &&& k) * 16)

/-- A byte of a team's scratchpad, under a swizzle mode. A byte that nothing has written is zero (log entry 4). -/
def Team.sbyte (t : Team) (m a : Nat) : Nat := (t.scratch.getD (swz m a) 0).toNat

/-- `n` bytes from a logical address. -/
def Team.sbytes (t : Team) (m a n : Nat) : List Nat := (upto n).map (fun i => t.sbyte m (a + i))

/-- Write one byte. -/
def Team.setSbyte (t : Team) (m a v : Nat) : Team := { t with scratch := t.scratch.putD 0 (swz m a) (BitVec.ofNat 8 v) }

/-- Write consecutive bytes, without any change of poison. -/
def Team.setSbytes (t : Team) (m a : Nat) : List Nat → Team
  | [] => t
  | v :: r => (t.setSbyte m a v).setSbytes m (a + 1) r

/-- The 8-byte unit that holds a logical byte. -/
def sunit (m a : Nat) : Nat := swz m a / 8

/-- Is any unit of the bytes poisoned? -/
def Team.spoisoned (t : Team) (m a n : Nat) : Bool := (upto n).any (fun i => t.scratchPoison.contains (sunit m (a + i)))

/-- Poison or clear units. -/
def Team.markUnits (t : Team) (us : List Nat) (b : Bool) : Team :=
  { t with scratchPoison := if b then us.foldl insertNat t.scratchPoison else t.scratchPoison.filter (fun u => !(us.contains u)) }

/-- Write bytes as a store does (R83): units covered completely lose their poison, and the poisoned bytes of the data, by the bits of
`bad`, poison every unit they reach. -/
def Team.storeScratch (t : Team) (m a : Nat) (bs : List Nat) (bad : Nat) : Team :=
  let t := t.setSbytes m a bs
  let t := t.markUnits ((unitsCovered a bs.length).map (fun u => sunit m (8 * u))) false
  t.markUnits (((upto bs.length).filter (fun i => bad.testBit i)).map (fun i => sunit m (a + i))) true

/-- R102: do `n` bytes from `a` lie in the allocation? -/
def Team.holds (t : Team) (a n : Nat) : Bool := a + n ≤ t.alloc

/-! ## Long-latency producers -/

/-- A number that no pending producer of the thread carries. -/
def Thread.freshId (t : Thread) : Nat := t.producers.foldl (fun a p => max a p.id) 0 + 1

/-- No raw bytes: the producer carries its values. -/
def Form.none : Form := ⟨false, 0, 0, 0, false⟩

/-- A relaxed access at team scope. -/
def Order.relaxed : Order := ⟨false, false, 0⟩

/-- A producer of a thread's current word with nothing arrived. -/
def Thread.producer (t : Thread) (form : Form) (sd vd : List Nat) : Producer :=
  { id := t.freshId, form := form, sdests := sd, vdests := vd, vals := [], poison := [], left := 0, await := .none,
    spin := false, order := Order.relaxed, inRegion := !t.gap, failed := [], reqs := [],
    hdr := t.fetch.hdr, rsm := some t.after, store := false, holds := false }

/-- R150: a producer issues: its destinations are empty until it lands. -/
def Thread.produce (t : Thread) (p : Producer) : Thread :=
  { t with
    producers := t.producers ++ [p],
    regs := { t.regs with
      sEmpty := p.sdests.foldl insertNat t.regs.sEmpty, vEmpty := p.vdests.foldl insertNat t.regs.vEmpty } }

/-- The producer of a number. -/
def Thread.findProducer (t : Thread) (id : Nat) : Option Producer := t.producers.find? (fun p => p.id == id)

/-- Change a producer. -/
def Thread.mapProducer (t : Thread) (id : Nat) (f : Producer → Producer) : Thread :=
  { t with producers := t.producers.map (fun p => if p.id = id then f p else p) }

/-- Write one landed value, poisoned or not. -/
def Regs.land (r : Regs) (poison : List Dest) (v : Dest × Word) : Regs :=
  match v.1 with
  | .s k =>
    let r := r.setS k v.2
    if poison.contains (.s k) then { r with sPoison := insertNat r.sPoison k } else r
  | .v k l =>
    let r := r.setV k l (BitVec.ofNat 32 v.2.toNat)
    if poison.contains (.v k l) then { r with vPoison := insertNat r.vPoison (64 * k + l) } else r
  | .slot _ _ => r

/-- The destinations are full again. -/
def Regs.fill (r : Regs) (sd vd : List Nat) : Regs :=
  { r with sEmpty := r.sEmpty.filter (fun k => !(sd.contains k)), vEmpty := r.vEmpty.filter (fun k => !(vd.contains k)) }

/-- R150, R119: all destinations of a producer are written and become full in one step, and the producer is gone. -/
def Thread.landProducer (t : Thread) (p : Producer) : Thread :=
  { t with
    regs := (p.vals.foldl (fun r v => Regs.land r p.poison v) t.regs).fill p.sdests p.vdests,
    producers := t.producers.filter (fun q => q.id != p.id) }

end Sys2Proof.Machine
end

