-- ==== Sys2Proof/Machine/Tensor.lean ====
section
/-! DEFINITION. Tensor records and tiles (spec/02_translation.md, R49, R50; spec/05_copy_engine_scratchpad.md, R107). -/

namespace Sys2Proof.Machine

/-- A tensor record (Table 2.8). Strides are indexed from dimension 1. -/
structure TRec where
  fmt : Nat
  rank : Nat
  base : Nat
  sizes : List Nat
  tiles : List Nat
  strides : List Nat
  deriving DecidableEq, Repr

/-- The record of eight words. -/
def TRec.ofWords (w : List Word) : TRec :=
  let g (i : Nat) : Word := nth w i 0
  { fmt := bitsAt (g 0) 60 4, rank := bitsAt (g 0) 57 3, base := bitsAt (g 0) 0 56,
    sizes := [bitsAt (g 1) 0 32, bitsAt (g 1) 32 32, bitsAt (g 2) 0 32, bitsAt (g 2) 32 32, bitsAt (g 3) 0 32],
    tiles := [bitsAt (g 3) 32 16, bitsAt (g 3) 48 16, bitsAt (g 4) 48 16, bitsAt (g 5) 48 16, bitsAt (g 6) 48 16],
    strides := [bitsAt (g 4) 0 48, bitsAt (g 5) 0 48, bitsAt (g 6) 0 48, bitsAt (g 7) 0 48] }

/-- Element size in bytes; a ZT6 element is three quarters of a byte (`rowBytes`). -/
def TRec.esize (r : TRec) : Nat := [1, 2, 4, 8, 2, 2, 4, 8, 1, 1, 1].getD r.fmt 1

/-- Bytes of `n` consecutive elements of dimension 0. -/
def TRec.rowBytes (r : TRec) (n : Nat) : Nat := if r.fmt = 9 then n * 3 / 4 else n * r.esize

/-- `n` rounded up to a multiple of 32. -/
def up32 (n : Nat) : Nat := (n + 31) / 32 * 32

/-- R50: is a record malformed? That a nonzero reserved field makes it so is the model's choice (log entry 45): R50 lists none, and
R14 speaks of commands, registers and instruction words. -/
def TRec.bad (r : TRec) (w : List Word) : Bool :=
  10 < r.fmt || r.rank = 0 || 5 < r.rank || bitsAt (nth w 0 0) 56 1 ≠ 0 || bitsAt (nth w 7 0) 48 16 ≠ 0
    || (r.sizes.take r.rank).any (· == 0) || (r.tiles.take r.rank).any (· == 0)
    || (r.sizes.drop r.rank).any (· != 0) || (r.tiles.drop r.rank).any (· != 0) || (r.strides.drop (r.rank - 1)).any (· != 0)
    || (r.strides.take (r.rank - 1)).any (fun x => x % 16 != 0)
    || (r.fmt = 9 && (nth r.sizes 0 0 % 4 ≠ 0 || nth r.tiles 0 0 % 4 ≠ 0))
    || r.base % (if r.fmt = 9 then 16 else r.esize) ≠ 0

/-- Tiles of each dimension below the rank. -/
def TRec.counts (r : TRec) : List Nat :=
  ((r.sizes.zip r.tiles).take r.rank).map (fun p => if p.2 = 0 then 0 else (p.1 + p.2 - 1) / p.2)

/-- Tiles of the whole tensor. -/
def TRec.tileCount (r : TRec) : Nat := r.counts.foldl (· * ·) 1

/-- The index of the `n`-th tile, dimension 0 first. -/
def TRec.tileAt (r : TRec) (n : Nat) : List Nat :=
  (r.counts.foldl (fun (q : List Nat × Nat) c => (q.1 ++ [q.2 % c], q.2 / c)) ([], n)).1

/-- The number of a tile. -/
def TRec.tileNumber (r : TRec) (t : List Nat) : Nat :=
  ((t.zip r.counts).foldl (fun (q : Nat × Nat) p => (q.1 + p.1 * q.2, q.2 * p.2)) (0, 1)).1

/-- Padded bytes of a row, rows and bytes of a tile in scratchpad (R107). -/
def TRec.rb (r : TRec) : Nat := up32 (r.rowBytes (nth r.tiles 0 0))
def TRec.rows (r : TRec) : Nat := ((r.tiles.take r.rank).drop 1).foldl (· * ·) 1
def TRec.tb (r : TRec) : Nat := r.rb * r.rows

/-- The place (j1, j2, …) of a row in a tile. -/
def TRec.rowAt (r : TRec) (n : Nat) : List Nat :=
  (((r.tiles.take r.rank).drop 1).foldl (fun (q : List Nat × Nat) c => (q.1 ++ [q.2 % c], q.2 / c)) ([], n)).1

/-- The elements of dimension 0 that a tile has inside the extents. -/
def TRec.width (r : TRec) (t : List Nat) : Nat := min (nth r.tiles 0 0) (nth r.sizes 0 0 - nth t 0 0 * nth r.tiles 0 0)

/-- The memory row of a tile's row: its virtual address and bytes; none where it lies outside the extents. -/
def TRec.memRow (r : TRec) (t : List Nat) (n : Nat) : Option (Nat × Nat) :=
  let j := r.rowAt n
  let idx := (upto (r.rank - 1)).map (fun k => nth t (k + 1) 0 * nth r.tiles (k + 1) 0 + nth j k 0)
  if (idx.zip (r.sizes.drop 1)).all (fun p => p.1 < p.2) then
    some (r.base + r.rowBytes (nth t 0 0 * nth r.tiles 0 0) + ((idx.zip r.strides).map (fun p => p.1 * p.2)).foldl (· + ·) 0,
      r.rowBytes (r.width t))
  else none

/-- The 4 KiB pages that a byte range touches, as addresses. -/
def pagesOf (va n : Nat) : List Nat :=
  if n = 0 then [] else (upto ((va + n - 1) / 4096 - va / 4096 + 1)).map (fun i => (va / 4096 + i) * 4096)

/-- The pages of a tile. -/
def TRec.pages (r : TRec) (t : List Nat) : List Nat :=
  ((upto r.rows).flatMap (fun n => match r.memRow t n with
    | some p => pagesOf p.1 p.2
    | none => [])).foldl insertNat []

/-- R309: what TRECLD writes for the 64 bytes of a record. R50 has an instruction that is given a malformed record trap with cause 0x11, and
R309 has TRECLD write 1 << 60 for it: the model follows R309, which speaks of this instruction (log entry 25). -/
def trecResult (w : List Word) : Word :=
  let r := TRec.ofWords w
  if r.bad w then BitVec.ofNat 64 (2 ^ 60) else BitVec.ofNat 64 (min r.tileCount (2 ^ 48 - 1))

/-- R108: a memory destination's strides keep element order and address order one. -/
def TRec.descends (r : TRec) : Bool :=
  (upto (r.rank - 1)).any (fun k =>
    decide (nth r.strides k 0 < (if k = 0 then r.rowBytes (nth r.tiles 0 0) else nth r.strides (k - 1) 0 * nth r.tiles k 0)))

end Sys2Proof.Machine
end

