-- ==== Sys2Proof/Machine/Access.lean ====
section
/-! DEFINITION. One lane's access at the place where it is performed (spec/13_memory_instructions.md, R273, R284, R285, R289;
spec/17_launch_scheduling.md, R380): what it does to the bytes, what its register receives, and the race check. -/

namespace Sys2Proof.Machine

/-! ## What an access does -/

/-- Width of an atomic's word (R288). -/
def atomWidth (ty : Nat) : Nat := if ty = 2 || ty = 3 || ty = 5 then 64 else 32

/-- R289: the new word of an atomic; none where a `.cas` fails. -/
def atomicNew (op ty old v sw : Nat) (md : Mode) : Option Nat :=
  let n := atomWidth ty
  let f : Fmt := if ty = 5 then .f64 else .f32
  let flt := ty = 4 || ty = 5
  let sgn := ty = 1 || ty = 3
  match op with
  | 0 => some (if flt then fadd f md old v else (old + v) % 2 ^ n)
  | 1 => some (if flt then fmin f old v else if sgn then (if signedOf n v < signedOf n old then v else old) else min old v)
  | 2 => some (if flt then fmax f old v else if sgn then (if signedOf n old < signedOf n v then v else old) else max old v)
  | 3 => some (old &&& v)
  | 4 => some (old ||| v)
  | 5 => some (old ^^^ v)
  | 6 => some v
  | _ => if old = v then some sw else none

/-- What an access writes, and what its register receives; no result means that it is performed again (R284, R285). -/
structure Effect where
  write : Option Nat
  result : Option Nat
  deriving DecidableEq, Repr

/-- The effect on bytes that hold the number `old`. -/
def AccOp.effect (o : AccOp) (old : Nat) : Effect :=
  match o with
  | .load => ⟨none, some old⟩
  | .store v _ => ⟨some v, some 0⟩
  | .poll e => ⟨none, if old = e then none else some old⟩
  | .waitGe t => ⟨none, if t ≤ old then some old else none⟩
  | .atomic op ty v sw rm => ⟨atomicNew op ty old v sw (Mode.ofCode rm), some old⟩

/-- Does it consume what it reads (R272)? -/
def AccOp.consumes : AccOp → Bool
  | .load => false
  | .store _ _ => false
  | _ => true

/-- Does it write? -/
def AccOp.writes : AccOp → Bool
  | .store _ _ => true
  | .atomic _ _ _ _ _ => true
  | _ => false

/-- The poisoned bytes of the data it stores (R83). -/
def AccOp.bad : AccOp → Nat
  | .store _ b => b
  | _ => 0

/-- The kind of request an access makes (R43, R437). -/
def AccOp.kind : AccOp → ReqKind
  | .store _ _ => .write
  | .atomic _ _ _ _ _ => .atomic
  | _ => .read

/-- Is it a read-modify-write? -/
def AccOp.isAtomic : AccOp → Bool
  | .atomic _ _ _ _ _ => true
  | _ => false

/-! ## What arrives at the registers -/

/-- The registers that `bytes` raw bytes of a lane fill (Table 13.2, R281, R288): a scalar whole, or 32-bit registers from the
first, an element narrower than 32 bits extended. -/
def Form.values (f : Form) (lane raw : Nat) : List (Dest × Word) :=
  if f.count = 0 then []
  else if f.bytes = 64 then
    let w : List Word := (upto 8).map (fun i => BitVec.ofNat 64 (raw / 2 ^ (64 * i) % 2 ^ 64))
    (.s f.reg, trecResult w)
      :: (if (TRec.ofWords w).bad w then [] else (upto 8).map (fun i => (.slot (f.count - 1) i, nth w i 0)))
  else if f.scalar then
    let v : Word := if f.signed then BitVec.ofInt 64 (signedOf (8 * f.bytes) raw) else BitVec.ofNat 64 (raw % 2 ^ (8 * f.bytes))
    [(.s f.reg, v)]
  else
    let w := if f.signed && f.bytes < 4 then wrapInt 32 (signedOf (8 * f.bytes) raw) else raw % 2 ^ (8 * f.bytes)
    (upto f.count).map (fun i => (.v (f.reg + i) lane, BitVec.ofNat 64 (w / 2 ^ (32 * i) % 2 ^ 32)))

/-- The registers that poisoned raw bytes of a lane reach: register `i` is filled from bytes `4i` to `4i + 3`, and what is not such a
register, from every byte (R83). -/
def Form.poisoned (f : Form) (lane bad : Nat) : List Dest :=
  if bad = 0 then []
  else (f.values lane 0).filterMap (fun v => match v.1 with
    | .v r l => if bad / 2 ^ (4 * (r - f.reg)) % 16 = 0 then Option.none else some (.v r l)
    | d => some d)

/-- A result arrives at its producer, with its poisoned bytes; or the access waits to be performed again. A cancelled producer takes
nothing. -/
def State.arrive (s : State) (a : Access) (res : Option Nat) (bad : Nat) : State :=
  if a.prod = 0 then s
  else s.mapThread a.agent (fun t => t.mapProducer a.prod (fun p =>
    match res with
    | none => { p with await := match p.await with
        | .poll l => .poll (l ++ [a])
        | _ => .poll [a] }
    | some v =>
      { p with vals := p.vals ++ p.form.values a.lane v, poison := p.poison ++ p.form.poisoned a.lane bad, left := p.left - 1 }))

/-- A trap that a thread takes at its next word boundary; that of an ended group is reported instead (R391, R275). -/
def State.defer (s : State) (k : Nat) (l : Later) : State :=
  if ((s.launch? (s.thread k).ident.lnum).map (·.killed)).getD false then s
  else s.mapThread k (fun t => { t with later := t.later ++ [l] })

/-- The address a trap reports: that of the lowest lane for an address fault, else 0 (R385). -/
def faultVa (cause va : Nat) : Word := if 6 ≤ cause && cause ≤ 9 then BitVec.ofNat 64 va else 0

/-- A lane fails where it is performed: its producer lands without it (R384). A store without one, which the replay queue has performed,
makes an asynchronous trap (R386). -/
def State.failAcc (s : State) (a : Access) (cause reason : Nat) : State :=
  if a.prod = 0 then s.defer a.agent ⟨cause, reason, 0, maskOf [a.lane], faultVa cause a.va, false, none, none⟩
  else s.mapThread a.agent (fun t => t.mapProducer a.prod (fun p =>
    { p with failed := p.failed ++ [(a.lane, cause, reason, a.va)], left := p.left - 1 }))

/-! ## Levels and races -/

/-- R377: the determinism level of a thread's launch. -/
def State.level (s : State) (t : Thread) : Nat :=
  match t.kind with
  | .group => match s.launch? t.ident.lnum with
    | some l => l.det
    | none => 0
  | .distaff => 0

/-- The block of a launch. -/
def State.block? (s : State) (lnum index : Nat) : Option Block :=
  s.work.blocks.find? (fun b => b.lnum == lnum && b.index == index)

/-- Change a block. -/
def State.mapBlock (s : State) (lnum index : Nat) (f : Block → Block) : State :=
  { s with work := { s.work with
      blocks := s.work.blocks.map (fun b => if b.lnum = lnum && b.index = index then f b else b) } }

/-- R380: an access of a block meets an entry of another block that it is not ordered after. -/
def RaceEnt.conflicts (e : RaceEnt) (line lnum block : Nat) (w sync : Bool) (acq : Nat) : Bool :=
  e.line == line && e.lnum == lnum && e.block != block && (e.w || w) && !(e.sync && sync)
    && !(match e.retired with
      | some t => decide (t < acq)
      | none => false)

/-- Entries of the signature store of a slice (R351). -/
def State.sigCount (s : State) (slice : Nat) : Nat :=
  (s.mem.sigs.filter (fun e => s.sliceOf (128 * e.line) == slice)).length
    + (s.mem.races.filter (fun e => s.sliceOf (128 * e.line) == slice)).length

/-- Entries a store holds (R351). -/
def sigCapacity (slice : Nat) : Nat := if slice = 192 then 16384 else 4096

/-- Drop the oldest retired registration of a slice. -/
def State.dropRetired (s : State) (slice : Nat) : Option State :=
  match placeOf (fun e : RaceEnt => e.retired.isSome && s.sliceOf (128 * e.line) == slice) s.mem.races 0 with
  | some i => some { s with mem := { s.mem with races := dropNth s.mem.races i } }
  | none => none

/-- R380: check an access of a level-2 block and register it: the reason of the race trap, or the state after. -/
def State.register (s : State) (lnum block line : Nat) (w sync : Bool) : Except Nat State :=
  let acq := match s.block? lnum block with
    | some b => b.acqTicket
    | none => 0
  if s.mem.races.any (fun e => e.conflicts line lnum block w sync acq) then .error 1
  else
    let e : RaceEnt := ⟨line, lnum, block, w, sync, none⟩
    if s.mem.races.contains e then .ok s
    else
      let slice := s.sliceOf (128 * line)
      let put (s : State) : State := { s with mem := { s.mem with races := s.mem.races ++ [e] } }
      if s.sigCount slice < sigCapacity slice then .ok (put s)
      else match s.dropRetired slice with
        | some s => .ok (put s)
        | none => .error 2

/-- Check an access of a thread where its launch is at level 2. Staged writes register at their flush. -/
def State.registerAcc (s : State) (a : Access) : Except Nat State :=
  let t := s.thread a.agent
  if s.level t = 2 then s.register t.ident.lnum t.ident.block (a.pa / 128) a.op.writes a.sync else .ok s

/-! ## An access on a line -/

/-- The bytes an access reads of a line. -/
def Access.old (a : Access) (d : BitVec 1024) : Nat := lineBytes d (a.pa % 128) a.size

/-- The line after an access writes. -/
def Access.update (a : Access) (d : BitVec 1024) (v : Nat) : BitVec 1024 := setLineBytes d (a.pa % 128) a.size v

/-- The bytes of the line that an access covers. -/
def Access.mask (a : Access) : BitVec 128 := byteMask (a.pa % 128) a.size

/-- The 8-byte units of the line that an access touches. -/
def Access.units (a : Access) : BitVec 16 := unitMask (unitsOf (a.pa % 128) a.size)

/-- The units it covers completely. -/
def Access.whole (a : Access) : BitVec 16 := unitMask (unitsCovered (a.pa % 128) a.size)

/-- The units into which it stores poisoned bytes. -/
def Access.badUnits (a : Access) : BitVec 16 :=
  unitMask (((upto a.size).filter (fun i => a.op.bad.testBit i)).map (fun i => (a.pa % 128 + i) / 8))

/-- The bytes of the access that lie in poisoned units of its line. -/
def Access.badBytes (a : Access) (p : BitVec 16) : Nat :=
  (upto a.size).foldl (fun n i => if p.getLsbD ((a.pa % 128 + i) / 8) then n + 2 ^ i else n) 0

/-- The bytes a mask selects, from `new`, the others from `old`. -/
def overlay (old new : BitVec 1024) (mask : BitVec 128) : BitVec 1024 :=
  BitVec.ofNat 1024 (ofBytes ((upto 128).map (fun i => if mask.getLsbD i then lineByte new i else lineByte old i)))

/-- What a block has staged in a line. -/
def CLine.staged (l : CLine) (lnum block : Nat) : Option Staged :=
  l.stage.find? (fun g => g.lnum == lnum && g.block == block)

/-- A line as a thread sees it: with the bytes its own block has staged (R378). -/
def CLine.view (l : CLine) (t : Thread) : BitVec 1024 :=
  match t.kind with
  | .group => match l.staged t.ident.lnum t.ident.block with
    | some g => overlay l.data g.data g.mask
    | none => l.data
  | .distaff => l.data

/-- Stage bytes of a block in a line. -/
def CLine.addStage (l : CLine) (lnum block : Nat) (data : BitVec 1024) (mask : BitVec 128) (sync : Bool) : CLine :=
  match l.staged lnum block with
  | some _ => { l with stage := l.stage.map (fun g =>
      if g.lnum = lnum && g.block = block then
        { g with data := overlay g.data data mask, mask := g.mask ||| mask, plain := g.plain || !sync, sync := g.sync || sync }
      else g) }
  | none => { l with stage := l.stage ++ [⟨lnum, block, data, mask, !sync, sync⟩] }

/-- The line's poison after an access writes: whole units are cleared, and poisoned data poisons every unit it reaches (R83). -/
def Access.poisonAfter (a : Access) (p : BitVec 16) : BitVec 16 := (p &&& ~~~a.whole) ||| a.badUnits

end Sys2Proof.Machine
end

