-- ==== Sys2Proof/Machine/Flush.lean ====
section
/-! DEFINITION. How what a block has staged leaves an L1 (spec/17_launch_scheduling.md, R378, R380, R381, R442). -/

namespace Sys2Proof.Machine

/-! ## Tickets -/

/-- Take the next Halyard ticket (R354). -/
def State.takeTicket (s : State) : Nat × State :=
  (s.svc.ticket, { s with svc := { s.svc with ticket := s.svc.ticket + 1 } })

/-- Does a reservation of a far atomic wait for the fallback lock (R359)? It then gives way to the reservations after it (log entry 50). -/
def State.resvHeld (s : State) (r : Resv) : Bool :=
  r.atomic && s.mem.net.any (fun m => (match m.acc with
    | some a => a.ticket == r.ticket && a.agent == r.agent
    | none => false) && s.held m)

/-- The first reservation of a slice (R355: in arrival order, one at a time). -/
def State.firstResv (s : State) (slice : Nat) : Option Resv := s.mem.resv.find? (fun r => r.slice == slice && !(s.resvHeld r))

/-- The determinism level of a launch (R377). -/
def State.levelOf (s : State) (lnum : Nat) : Nat :=
  match s.launch? lnum with
  | some l => l.det
  | none => 0

/-- May the ordered flush of a block take its ticket: every lower-indexed block has ended, and for the first block of a rank the
rank before it? -/
def Launch.mayFlush (l : Launch) (block : Nat) : Bool :=
  (l.ended.filter (fun b => b < block)).length == block - l.bfirst && (block != l.bfirst || l.rank == 0 || l.rankReady)

/-- R442: does a block's ordered flush have to wait? -/
def State.flushWaits (s : State) (g : Staged) : Bool :=
  match s.launch? g.lnum with
  | some l => !(l.mayFlush g.block)
  | none => false

/-! ## Flushing -/

/-- The lines in which a block has staged bytes in a core's L1. -/
def State.stagedLines (s : State) (core lnum block : Nat) : List (Nat × CLine × Staged) :=
  (s.mem.caches.getD core []).filterMap (fun p => (p.2.staged lnum block).map (fun g => (p.1, p.2, g)))

/-- May these lines be written at their homes now, for an instruction of `agent` where one makes the flush, behind every commit and far
atomic that has reserved their slices (R355, R378)? -/
def State.flushReady (s : State) (lines : List (Nat × CLine × Staged)) (agent : Option Nat := none) : Bool :=
  lines.all (fun p =>
    let line := (s.steer (128 * p.1) 0).1 / 128
    !(s.lineBusy line) && (!(s.writeHeld line) || s.holdsLock agent)
      && !(s.mem.resv.any (fun r => r.slice == s.sliceOf (128 * line) && !(s.holdsLock agent && s.resvHeld r))))

/-- Register the writes of a staged line (R380): the reason of a race, or the state after. -/
def State.registerStaged (s : State) (line : Nat) (g : Staged) : Except Nat State :=
  match (if g.plain then s.register g.lnum g.block line true false else .ok s) with
  | .error r => .error r
  | .ok s => if g.sync then s.register g.lnum g.block line true true else .ok s

/-- A flushed line keeps the bytes of a copy that is still there, and no longer stages them. -/
def State.unstage (s : State) (core line : Nat) (g : Staged) : State :=
  match s.cached core line with
  | none => s
  | some l =>
    let rest := l.stage.filter (fun h => !(h.lnum == g.lnum && h.block == g.block))
    if l.stale then (if rest.isEmpty then s.dropLine core line else s.putLine core line { l with stage := rest })
    else s.putLine core line { l with data := overlay l.data g.data (g.mask &&& ~~~l.dirty), stage := rest }

/-- The bytes of one staged line leave the L1 (R378): at level 2 they are checked first, and conflicting bytes are discarded (R381). The
second result is the reason of the first race met. -/
def State.flushLine (s : State) (core lvl : Nat) (p : Nat × CLine × Staged) (race : Nat) : State × Nat :=
  let g := p.2.2
  let home := s.steer (128 * p.1) p.2.1.key
  let line := home.1 / 128
  match (if lvl = 2 then s.registerStaged line g else .ok s) with
  | .error r => (s.unstage core p.1 g, if race = 0 then r else race)
  | .ok s =>
    let s := (s.settle line).mergeLine home.2 line g.data g.mask p.2.1.poison
    (((s.hitSigs line).count (128 * line) true core).unstage core p.1 g, race)

/-- Retire the registrations of a block with a ticket (R380). -/
def State.retire (s : State) (lnum block ticket : Nat) : State :=
  { s with mem := { s.mem with races := s.mem.races.map (fun e =>
      if e.lnum = lnum && e.block = block && e.retired.isNone then { e with retired := some ticket } else e) } }

/-- The staged bytes of some lines leave an L1, under a ticket already taken. -/
def State.flushLines (s : State) (core lvl : Nat) (lines : List (Nat × CLine × Staged)) (race : Nat) : State × Nat :=
  lines.foldl (fun (q : State × Nat) p => q.1.flushLine core lvl p q.2) (s, race)

/-- R378, R442: flush what a block has staged in one L1. A flush without bytes takes a ticket only at level 2, for a release or an end
(`retires`), and for a far atomic, which is performed under it (`atomic`; log entry 26). -/
def State.flushStage (s : State) (core lnum block lvl : Nat) (retires : Bool) (atomic : Bool := false) : State × Nat :=
  let lines := s.stagedLines core lnum block
  if lines.isEmpty && !(lvl == 2 && retires) && !atomic then (s, 0)
  else
    let (ticket, s) := s.takeTicket
    let (s, race) := s.flushLines core lvl lines 0
    (if lvl = 2 && retires then s.retire lnum block ticket else s, race)

/-! ## Evicting a staged line -/

/-- R442, R378: the staged bytes of a line leave because the line is given up for an access of `agent`. While the ordered flush of the
agent's own block waits, or a home cannot take the bytes, they do not. The bytes of other blocks that must wait leave at once in an
immediate flush, whose race the agent's group takes; a race of an ordered flush is left to its block (R381). -/
def State.flushOut (s : State) (core line : Nat) (l : CLine) (agent : Nat) : Option State :=
  let t := s.thread agent
  let own (g : Staged) : Bool := t.kind = .group && g.lnum == t.ident.lnum && g.block == t.ident.block
  if l.stage.any (fun g => own g && s.flushWaits g) || !(s.flushReady (l.stage.map (fun g => (line, l, g))) (some agent)) then none
  else some (l.stage.foldl (fun (s : State) g =>
    let waits := s.flushWaits g
    let (s, race) := (s.takeTicket.2).flushLine core (s.levelOf g.lnum) (line, l, g) 0
    if race = 0 then s
    else if waits then s.defer agent ⟨0x0D, race, 0, (s.thread agent).active, 0, false, none, none⟩
    else s.mapBlock g.lnum g.block (fun b => { b with raced := b.raced <|> some (core, race) })) s)

end Sys2Proof.Machine
end

