-- ==== Sys2Proof/Machine/Network.lean ====
section
/-! DEFINITION. From a core to a home: messages and their way, the L1s and remote-data caches, and where an access is performed
(spec/04_caches_coherence_network.md R80 to R100; Tables 4.1, 4.3b, 4.7, 13.1). -/

namespace Sys2Proof.Machine

/-! ## Messages -/

/-- Requests of Table 4.5, and those of engines, walkers and services, which enter a miss table or a spill queue (R98). -/
def MsgKind.isRequest : MsgKind → Bool
  | .getS => true
  | .getX => true
  | .upg => true
  | .rdU => true
  | .mwb => true
  | .fa => true
  | .putM => true
  | .putE => true
  | .visit => true
  | _ => false

/-- The message class of R97: 0 requests, 1 forwards and snoops, 2 responses. -/
def MsgKind.channel (k : MsgKind) : Nat :=
  if k.isRequest then 0 else match k with
  | .inv => 1
  | .fwdS => 1
  | .fwdX => 1
  | .fwdD => 1
  | .rcl => 1
  | _ => 2

/-- The owner's evictions. -/
def MsgKind.isPut : MsgKind → Bool
  | .putM => true
  | .putE => true
  | _ => false

/-- A message that carries nothing yet. -/
def Msg.plain (kind : MsgKind) (line src dst mid key : Nat) : Msg :=
  { kind := kind, line := line, src := src, dst := dst, mid := mid, key := key, data := 0, mask := 0, poison := 0,
    hasData := false, excl := false, modified := false, acc := none, tx := false, agent := 0, place := .wire, spot := ⟨4, 0, 7, 0⟩, path := [],
    clk := 0, arr := 0, num := 0 }

/-! ## Sites (R94, R96; Table 1.8) -/

/-- The site of a master: its bay, or the host die. -/
def siteOfMaster (mid : Nat) : Nat × Nat :=
  if mid < 192 then (mid / 48, mid % 48)
  else if mid < 256 then (4, 0)
  else if mid < 448 then ((mid - 256) / 48, (mid - 256) % 48)
  else if mid < 640 then ((mid - 448) / 48, (mid - 448) % 48)
  else if mid < 644 then (mid - 640, 48)
  else (4, 0)

/-- The site of a line's home slice. -/
def State.siteOfHome (s : State) (line : Nat) : Nat × Nat :=
  let sl := s.sliceOf (128 * line)
  if sl < 192 then (sl / 48, sl % 48) else (4, 0)

/-- The site of an owner code (Table 4.4; 254 the home, 255 an engine): a remote-data cache stands at the bridge of its line's half, and
sends the requests of its cores from their bays. -/
def State.siteOf (s : State) (line mid code : Nat) (request : Bool) : Nat × Nat :=
  if code = 254 then s.siteOfHome line
  else if code = 255 then siteOfMaster mid
  else if code < 48 then (classOf (128 * line), code)
  else if code < 52 then (if request && mid < 192 && mid / 48 == code - 48 then siteOfMaster mid else (code - 48, bridge line))
  else (4, 0)

/-- The route table of a router. -/
def State.routes (s : State) (die router : Nat) : List Nat := (s.pkg.routers.getD (50 * die + router) (Router.reset router)).table

/-- A message at the end of its way: a request waits to be admitted (R98), any other is received. -/
def Msg.settled (m : Msg) : Msg := { m with place := if m.path.isEmpty && !m.kind.isRequest then .here else .wire }

/-- Send a message from a site on the way that R96 gives it. -/
def State.postFrom (s : State) (site : Nat × Nat) (m : Msg) : State :=
  let goal := if m.src = m.dst then siteOfMaster m.mid else s.siteOf m.line m.mid m.dst false
  let m := Msg.settled { m with spot := ⟨site.1, site.2, 7, 0⟩, path := pathOf s.routes site goal (some m.line) }
  { s with mem := { s.mem with net := s.mem.net ++ [m] } }

/-- Send a message. -/
def State.post (s : State) (m : Msg) : State := s.postFrom (s.siteOf m.line m.mid m.src m.kind.isRequest) m

/-! ## Links (R97) -/

/-- Do two messages wait in one virtual channel at one input? -/
def Msg.sameQueue (m e : Msg) : Bool := e.place = .wire && e.spot == m.spot && e.kind.channel == m.kind.channel

/-- May the message at a place of the list leave its input: it is the first there, and the channel it goes to has a credit? Responses are
always sunk. -/
def State.mayHop (s : State) (i : Nat) (m : Msg) : Bool :=
  match m.path with
  | [] => false
  | h :: r =>
    m.place = .wire && !((s.mem.net.take i).any m.sameQueue)
      && ((r.isEmpty && m.kind.channel == 2)
        || decide ((s.mem.net.filter (fun e =>
            e.place = .wire && e.spot == h.goal && e.kind.channel == m.kind.channel)).length ≤ Config.channelDepth))

/-- The output port that a message asks for, by die, router and port. -/
def Msg.port (m : Msg) : Nat :=
  match m.path with
  | [] => 0
  | h :: _ => (m.spot.die * 64 + m.spot.router) * 8 + h.port

/-- The number of an input and channel at its router. -/
def Spot.input (p : Spot) : Nat := 4 * p.inp + p.vc

/-- The messages that an output port may grant. -/
def State.askers (s : State) (port : Nat) : List Msg :=
  ((upto s.mem.net.length).zip s.mem.net).filterMap (fun p =>
    if !p.2.path.isEmpty && p.2.port == port && s.mayHop p.1 p.2 then some p.2 else none)

/-- How far an input stands behind the one that a port has granted last: round-robin. -/
def roundRobin (last input : Nat) : Nat := (input + 31 - last) % 32

/-- R97: does the message's output port grant it? Responses go before forwards, and these before requests; inputs of one class in turn. -/
def State.granted (s : State) (i : Nat) (m : Msg) : Bool :=
  let ask := s.askers m.port
  let last := s.mem.grants.getD (4 * m.port + m.kind.channel) 31
  s.mayHop i m && ask.all (fun e => decide (e.kind.channel < m.kind.channel)
    || (e.kind.channel == m.kind.channel && decide (roundRobin last m.spot.input ≤ roundRobin last e.spot.input)))

/-- The fills of a cache's line that are on their way untracked or shared. -/
def State.fillsOut (s : State) (mine : Msg → Bool) (line : Nat) : Nat :=
  let fill (m : Msg) : Bool := m.line == line && mine m && (match m.kind with
    | .getS => true
    | .rdU => true
    | .grant => !m.excl
    | _ => false)
  (s.mem.net.filter fill).length + (s.mem.dir.filter (fun d => match d.2.req with
    | some m => fill m
    | none => false)).length

/-- Fills of a cache's line that are on their way carry bytes that are no longer to be installed there (R86, R87). -/
def State.spoilFills (s : State) (cache line : Nat) (mine : Msg → Bool) : State :=
  { s with mem := { s.mem with
      refill := s.mem.refill.filter (fun p => p != (cache, line)) ++ List.replicate (s.fillsOut mine line) (cache, line) } }

/-- A fill comes whose bytes are not installed. -/
def State.takeSpoilt (s : State) (cache line : Nat) : State :=
  match placeOf (fun p : Nat × Nat => p == (cache, line)) s.mem.refill 0 with
  | some i => { s with mem := { s.mem with refill := dropNth s.mem.refill i } }
  | none => s

/-- Are a cache's next fills of a line spoilt? -/
def State.spoilt (s : State) (cache line : Nat) : Bool := s.mem.refill.contains (cache, line)

/-! ## Miss tables and spill queues (R98 to R100) -/

/-- Entries of a miss table (R98). -/
def missEntries (slice : Nat) : Nat := if slice = 192 then 4096 else 256

/-- Entries of a spill queue (R99): the slice of a compute die has 1 MiB in its stack's reserve, the host L2 4 MiB in its own store, at 64
bytes each. -/
def spillEntries (slice : Nat) : Nat := (if slice = 192 then 4 else 1) * 2 ^ 20 / 64

/-- Is a message a request at a slice, in its miss table or its spill queue? -/
def State.waitsAt (s : State) (slice : Nat) (p : Place) (m : Msg) : Bool :=
  m.kind.isRequest && m.place == p && s.sliceOf (128 * m.line) == slice

/-- The entries of a miss table that are taken: by requests that wait, and by those that a transient state serves (R98). -/
def State.missUsed (s : State) (slice : Nat) : Nat :=
  (s.mem.net.filter (s.waitsAt slice .table)).length
    + (s.mem.dir.filter (fun d => d.2.req.isSome && s.sliceOf (128 * d.1) == slice)).length

/-- The requests in a slice's spill queue. -/
def State.spilledAt (s : State) (slice : Nat) : Nat := (s.mem.net.filter (s.waitsAt slice .spill)).length

/-- May a request enter the miss table: an entry is free, and the spill queue is empty? -/
def State.admits (s : State) (slice : Nat) : Bool := s.missUsed slice < missEntries slice && s.spilledAt slice == 0

/-- A request reaches its slice: it enters the miss table, else the spill queue; where that is full too it stays on the link, whose
credit is not returned (R98, R100). One link brings at most one request in a clock (R94). -/
def State.arriveHome (s : State) (i : Nat) (m : Msg) : State :=
  let slice := s.sliceOf (128 * m.line)
  let enter (p : Place) : State := { s with mem := { s.mem with
    net := setNth s.mem.net i { m with place := p, clk := s.mem.sliceClk, arr := s.mem.arrNext }, arrNext := s.mem.arrNext + 1 } }
  let sameClock (e : Msg) : Bool := (e.place = .table || e.place = .spill) && e.spot == m.spot && e.clk == s.mem.sliceClk
  if (s.mem.net.take i).any m.sameQueue || s.mem.net.any sameClock then s
  else if s.admits slice then enter .table
  else if s.spilledAt slice < spillEntries slice then enter .spill
  else s

/-! ## Caches and owner codes -/

/-- Table 4.4: the owner code under which a cache asks for a line: its bay on the home die, its die's remote-data cache, or
its distaff core. -/
def ownerCode (cache line : Nat) : Nat :=
  if cache < 192 then (if classOf (128 * line) = cache / 48 then cache % 48 else 48 + cache / 48)
  else if cache < 256 then 64 + (cache - 192)
  else 48 + (cache - 256)

/-- Is the line homed on the SIMT core's own die? -/
def onDie (core line : Nat) : Bool := classOf (128 * line) == core / 48

/-- The remote-data cache of a SIMT core's die. -/
def rdcOf (core : Nat) : Nat := 256 + core / 48

/-- Mark a home-die L1 that reads untracked (Table 4.4). -/
def Dir.addCsv (d : Dir) (code : Nat) : Dir := if code < 48 then { d with csv := insertNat d.csv (code / 4) } else d

/-- A SIMT core gets an untracked copy of a line: its home marks a core of its own die (Table 4.4), and the remote-data cache of
another die one of that (R87). -/
def State.noteReader (s : State) (core line : Nat) : State :=
  if onDie core line then s.putDir line ((s.dirOf line).addCsv (core % 48))
  else
    let k := 4 * line + core / 48
    { s with mem := { s.mem with rdcVec := s.mem.rdcVec.put k (insertNat (s.mem.rdcVec.getD k []) (core % 48 / 4)) } }

/-- The cores that those vectors name for a line, which a recall made for migration reaches (R30, R87, R90). -/
def State.readersOf (s : State) (line : Nat) : List Nat :=
  let bays (q : List Nat) (die : Nat) : List Nat := q.flatMap (fun v => (upto 4).map (fun b => 48 * die + 4 * v + b))
  bays (s.dirOf line).csv (classOf (128 * line))
    ++ (upto 4).flatMap (fun die => bays (s.mem.rdcVec.getD (4 * line + die) []) die)

/-- The key of a write-back buffer: owner code and line. -/
def bufKey (code line : Nat) : Nat := code + 256 * line

/-- The cache for which a request, or a grant, travels. -/
def Msg.cache (m : Msg) : Nat :=
  let code := if m.kind = .grant then m.dst else m.src
  if code < 48 then 48 * classOf (128 * m.line) + code
  else if code < 52 then m.mid
  else 192 + (code - 64)

/-- The cache that answers for an owner code: a proxied line is held by an L1 of the die (R87). -/
def State.holder (s : State) (line code : Nat) : Nat :=
  if code < 48 then 48 * classOf (128 * line) + code
  else if code < 52 then
    match (upto 48).find? (fun b => match s.cached (48 * (code - 48) + b) line with
      | some l => l.tracked
      | none => false) with
    | some b => 48 * (code - 48) + b
    | none => 256 + (code - 48)
  else 192 + (code - 64)

/-- A clean line of a state. -/
def CLine.clean (data : BitVec 1024) (key : Nat) (st : Moesi) (poison : BitVec 16) : CLine :=
  ⟨data, 0, key, st, poison, [], false, 0, false⟩

/-- Is a line held exclusively? -/
def CLine.exclusive (l : CLine) : Bool := l.st = .E || l.st = .M

/-- A cache's copy of a line, but one of which only staged bytes are left. -/
def State.freshCopy (s : State) (cache line : Nat) : Option CLine :=
  match s.cached cache line with
  | some l => if l.stale then none else some l
  | none => none

/-! ## Passing a remote-data cache (R87, R96, R97) -/

/-- Does a message's next link bring it to the bridge of its own die, on its way to another? -/
def Msg.passesRdc (m : Msg) : Bool :=
  match m.path with
  | h :: _ :: _ => m.mid < 192 && h.goal.die == m.mid / 48 && m.spot.die == h.goal.die && 48 ≤ h.goal.router
  | _ => false

/-- A masked write-back passes the remote-data cache of its die: it updates the copy there, and spoils the fills that it has outrun
(R87, R335). -/
def State.passRdc (s : State) (m : Msg) : State :=
  let rdc := 256 + m.mid / 48
  let s := match s.cached rdc m.line with
    | some l =>
      if l.key = m.key then
        s.putLine rdc m.line { l with
          data := overlay l.data m.data m.mask,
          poison := (l.poison &&& ~~~(unitMask (unitsFull m.mask))) ||| (m.poison &&& unitMask (unitsIn m.mask)) }
      else s.dropLine rdc m.line
    | none => s
  s.spoilFills rdc m.line (fun e => e.src != e.dst && (if e.kind = .grant then e.dst else e.src) == 48 + m.mid / 48)

/-- A read of a core passes the remote-data cache of its die: the grant that answers it, where that holds the line under its key (R87). -/
def State.rdcGrant (s : State) (m : Msg) : Option Msg :=
  match s.cached (rdcOf m.mid) m.line with
  | some l =>
    if l.key = m.key then
      some { Msg.plain .grant m.line m.src m.src m.mid m.key with data := l.data, poison := l.poison, hasData := true, acc := m.acc }
    else none
  | none => none

/-- A message crosses its next link (R96, R97). A masked write-back updates the remote-data cache that it passes, and a read that finds its
line there goes no further. -/
def State.hop (s : State) (i : Nat) (m : Msg) : State :=
  match m.path with
  | [] => s
  | h :: r =>
    if !(s.granted i m) then s
    else
      let s := { s with mem := { s.mem with
        net := dropNth s.mem.net i, grants := s.mem.grants.put (4 * m.port + m.kind.channel) m.spot.input } }
      let on (s : State) : State :=
        { s with mem := { s.mem with net := s.mem.net ++ [Msg.settled { m with spot := h.goal, path := r }] } }
      if m.kind = .mwb && m.passesRdc then on (s.passRdc m)
      else if m.kind = .getS && m.passesRdc then
        match s.rdcGrant m with
        | some g => s.postFrom (h.goal.die, h.goal.router) g
        | none => on s
      else on s

/-! ## Masked write-backs -/

/-- Send a masked write-back of bytes of a SIMT core (R85). -/
def State.sendMwb (s : State) (core line key : Nat) (data : BitVec 1024) (mask : BitVec 128) (poison : BitVec 16)
    (acc : Option Access) : State :=
  { s with mem := { s.mem with mwbNext := s.mem.mwbNext + 1 } }.post { Msg.plain .mwb line (ownerCode core line) 254 core key with
    data := data, mask := mask, poison := poison &&& unitMask (unitsIn mask), hasData := true, acc := acc, num := s.mem.mwbNext + 1 }

/-- Write back the masked dirty bytes of one line of a SIMT core; the copy stays, clean. -/
def State.flushMask (s : State) (core line : Nat) : State :=
  match s.cached core line with
  | some l =>
    if l.dirty = 0 then s
    else (s.putLine core line { l with dirty := 0 }).sendMwb core line l.key l.data l.dirty l.poison none
  | none => s

/-- The lines of a cache. -/
def State.linesIn (s : State) (cache : Nat) : List Nat := (s.mem.caches.getD cache []).map (·.1)

/-- Write back every line of a SIMT core with a nonzero mask (Table 4.3b, release). -/
def State.flushAll (s : State) (core : Nat) : State := (s.linesIn core).foldl (fun s l => s.flushMask core l) s

/-! ## Eviction (R80, R85, R92, R357, R376) -/

/-- Entries of a core's victim tag array (R376). -/
def victimSize : Nat := 2048

/-- R376: the victim tag array records a line that the L1 evicts, with the slot that last touched it; a full one loses its oldest
entry. -/
def Core.recordVictim (c : Core) (line slot : Nat) : Core :=
  let l := c.victims.filter (fun v => v.1 != line) ++ [(line, slot)]
  { c with victims := l.drop (l.length - victimSize) }

/-- R376: a miss whose line the array holds adds 1 to the recorded slot's score. -/
def Core.missed (c : Core) (line : Nat) : Core :=
  match c.victims.find? (fun v => v.1 == line) with
  | some v => { c with
      scores := c.scores.putD 0 v.2 (c.scores.getD v.2 0 + 1), victims := c.victims.filter (fun v => v.1 != line) }
  | none => c

/-- A copy leaves a cache: masked bytes and an owned copy are written back (R85, R92). Staged bytes stay. -/
def State.writeOut (s : State) (cache line : Nat) : State :=
  match s.cached cache line with
  | none => s
  | some l =>
    let s := (if cache < 192 then s.flushMask cache line else s).loseLine cache line
    if l.exclusive || l.st = .O then
      let code := ownerCode cache line
      let s := { s with mem := { s.mem with wbBuf := s.mem.wbBuf.put (bufKey code line) l } }
      s.post { Msg.plain (if l.st = .E then .putE else .putM) line code 254 cache l.key with
        data := l.data, poison := l.poison, hasData := l.st != .E }
    else s

/-- R357: the transactions of a distaff core that hold a line are ended by final(2) when it is evicted. -/
def State.endSpec (s : State) (cache line : Nat) : State :=
  (s.threadsOf cache).foldl (fun (s : State) k =>
    let t := s.thread k
    if t.tx.live && !t.committing && s.mem.sigs.any (fun e => e.agent == k && e.line == line) then s.final k 2 else s) s

/-- A cache evicts a line of which nothing is staged. -/
def State.evictLine (s : State) (cache line : Nat) : State :=
  match s.cached cache line with
  | none => s
  | some l =>
    let s := if cache < 192 then s.mapCore cache (fun c => c.recordVictim line l.toucher) else if l.spec then s.endSpec cache line else s
    s.writeOut cache line

/-- Table 4.3b, acquire: every line not held exclusively is invalidated, after its masked bytes have been written back; what blocks have
staged stays (R378). Fills on their way carry bytes from before the acquire. -/
def State.acquireL1 (s : State) (core : Nat) : State :=
  let mine (m : Msg) : Bool := m.acc.isNone && m.kind != .mwb && m.cache == core
  let asked := ((s.mem.net.filter mine).map (·.line) ++ (s.mem.dir.filter (fun d => match d.2.req with
    | some m => mine m
    | none => false)).map (·.1)).foldl insertNat []
  let s := asked.foldl (fun (s : State) line => s.spoilFills core line mine) (s.flushAll core)
  (s.linesIn core).foldl (fun (s : State) line =>
    match s.cached core line with
    | some l => if l.exclusive || l.stale then s else s.writeOut core line
    | none => s) s

/-! ### Room (R80) -/

/-- Table 4.1: the sets and ways of a cache; the two halves of a remote-data cache stand one after the other. -/
def geometry (cache : Nat) : Nat × Nat := if cache < 192 then (128, 16) else if cache < 256 then (64, 8) else (16384, 16)

/-- The bytes of a cache (Table 4.1). -/
def cacheBytes (cache : Nat) : Nat := (geometry cache).1 * (geometry cache).2 * 128

/-- The set of a line: the manual gives the remote-data cache's half, and no other index (log entry 27). -/
def setOf (cache line : Nat) : Nat := if cache < 256 then line % (geometry cache).1 else line % 2 * 8192 + line / 2 % 8192

/-- The lines of a cache that share a line's set. -/
def State.inSet (s : State) (cache line : Nat) : List (Nat × CLine) :=
  (s.mem.caches.getD cache []).filter (fun p => setOf cache p.1 == setOf cache line)

/-- Has a set a way for a line? -/
def State.hasWay (s : State) (cache line : Nat) : Bool :=
  (s.cached cache line).isSome || decide ((s.inSet cache line).length < (geometry cache).2)

/-- A copy that its cache may give up now: no commit holds it, and no earlier write-back of it is unacknowledged. -/
def State.evictable (s : State) (cache : Nat) (p : Nat × CLine) : Bool :=
  !(s.snoopWaits cache p.1) && !(s.mem.wbBuf.has (bufKey (ownerCode cache p.1) p.1))

/-- One of some lines: replacement order is not architectural (log entry 22). -/
def State.victimOf (s : State) (l : List (Nat × CLine)) : Option (Nat × CLine) := l[Config.victim s.free % l.length]?

/-- R80, R442: a way for a line that an access of `agent` waits for: a free one, or that of a victim. An L1 chooses first among lines that
hold no staged bytes; next among lines staged by the agent's block, or by blocks whose ordered flush may go; and where every way holds
bytes that must wait, any. None while the victim's bytes cannot leave. -/
def State.makeRoom (s : State) (cache line agent : Nat) : Option State :=
  if s.hasWay cache line then some s
  else
    let set := s.inSet cache line
    let t := s.thread agent
    let own (g : Staged) : Bool := t.kind = .group && g.lnum == t.ident.lnum && g.block == t.ident.block
    let out (p : Nat × CLine) (s : State) : State := (s.evictLine cache p.1).tick
    if set.any (fun p => p.2.stage.isEmpty) then
      (s.victimOf (set.filter (fun p => p.2.stage.isEmpty && s.evictable cache p))).map (fun p => out p s)
    else
      let second := set.filter (fun p => p.2.stage.any own || !(p.2.stage.any s.flushWaits))
      match s.victimOf (if second.isEmpty then set else second) with
      | none => none
      | some p => if s.evictable cache p then (s.flushOut cache p.1 p.2 agent).map (out p) else none

/-- R35: the cache's copy of a line under another key is given up before an access under this one. None while it cannot be. -/
def State.clearKey (s : State) (cache line key agent : Nat) : Option State :=
  match s.cached cache line with
  | none => some s
  | some l =>
    if l.key = key then some s
    else if !(s.evictable cache (line, l)) then none
    else if l.stage.isEmpty then some (s.evictLine cache line)
    else (s.flushOut cache line l agent).map (fun s => s.evictLine cache line)

/-! ## Performing an access on a cached line -/

/-- The line of a cache after an access has written: at levels 1 and 2 what a block writes is staged (R378), but for the atomics that an L1
performs on a line it owns; an owner's copy becomes M; an untracked copy's bytes become masked dirty (R85). -/
def State.storeLine (s : State) (cache : Nat) (a : Access) (l : CLine) (v : Nat) (old : BitVec 1024) : State :=
  let line := a.pa / 128
  let t := s.thread a.agent
  let l := { l with poison := a.poisonAfter l.poison }
  let data := a.update old v
  if s.level t != 0 && !(a.op.isAtomic && a.scope == 1) then
    s.putLine cache line (l.addStage t.ident.lnum t.ident.block data a.mask a.sync)
  else if l.tracked then s.putLine cache line { l with data := overlay l.data data a.mask, st := .M }
  else s.putLine cache line { l with data := overlay l.data data a.mask, dirty := l.dirty ||| a.mask }

/-- Perform an access on a cache's copy of its line (R273, R289). A staged write registers at its flush (R380). -/
def State.performAt (s : State) (cache : Nat) (a : Access) (l : CLine) : State :=
  let l1 := decide (cache < 192)
  let l := if l1 then { l with toucher := (s.thread a.agent).ident.slot } else l
  let s := if l1 then s.putLine cache (a.pa / 128) l else s
  let old := l.view (s.thread a.agent)
  let bad := a.badBytes l.poison
  if a.op.consumes && bad != 0 then s.failAcc a 0x10 1
  else match (if a.op.writes && !a.op.isAtomic then Except.ok s else s.registerAcc a) with
    | .error r => s.failAcc a 0x0D r
    | .ok s =>
      let e := a.op.effect (a.old old)
      let s := match e.write with
        | some v => s.storeLine cache a l v old
        | none => s
      s.arrive a e.result bad

/-- An access waits for its line at its core. -/
def State.hold (s : State) (a : Access) : State := { s with mem := { s.mem with pend := s.mem.pend ++ [a] } }

/-- The cache of an access's agent. -/
def State.cacheOf (s : State) (a : Access) : Nat := (s.thread a.agent).cache

/-- The accesses that wait at a cache for a line. -/
def State.waiting (s : State) (cache line : Nat) : List Access :=
  s.mem.pend.filter (fun a => a.pa / 128 == line && s.cacheOf a == cache)

/-- Has a cache asked for a line, and not yet been answered? -/
def State.asked (s : State) (cache line : Nat) : Bool :=
  let ask (m : Msg) : Bool := m.acc.isNone && m.line == line && m.cache == cache && (match m.kind with
    | .getS => true
    | .getX => true
    | .upg => true
    | .rdU => true
    | .grant => true
    | .error => true
    | _ => false)
  s.mem.net.any ask || (match (s.dirOf line).req with
    | some m => ask m
    | none => false)

/-- Ask for an untracked copy for a SIMT core: from its own die's home, or through its remote-data cache (R85, R87). -/
def State.fetchU (s : State) (core : Nat) (a : Access) : State :=
  let line := a.pa / 128
  s.post (if onDie core line then Msg.plain .rdU line (core % 48) 254 a.mid a.key
    else Msg.plain .getS line (48 + core / 48) 254 a.mid a.key)

/-- Ask for a line exclusively: GetX, or Upg from a tracked copy of the requester (R87, R93). -/
def State.fetchX (s : State) (cache : Nat) (a : Access) : State :=
  let line := a.pa / 128
  let code := ownerCode cache line
  let own := match s.cached cache line with
    | some l => l.tracked
    | none => false
  let shared := own || (48 ≤ code && code < 52 && (s.cached (rdcOf cache) line).isSome)
  s.post (Msg.plain (if shared then .upg else .getX) line code 254 a.mid a.key)

/-! ## Where an access goes -/

/-- Does the access need the line exclusively in a cache (Table 4.7, R88)? -/
def Access.needsX (a : Access) (distaff : Bool) : Bool :=
  if distaff then a.op.writes else a.op.isAtomic && a.scope == 1

/-- The bytes of a store, as a write-through of its line. -/
def Access.lineOf (a : Access) : BitVec 1024 :=
  match a.op with
  | .store v _ => a.update 0 v
  | _ => 0

/-- Is the access performed at the home, or at the remote-data cache, and not in the L1 (Tables 4.7 and 13.1)? -/
def Access.wide (a : Access) : Bool :=
  match a.op with
  | .atomic _ _ _ _ _ => 2 ≤ a.scope
  | _ => 1 ≤ a.scope

/-- The store of a wide access, in the core's own untracked copy (R338): an owner's copy is recalled by the write instead. -/
def State.storeOwn (s : State) (core : Nat) (a : Access) : State :=
  match s.freshCopy core (a.pa / 128) with
  | some l =>
    if l.tracked then s
    else s.putLine core (a.pa / 128) { l with data := overlay l.data a.lineOf a.mask, poison := a.poisonAfter l.poison }
  | none => s

/-- R378: a far atomic of levels 1 and 2 takes its place at its slice by its ticket. -/
def State.reserve (s : State) (a : Access) : State :=
  if a.ticket = 0 then s
  else { s with mem := { s.mem with
    resv := s.mem.resv ++ [⟨a.ticket, a.agent, s.sliceOf (s.steer a.pa a.key).1, false, false, true⟩] } }

/-- A wide access of a SIMT core leaves for its place (Tables 4.7 and 13.1). The masked bytes of its line go home before it. -/
def State.sendWide (s : State) (core : Nat) (a : Access) : State :=
  let line := a.pa / 128
  let code := ownerCode core line
  match s.clearKey core line a.key a.agent with
  | none => s.hold a
  | some s =>
    let s := s.flushMask core line
    if a.op.isAtomic then (s.reserve a).post { Msg.plain .fa line code 254 a.mid a.key with acc := some a }
    else if a.op.writes then (s.storeOwn core a).sendMwb core line a.key a.lineOf a.mask a.badUnits (some a)
    else s.post { Msg.plain (if onDie core line then .rdU else .getS) line code 254 a.mid a.key with acc := some a }

/-- R376: a miss of a SIMT core's L1 is scored. -/
def State.scoreMiss (s : State) (cache line : Nat) : State :=
  if cache < 192 then s.mapCore cache (fun c => c.missed line) else s

/-- An access in a cache: performed at once on a fitting copy, else it waits and the line is asked for. A write to a line that another
thread of a distaff core has read or written in its transaction aborts that transaction (R359; log entry 51). -/
def State.sendLocal (s : State) (cache : Nat) (distaff : Bool) (a : Access) : State :=
  let line := a.pa / 128
  match s.clearKey cache line a.key a.agent with
  | none => s.hold a
  | some s =>
    match s.freshCopy cache line with
    | some l =>
      if (a.needsX distaff && !l.exclusive) || (l.tracked && !l.exclusive && a.op.writes) then
        ((if distaff then s else s.flushMask cache line).fetchX cache a).hold a
      else if a.op.writes && s.siblingWaits a.agent cache line then s.hold a
      else if a.op.writes then (s.snoopSpec cache line).performAt cache a l
      else s.performAt cache a l
    | none =>
      let s := s.scoreMiss cache line
      (if a.needsX distaff then s.fetchX cache a
        else if distaff then s.post (Msg.plain .getS line (ownerCode cache line) 254 a.mid a.key)
        else s.fetchU cache a).hold a

/-- R338: an access goes to its place; behind others of its core that wait for the same line, it waits too. -/
def State.send (s : State) (a : Access) : State :=
  let cache := s.cacheOf a
  let distaff := decide ((s.thread a.agent).kind = .distaff)
  if !(s.waiting cache (a.pa / 128)).isEmpty then s.hold a
  else if !distaff && a.wide then s.sendWide cache a
  else s.sendLocal cache distaff a

/-- The accesses that waited for a line go again, in their order. -/
def State.redo (s : State) (cache line : Nat) : State :=
  let w := s.waiting cache line
  let s := { s with mem := { s.mem with
    pend := s.mem.pend.filter (fun a => !(a.pa / 128 == line && s.cacheOf a == cache)) } }
  w.foldl (fun s a => s.send a) s

/-- Accesses that wait at a cache without having asked for their line go again: what they waited for was room, or a flush. -/
def State.retryAccess (s : State) (cache line : Nat) : State := if s.asked cache line then s else s.redo cache line

/-! ## What is outstanding -/

/-- Has the thread an access that has not been performed? -/
def State.unperformed (s : State) (k : Nat) : Bool :=
  s.mem.pend.any (fun a => a.agent == k)
    || s.mem.net.any (fun m => match m.acc with
      | some a => a.agent == k
      | none => false)
    || s.mem.dir.any (fun d => match d.2.req with
      | some m => (match m.acc with
        | some a => a.agent == k
        | none => false)
      | none => false)
    || (s.thread k).producers.any (fun p => p.left != 0 || p.await != .none)

/-- Has a masked write-back not yet reached the bridge of its core's die? -/
def Msg.beforeBridge (m : Msg) : Bool := m.place = .wire && m.spot.die == m.mid / 48 && m.spot.router < 48

/-- The masked write-backs that a release of a core waits for (Table 4.3b): at cluster scope its own, but those of remote lines that
have passed the remote-data cache; from package scope on its own, and what other cores of its die have let its readers see there
(R341). Where a number is given, those sent later do not count. -/
def State.mwbOut (s : State) (core scope : Nat) (agent : Option Nat := none) (upto : Option Nat := none) : Bool :=
  let counts (m : Msg) : Bool := m.kind = .mwb && upto.all (fun n => m.num ≤ n) && !(s.holdsLock agent && s.held m) &&
    (if scope < 2 then m.mid == core && (onDie core m.line || m.beforeBridge)
    else m.mid == core || (m.mid / 48 == core / 48 && !(onDie core m.line) && !m.beforeBridge))
  s.mem.net.any counts || s.mem.dir.any (fun d => match d.2.req with
    | some m => counts m
    | none => false)

/-- The matrix operations and replay entries of a group that are not finished (R268, R346). -/
def State.coreOut (s : State) (k : Nat) : Bool :=
  let t := s.thread k
  match t.kind with
  | .group =>
    let c := s.core t.ident.core
    c.mxq.any (fun j => j.members.contains k) || c.replay.any (fun r => r.agent == k)
  | .distaff => false

/-! ## Requests of engines, walkers and services (R98) -/

/-- How an access that is made at a home without a cache stands: it may be made, it waits, or its request has been lost (R101). -/
inductive Visit where
  | go (s : State)
  | wait (s : State)
  | lost (s : State)

/-- Take a message off the network. -/
def State.takeMsg (s : State) (i : Nat) : State := { s with mem := { s.mem with net := dropNth s.mem.net i } }

/-- An access of a master to a line at its home, without a cache: made at once while the slice admits its request; else it waits for the
request it sends to be admitted (R98). -/
def State.visit (s : State) (mid key line : Nat) : Visit :=
  let mine (k : MsgKind) (m : Msg) : Bool := m.kind = k && m.mid == mid && m.line == line && (m.src == 255 || m.dst == 255)
  match placeOf (mine .error) s.mem.net 0, placeOf (mine .visit) s.mem.net 0 with
  | some i, _ => if s.mem.net.any (fun m => mine .error m && m.place = .here) then .lost (s.takeMsg i) else .wait s
  | none, some i => if s.mem.net.any (fun m => mine .visit m && m.place = .table) then .go (s.takeMsg i) else .wait s
  | none, none =>
    if s.admits (s.sliceOf (128 * line)) then .go s else .wait (s.post (Msg.plain .visit line 255 254 mid key))

/-- Visits of several lines: all are made together. The second state is the one in which it waits. -/
def State.visitAll (mid key : Nat) : List Nat → State → State → Bool → Visit
  | [], s, w, ok => if ok then .go s else .wait w
  | l :: r, s, w, ok =>
    match s.visit mid key l with
    | .go s => State.visitAll mid key r s w ok
    | .lost _ => match w.visit mid key l with
      | .lost w => .lost w
      | _ => .lost w
    | .wait _ => match w.visit mid key l with
      | .wait w => State.visitAll mid key r s w false
      | _ => State.visitAll mid key r s w false

/-- The messages that one state has sent beyond another. -/
def State.sentAfter (w s : State) : List Msg := w.mem.net.drop s.mem.net.length

/-- An access waits: nothing of it has happened but that its requests are on their way. -/
def State.await (s : State) (asks : List Msg) : State := { s with mem := { s.mem with net := s.mem.net ++ asks } }

/-- Visits of the lines of a range of home bytes. -/
def State.visitRange (s : State) (mid key a n : Nat) : Visit := State.visitAll mid key (linesOf a n) s s true

end Sys2Proof.Machine
end

