-- ==== Sys2Proof/Machine/Coherence.lean ====
section
/-! DEFINITION. The coherence protocol event by event (spec/04_caches_coherence_network.md, R81, R85 to R93, R98 to R101): what a
home does with each request and answer (Tables 4.5 and 4.6), and what a requester does with each message it receives. -/

namespace Sys2Proof.Machine

/-! ## The home -/

/-- The request or message of a kind at a place of the network. -/
def State.msgAt (s : State) (i : Nat) (k : MsgKind) : Option Msg :=
  match s.mem.net[i]? with
  | some m => if m.kind = k then some m else none
  | none => none

/-- R89: does request `e` go before request `m`: it came in an earlier clock; or in the same clock with a lower master ID; or earlier? -/
def Msg.before (e m : Msg) : Bool :=
  e.clk < m.clk || (e.clk == m.clk && (e.mid < m.mid || (e.mid == m.mid && e.arr < m.arr)))

/-- Are two requests of one source? -/
def Msg.sameSource (m e : Msg) : Bool := e.src == m.src && e.mid == m.mid

/-- R89: does request `m` wait behind request `e` for its line? One of the same source, in the order sent; else in the order of arrival, in
which an owner's eviction takes no part. -/
def Msg.behind (m e : Msg) : Bool :=
  (m.sameSource e && e.arr < m.arr) || (!e.kind.isPut && !m.kind.isPut && e.kind != .visit && e.before m)

/-- R378: does a far atomic of levels 1 and 2 wait for its ticket's turn at its slice? -/
def State.ticketWaits (s : State) (m : Msg) : Bool :=
  match m.acc with
  | some a =>
    let mine (r : Resv) : Bool := r.ticket == a.ticket && r.atomic && r.slice == s.sliceOf (128 * m.line)
    a.ticket != 0 && s.mem.resv.any mine && (match s.firstResv (s.sliceOf (128 * m.line)) with
      | some r => !(mine r)
      | none => false)
  | none => false

/-- Does a request wait for a ticket, or behind one of its own source and line that does? It then keeps no other source waiting. -/
def State.stalled (s : State) (m : Msg) : Bool :=
  s.ticketWaits m || s.mem.net.any (fun e =>
    e.place = .table && e.line == m.line && e.sameSource m && e.arr < m.arr && s.ticketWaits e)

/-- May the home serve a request now (R89, R31, R355, R361, R378)? Those of one clock are taken together, once it has passed. -/
def State.serveable (s : State) (m : Msg) : Bool :=
  m.place = .table && decide (m.clk < s.mem.sliceClk) && !(s.homeBusy m.line) && !(s.held m) && !(s.ticketWaits m)
    && !(s.mem.net.any (fun e => e.place = .table && e.line == m.line && m.behind e && !(s.held e)
      && (m.sameSource e || !(s.stalled e))))

/-- The owner code under which a cache asks at a line's home, and the kind of its untracked reads there. -/
def Msg.recode (m : Msg) (line : Nat) : Msg :=
  let code := if m.src = 255 then 255 else ownerCode m.cache line
  let kind : MsgKind := match m.kind with
    | .getS => if code < 48 then .rdU else .getS
    | .rdU => if 48 ≤ code && code < 52 then .getS else .rdU
    | k => k
  { m with line := line, src := code, kind := kind }

/-- R31: a request for a line that has moved is forwarded to the new home, with the accesses that wait for it. -/
def State.rehome (s : State) (i : Nat) (m : Msg) (line key : Nat) : State :=
  let move (a : Access) : Access := { a with pa := 128 * line + a.pa % 128, key := key }
  let old := s.siteOfHome m.line
  let s := { s.takeMsg i with mem := { (s.takeMsg i).mem with
    pend := s.mem.pend.map (fun (a : Access) => if m.acc.isNone && a.pa / 128 = m.line && s.cacheOf a = m.cache then move a else a),
    resv := s.mem.resv.map (fun (r : Resv) => match m.acc with
      | some a => if a.ticket ≠ 0 && r.ticket = a.ticket && r.atomic then { r with slice := s.sliceOf (128 * line) } else r
      | none => r) } }
  s.postFrom old { m.recode line with key := key, acc := m.acc.map move }

/-- The sharers an entry tracks, by owner code. -/
def Dir.sharers (d : Dir) : List Nat := d.rsh.map (fun n => 48 + n) ++ d.dsh.map (fun n => 64 + n)

/-- Add a sharer. A SIMT L1 of the home die is tracked only as an owner. -/
def Dir.addSharer (d : Dir) (code : Nat) : Dir :=
  if code < 48 then d
  else if code < 52 then { d with rsh := insertNat d.rsh (code - 48) }
  else { d with dsh := insertNat d.dsh (code - 64) }

/-- No owner and no sharer. -/
def Dir.untracked (d : Dir) : Dir := { d with st := .I, owner := 255, rsh := [], dsh := [], req := none, acks := 0 }

/-- The line is owned by one requester. -/
def Dir.ownedBy (d : Dir) (code : Nat) : Dir := { d.untracked with st := .EM, owner := code }

/-- The answer to a request, with the home's copy of the line or without data. GetX and Upg obtain the line in M (R357). -/
def State.grantMsg (s : State) (m : Msg) (excl withData : Bool) : Msg :=
  { Msg.plain .grant m.line 254 m.src m.mid m.key with
    data := s.homeLine m.key m.line, poison := s.homePoison m.line, hasData := withData, excl := excl,
    modified := excl && m.kind != .getS, acc := m.acc }

/-- Send one kind of message from the home to owner codes. -/
def State.sendTo (s : State) (k : MsgKind) (m : Msg) (codes : List Nat) : State :=
  codes.foldl (fun (s : State) c => s.post (Msg.plain k m.line 254 c m.mid m.key)) s

/-- Update the unmasked bytes of a SIMT core's own copy after it has written at the home (R338, Table 13.1). -/
def State.refreshOwn (s : State) (a : Access) (v : Nat) : State :=
  let c := s.cacheOf a
  match s.cached c (a.pa / 128) with
  | some l =>
    if l.key = a.key && !l.stale then
      s.putLine c (a.pa / 128) { l with
        data := overlay l.data (a.update 0 v) (a.mask &&& ~~~l.dirty), poison := l.poison &&& ~~~(a.whole) }
    else s
  | none => s

/-- Write bytes of an access at its home (R83, R359). -/
def State.writeHome (s : State) (a : Access) (v : Nat) : State :=
  let s := s.setBytes a.key a.pa (toBytes v a.size)
  let s := (s.setPoison (unitsCovered a.pa a.size) false).dirtyHome a.key (a.pa / 128) ((unitsOf a.pa a.size).map (· % 16))
  s.hitSigs (a.pa / 128)

/-- A far atomic has been performed, or has failed: its reservation goes. -/
def State.endFar (s : State) (a : Access) : State :=
  if a.ticket = 0 then s
  else match placeOf (fun r : Resv => r.ticket == a.ticket && r.atomic && r.agent == a.agent) s.mem.resv 0 with
    | some i => { s with mem := { s.mem with resv := dropNth s.mem.resv i } }
    | none => s

/-- A far atomic performed at its home (R93, R289). -/
def State.performFar (s : State) (a : Access) : State :=
  let s := s.endFar a
  if s.memPoisoned a.pa a.size then s.failAcc a 0x10 1
  else match s.registerAcc a with
    | .error r => s.failAcc a 0x0D r
    | .ok s =>
      let old := ofBytes ((upto a.size).map (fun i => (s.homeByte a.key (a.pa + i)).toNat))
      let e := a.op.effect old
      let s := match e.write with
        | some v => (s.writeHome a v).refreshOwn a v
        | none => s
      s.arrive a e.result 0

/-- A load performed at its home, on the data given: the home's, or its owner's. -/
def State.performRead (s : State) (a : Access) (data : BitVec 1024) (poison : BitVec 16) : State :=
  let bad := a.badBytes poison
  if a.op.consumes && bad != 0 then s.failAcc a 0x10 1
  else match s.registerAcc a with
    | .error r => s.failAcc a 0x0D r
    | .ok s => s.arrive a (a.op.effect (a.old data)).result bad

/-- R273: the lanes of one load that read a line read it together: those whose requests are still on their way. -/
def State.siblings (s : State) (a : Access) : List Access :=
  s.mem.net.filterMap (fun m => match m.kind, m.acc with
    | .rdU, some b => if b.agent = a.agent && b.prod = a.prod && b.prod ≠ 0 && b.pa / 128 = a.pa / 128 then some b else none
    | .getS, some b => if b.agent = a.agent && b.prod = a.prod && b.prod ≠ 0 && b.pa / 128 = a.pa / 128 then some b else none
    | _, _ => none)

/-- A load and its siblings are performed on the data of their line, in rising lane order. -/
def State.performReads (s : State) (a : Access) (data : BitVec 1024) (poison : BitVec 16) : State :=
  let l := s.siblings a
  let s := { s with mem := { s.mem with net := s.mem.net.filter (fun m => match m.kind, m.acc with
    | .rdU, some b => !(l.contains b)
    | .getS, some b => !(l.contains b)
    | _, _ => true) } }
  (a :: l).foldl (fun (s : State) b => s.performRead b data poison) s

/-- R85: the home merges a masked write-back, or performs a store written through (Table 13.1). -/
def State.applyMwb (s : State) (m : Msg) : State :=
  match m.acc with
  | none => (s.mergeLine m.key m.line m.data m.mask m.poison).hitSigs m.line
  | some a =>
    match s.registerAcc a with
    | .error r => s.failAcc a 0x0D r
    | .ok s => ((s.mergeLine m.key m.line m.data m.mask m.poison).hitSigs m.line).arrive a (some 0) 0

/-- The untracked read is answered: its access is performed, or the line is sent. -/
def State.answerRead (s : State) (m : Msg) (data : BitVec 1024) (poison : BitVec 16) : State :=
  match m.acc with
  | some a => s.performReads a data poison
  | none => s.post { Msg.plain .grant m.line 254 m.src m.mid m.key with data := data, poison := poison, hasData := true }

/-- A request that missed in the home's cache waits for memory (Table 4.6, MD). -/
def State.toMemory (s : State) (m : Msg) (d : Dir) : State :=
  (s.putDir m.line { d with st := .MD, req := some m }).post (Msg.plain .memData m.line 254 254 m.mid m.key)

/-- GetS (Table 4.5). -/
def State.homeGetS (s : State) (m : Msg) : State :=
  let d := s.dirOf m.line
  match d.st with
  | .I =>
    if !d.resident then s.toMemory m d
    else if 64 ≤ m.src then (s.putDir m.line (d.ownedBy m.src)).post (s.grantMsg m true true)
    else (s.putDir m.line { d.addSharer m.src with st := .S }).post (s.grantMsg m false true)
  | .S => (s.putDir m.line (d.addSharer m.src)).post (s.grantMsg m false true)
  | _ =>
    (s.putDir m.line { d with st := .FS, req := some m, formerO := d.st = .O }).sendTo .fwdS m [d.owner]

/-- GetX and Upg (Table 4.5). An Upg from an agent that is no sharer is a GetX (R90). -/
def State.homeGetX (s : State) (m : Msg) : State :=
  let s := if m.tx then s else s.hitSigs m.line
  let d := s.dirOf m.line
  match d.st with
  | .I => if !d.resident then s.toMemory m d else (s.putDir m.line (d.ownedBy m.src)).post (s.grantMsg m true true)
  | .S =>
    let others := d.sharers.filter (fun c => c != m.src)
    if others.isEmpty then
      (s.putDir m.line (d.ownedBy m.src)).post (s.grantMsg m true !(m.kind = .upg && d.sharers.contains m.src))
    else (s.putDir m.line { d with st := .SI, req := some m, acks := others.length }).sendTo .inv m others
  | _ =>
    let others := d.sharers.filter (fun c => c != m.src)
    ((s.putDir m.line { d with st := .FX, req := some m, acks := others.length + 1 }).sendTo .fwdX m [d.owner]).sendTo
      .inv m others

/-- RdU (Table 4.5). -/
def State.homeRdU (s : State) (m : Msg) : State :=
  let d := s.dirOf m.line
  match d.st with
  | .EM => (s.putDir m.line { d with st := .FD, req := some m, formerO := false }).sendTo .fwdD m [d.owner]
  | .O => (s.putDir m.line { d with st := .FD, req := some m, formerO := true }).sendTo .fwdD m [d.owner]
  | _ =>
    if d.st = .I && !d.resident then s.toMemory m d
    else (s.putDir m.line (d.addCsv m.src)).answerRead m (s.homeLine m.key m.line) (s.homePoison m.line)

/-- The copies that a write at the home recalls (Table 4.5): the sharers but a sending remote-data cache, and the owner. A far
atomic recalls its own remote-data cache too, which does not learn the result. -/
def Dir.recalled (d : Dir) (m : Msg) : List Nat :=
  d.sharers.filter (fun c => !(m.kind = .mwb && d.st = .S && c == m.src))

/-- What remains to be done once every copy has been recalled (Table 4.6, RC). -/
def State.finishRecall (s : State) (line : Nat) (d : Dir) : State :=
  let s := s.putDir line { d.untracked with resident := d.resident && d.req.isSome, dirty := if d.req.isSome then d.dirty else [] }
  match d.req with
  | none => s
  | some m =>
    if m.kind = .mwb then
      let s := s.applyMwb m
      if d.owner = 255 && d.sharers.contains m.src then s.putDir line { ((s.dirOf line).addSharer m.src) with st := .S } else s
    else match m.acc with
      | some a => s.performFar a
      | none => s

/-- MWB and FA (Table 4.5). -/
def State.homeWrite (s : State) (m : Msg) : State :=
  let d := s.dirOf m.line
  let d' := { d with st := .RC, req := some m }
  match d.st with
  | .I =>
    if m.kind = .mwb then s.applyMwb m
    else match m.acc with
      | some a => s.performFar a
      | none => s
  | .S =>
    let l := d.recalled m
    if l.isEmpty then s.finishRecall m.line d' else (s.putDir m.line { d' with acks := l.length }).sendTo .inv m l
  | _ =>
    let l := d.recalled m
    ((s.putDir m.line { d' with acks := l.length + 1 }).sendTo .rcl m [d.owner]).sendTo .inv m l

/-- PutM and PutE (Table 4.5): a Put from another than the owner is acknowledged and its data discarded. -/
def State.homePut (s : State) (m : Msg) : State :=
  let d := s.dirOf m.line
  let s := if d.owner = m.src then
      let s := if m.hasData then s.mergeLine m.key m.line m.data fullMask m.poison else s
      let d := s.dirOf m.line
      if d.st = .O then s.putDir m.line { d with st := .S, owner := 255 } else s.putDir m.line d.untracked
    else s
  s.post (Msg.plain .putAck m.line 254 m.src m.mid m.key)

/-- Ev (Table 4.5): the home gives up a line, recalling every tracked copy: to replace it, for a request under another key (R35), or for
migration. -/
def State.homeEvict (s : State) (line : Nat) : State :=
  let d := s.dirOf line
  let m := Msg.plain .ev line 254 254 647 d.key
  let d' := { d with resident := false, dirty := [] }
  if s.lineMoves line then s
  else match d.st with
    | .I => s.putDir line d'
    | .S =>
      if d.sharers.isEmpty then s.putDir line d'.untracked
      else (s.putDir line { d with st := .RC, req := none, acks := d.sharers.length }).sendTo .inv m d.sharers
    | _ => ((s.putDir line { d with st := .RC, req := none, acks := d.sharers.length + 1 }).sendTo .rcl m [d.owner]).sendTo
        .inv m d.sharers

/-- Is a line held at its home, or by an agent, under another key than a request's (R35)? -/
def Dir.otherKey (d : Dir) (key : Nat) : Bool := (d.resident || d.st != .I) && d.key != key

/-- R357: a transactional request meets the W entry of another live transaction: the one that asks aborts, but for the holder of the
fallback lock. -/
def State.meetsWriter (s : State) (agent line : Nat) : Bool :=
  s.svc.fblHolder ≠ some agent
    && s.mem.sigs.any (fun e => e.line == line && e.w && e.agent != agent && (s.thread e.agent).tx.live)

/-! ### Refusals (R37, R437) -/

/-- Has a request come to a line from the home that the line was migrated from, which has checked it (R31)? -/
def State.broughtBy (s : State) (line key : Nat) : Bool :=
  s.mem.migr.any (fun p => p.2.dst ≤ 128 * line && 128 * line < p.2.dst + (p.2.bound - p.2.src) && p.2.dkey == key)

/-- The reason for which the home refuses a master's request that reaches it (R37): an entry written since the request was made applies to
it (R437), and so does a key replaced since. -/
def State.refusal (s : State) (mid key line : Nat) (k : ReqKind) : Option Nat :=
  if s.broughtBy line key then none
  else if !(entryPermits (s.aclEntry (min (classOf (128 * line)) 4) mid) k (some key)) then some 1
  else if !(s.keyValid key) then some 3 else none

/-- Accesses fail with cause 0x09 where their home refuses them. -/
def State.refuseAccs (s : State) (line : Nat) (l : List Access) : State :=
  l.foldl (fun (s : State) a => match s.refusal a.mid a.key line a.op.kind with
    | some r => s.failAcc a 0x09 r
    | none => s) s

/-- The state after the home has refused a request, or accesses that wait for its line; none where it refuses nothing. A write-back of
masked bytes carries what writes and atomics have left in an L1, so it needs the permission of either; one that is refused changes
nothing and names no lane, and an owner's eviction is not checked (log entry 33). -/
def State.refuse (s : State) (i : Nat) (m : Msg) : Option State :=
  match m.acc with
  | some a => (s.refusal m.mid m.key m.line a.op.kind).map (fun r => ((s.takeMsg i).endFar a).failAcc a 0x09 r)
  | none =>
    if m.kind.isPut || m.kind = .visit then none
    else if m.kind = .mwb then
      (s.refusal m.mid m.key m.line .write).bind (fun _ => (s.refusal m.mid m.key m.line .atomic).map (fun _ => s.takeMsg i))
    else if m.tx then
      (s.refusal m.mid m.key m.line (if m.kind = .getS then .read else .write)).map (fun _ =>
        let t := s.thread m.agent
        if t.tx.live && !t.committing then (s.takeMsg i).final m.agent 6 else s.takeMsg i)
    else
      let w := s.waiting m.cache m.line
      let bad := w.filter (fun a => (s.refusal a.mid a.key m.line a.op.kind).isSome)
      if bad.isEmpty then none
      else
        let s := { s with mem := { s.mem with pend := s.mem.pend.filter (fun a => !(bad.contains a)) } }
        let s := s.refuseAccs m.line bad
        some (if bad.length = w.length then s.takeMsg i else s)

/-- Serve a request of a kind: steer it (R31), recall a line held under another key (R35), then act on it. A message that the home is to
act on as another kind, its line having moved, is named by that kind. -/
def State.serve (s : State) (i : Nat) (k : MsgKind) (f : State → Msg → State) : State :=
  match s.msgAt i k with
  | none => s
  | some m =>
    if !(s.serveable m) then s
    else
      let p := s.steer (128 * m.line) m.key
      if p.1 / 128 ≠ m.line then s.rehome i m (p.1 / 128) p.2
      else match s.refuse i m with
      | some s => s
      | none =>
      if m.tx && s.meetsWriter m.agent m.line then
        (if (s.thread m.agent).tx.live && !(s.thread m.agent).committing then
          (s.takeMsg i).retry m.agent 1 (s.thread m.agent).tx.tm else s.takeMsg i)
      else if !m.kind.isPut && (s.dirOf m.line).otherKey m.key then
        (if (s.dirOf m.line).st = .I then f ((s.homeEvict m.line).takeMsg i) m else s.homeEvict m.line)
      else f (s.takeMsg i) m

/-- A transient state whose last completion has come (Table 4.6). -/
def State.complete (s : State) (line : Nat) : State :=
  let d := s.dirOf line
  match d.st, d.req with
  | .SI, some m => (s.putDir line (d.ownedBy m.src)).post (s.grantMsg m true !(m.kind = .upg && d.sharers.contains m.src))
  | .FX, some m => s.putDir line (d.ownedBy m.src)
  | .RC, _ => s.finishRecall line d
  | _, _ => s

/-- One completion of a transient state arrives. -/
def State.ack (s : State) (line : Nat) : State :=
  let d := s.dirOf line
  let s := s.putDir line { d with acks := d.acks - 1 }
  if d.acks ≤ 1 then s.complete line else s

/-! ### Requests -/

/-- GETS, R90. -/
def execGets (msg : Nat) (s : State) : Out :=
  .next (s.serve msg .getS (fun s m => (s.count (128 * m.line) false m.mid).homeGetS m))

/-- GETX, R90. -/
def execGetx (msg : Nat) (s : State) : Out :=
  .next (s.serve msg .getX (fun s m => (s.count (128 * m.line) true m.mid).homeGetX m))

/-- UPG, R90. -/
def execUpg (msg : Nat) (s : State) : Out :=
  .next (s.serve msg .upg (fun s m => (s.count (128 * m.line) true m.mid).homeGetX m))

/-- RDU, R90. -/
def execRdu (msg : Nat) (s : State) : Out :=
  .next (s.serve msg .rdU (fun s m => (s.count (128 * m.line) false m.mid).homeRdU m))

/-- MWB, R85. -/
def execMwb (msg : Nat) (s : State) : Out :=
  .next (s.serve msg .mwb (fun s m => (s.count (128 * m.line) true m.mid).homeWrite m))

/-- FAR_ATOMIC, R93. -/
def execFarAtomic (msg : Nat) (s : State) : Out :=
  .next (s.serve msg .fa (fun s m => (s.count (128 * m.line) true m.mid).homeWrite m))

/-- PUTM, R90. Which of Table 1.5a's counters a coherence message advances is the model's choice: a PutM, a GetX and an Upg count as writes,
a PutE as nothing, and a walk's or a fetch's read as a read (R26; log entry 28). -/
def execPutm (msg : Nat) (s : State) : Out :=
  .next (s.serve msg .putM (fun s m => (s.count (128 * m.line) true m.mid).homePut m))

/-- PUTE, R90. -/
def execPute (msg : Nat) (s : State) : Out := .next (s.serve msg .putE (fun s m => s.homePut m))

/-! ### Answers -/

/-- An answer of a kind is consumed at once (R89). -/
def State.consume (s : State) (i : Nat) (k : MsgKind) (f : State → Msg → State) : State :=
  match s.msgAt i k with
  | some m => if m.place = .here then f (s.takeMsg i) m else s
  | none => s

/-- Table 4.1: sets of a home's cache, the host L2's banks one after the other; each has twelve ways. -/
def l2Sets (slice : Nat) : Nat := if slice = 192 then 16 * 4096 else 2048
def l2Ways : Nat := 12

/-- The bytes of a home's cache (Table 4.1). -/
def l2Bytes (slice : Nat) : Nat := l2Sets slice * l2Ways * 128

/-- The set of a line at its home: a slice homes one line of every 48 (log entry 27). -/
def l2Set (slice line : Nat) : Nat := if slice = 192 then line % l2Sets slice else line / 48 % l2Sets slice

/-- The resident lines that share a line's set. -/
def State.l2Mates (s : State) (line : Nat) : List Nat :=
  let sl := s.sliceOf (128 * line)
  (s.mem.dir.filter (fun p =>
    p.2.resident && p.1 != line && s.sliceOf (128 * p.1) == sl && l2Set sl p.1 == l2Set sl line)).map (·.1)

/-- Has a home's cache a way for a line? -/
def State.l2Room (s : State) (line : Nat) : Bool := (s.dirOf line).resident || decide ((s.l2Mates line).length < l2Ways)

/-- R81: where the set is full, the home starts to replace one of its lines (log entry 22). -/
def State.makeL2Room (s : State) (line : Nat) : State :=
  if s.l2Room line then s
  else
    let l := (s.l2Mates line).filter (fun x => !(s.lineMoves x) && !(s.mem.locked.contains x))
    match l[Config.victim s.free % l.length]? with
    | some x => (s.homeEvict x).tick
    | none => s

/-- MEMORY_DATA, R91: the line comes into the home's cache, once that has room (R80, R81), and the request goes on in its stable state. -/
def execMemoryData (msg : Nat) (s : State) : Out :=
  .next (match s.msgAt msg .memData with
    | none => s
    | some m =>
      let s := s.makeL2Room m.line
      if !(s.l2Room m.line) then s
      else s.consume msg .memData (fun s m =>
        let d := s.dirOf m.line
        match d.st, d.req with
        | .MD, some r =>
          let s := s.putDir m.line { d with st := .I, req := none, resident := true, key := r.key, dirty := [] }
          (match r.kind with
          | .getS => s.homeGetS r
          | .rdU => s.homeRdU r
          | _ => s.homeGetX r)
        | _, _ => s))

/-- INVACK, R91. -/
def execInvack (msg : Nat) (s : State) : Out := .next (s.consume msg .invAck (fun s m => s.ack m.line))

/-- FWDACK, R91: dirty data goes to the home copy, and the requester becomes a sharer. -/
def execFwdack (msg : Nat) (s : State) : Out :=
  .next (s.consume msg .fwdAck (fun s m =>
    let d := s.dirOf m.line
    match d.st, d.req with
    | .FS, some r =>
      let s := if m.hasData then s.mergeLine m.key m.line m.data fullMask m.poison else s
      let d := (s.dirOf m.line).addSharer r.src
      let d := if m.hasData then { d with st := .O, req := none }
        else { (if m.excl then d.addSharer m.src else d) with st := .S, owner := 255, req := none }
      (s.putDir m.line d).post (s.grantMsg r false true)
    | _, _ => s))

/-- DONE, R91. -/
def execDoneMsg (msg : Nat) (s : State) : Out := .next (s.consume msg .done (fun s m => s.ack m.line))

/-- FWD_DATA_COPY, R91: the reader gets the owner's data, and the owner keeps its state. -/
def execFwdDataCopy (msg : Nat) (s : State) : Out :=
  .next (s.consume msg .fdData (fun s m =>
    let d := s.dirOf m.line
    match d.st, d.req with
    | .FD, some r =>
      (s.putDir m.line { d.addCsv r.src with st := if d.formerO then .O else .EM, req := none }).answerRead r
        (if r.key = m.key && m.hasData then m.data else s.homeLine r.key m.line) m.poison
    | _, _ => s))

/-- RECALL_ACK, R91: the owner's data is merged first. -/
def execRecallAck (msg : Nat) (s : State) : Out :=
  .next (s.consume msg .rcAck (fun s m =>
    (if m.hasData then s.mergeLine m.key m.line m.data fullMask m.poison else s).ack m.line))

/-! ## Requesters -/

/-- The poison of a copy that a fill renews: the fill's, and that of the bytes which stay. -/
def CLine.mixPoison (l : CLine) (poison : BitVec 16) : BitVec 16 :=
  let kept := l.dirty ||| l.stageMask
  (poison &&& ~~~(unitMask (unitsFull kept))) ||| (l.poison &&& unitMask (unitsIn kept))

/-- Fill an L1 with an untracked copy; bytes written meanwhile stay (R85). -/
def State.fillU (s : State) (core line key : Nat) (data : BitVec 1024) (poison : BitVec 16) : State :=
  match s.cached core line with
  | some l =>
    if l.tracked then s
    else s.putLine core line { l with data := overlay data l.data l.dirty, key := key, poison := l.mixPoison poison, stale := false }
  | none => s.putLine core line (CLine.clean data key .U poison)

/-- Fill a cache with an exclusive copy, in M where it was granted so; masked bytes written meanwhile make it M too. An upgrade keeps the
data it has. -/
def State.fillX (s : State) (cache line key : Nat) (data : BitVec 1024) (poison : BitVec 16) (keep modified : Bool) : State :=
  match s.cached cache line with
  | some l =>
    let keep := keep && !l.stale
    let d := if keep then l.data else overlay data l.data l.dirty
    let st : Moesi := if modified || l.st = .O || l.st = .M || l.dirty != 0 then .M else .E
    s.putLine cache line { l with
      data := d, dirty := 0, key := key, st := st, poison := if keep then l.poison else l.mixPoison poison, stale := false }
  | none => s.putLine cache line (CLine.clean data key (if modified then .M else .E) poison)

/-- Put a shared copy into a remote-data or distaff cache that has a way for it. -/
def State.fillS (s : State) (cache line key : Nat) (data : BitVec 1024) (poison : BitVec 16) : State :=
  if s.hasWay cache line then s.putLine cache line (CLine.clean data key .S poison) else s

/-- The data a remote-data cache holds of a line, for an upgrade answered without data. -/
def State.rdcData (s : State) (core line : Nat) (m : Msg) : BitVec 1024 × BitVec 16 :=
  if m.hasData then (m.data, m.poison)
  else match s.cached (rdcOf core) line with
    | some l => (l.data, l.poison)
    | none => (s.homeLine m.key line, s.homePoison line)

/-- The thread for which a cache gets a line: the first that waits for it, or the one that asked. -/
def State.claimant (s : State) (cache : Nat) (m : Msg) : Nat :=
  match s.waiting cache m.line with
  | a :: _ => a.agent
  | [] => m.agent

/-- Does a grant bring a line into an L1, or does it only answer an access? -/
def Msg.fills (m : Msg) : Bool := m.excl || m.acc.isNone

/-- The ways that a grant needs are there, after evictions where they must be (R80); none while it has to wait. -/
def State.grantRoom (s : State) (m : Msg) : Option State :=
  let l1 (s : State) : Option State := if m.fills then s.makeRoom m.cache m.line (s.claimant m.cache m) else some s
  if 48 ≤ m.dst && m.dst < 52 && m.src != m.dst && !m.excl then (s.makeRoom (rdcOf m.mid) m.line m.agent).bind l1 else l1 s

/-- A read's grant at a SIMT core: its access is performed, or its L1 is filled, but with no bytes from before an acquire (R86). -/
def State.grantRead (s : State) (core : Nat) (m : Msg) : State :=
  match m.acc with
  | some a => s.performReads a m.data m.poison
  | none =>
    if s.spoilt core m.line then (s.takeSpoilt core m.line).redo core m.line
    else ((s.fillU core m.line m.key m.data m.poison).noteReader core m.line).redo core m.line

/-- What a grant does at the cache it comes to (R87, R92). -/
def State.takeGrant (s : State) (m : Msg) : State :=
  let line := m.line
  let c := m.cache
  if m.dst < 48 then
    if m.excl then (s.fillX c line m.key m.data m.poison (!m.hasData) m.modified).redo c line else s.grantRead c m
  else if m.dst < 52 then
    if m.excl then
      let d := s.rdcData c line m
      ((s.dropLine (rdcOf c) line).fillX c line m.key d.1 d.2 false m.modified).redo c line
    else
      let s := if m.src = m.dst then s
        else if s.spoilt (rdcOf c) line then s.takeSpoilt (rdcOf c) line
        else s.fillS (rdcOf c) line m.key m.data m.poison
      s.grantRead c m
  else
    (if m.excl then s.fillX c line m.key m.data m.poison (!m.hasData) m.modified else s.fillS c line m.key m.data m.poison).redo c line

/-- The answer that a remote-data cache gives its own core from the copy it holds; no home takes part in it. -/
def Msg.isRdcRead (m : Msg) : Bool := m.src = m.dst && !m.excl

/-- GRANT, R92: the requester fills its cache, performs what waited for the line, and reports Done to the home where the data
came from an owner. A remote-data cache grants an exclusive line to its core's L1 (R87). -/
def execGrant (msg : Nat) (s : State) : Out :=
  .next (match s.msgAt msg .grant with
    | none => s
    | some m =>
      if m.place ≠ .here then s
      else match s.grantRoom m with
        | none => s
        | some s => s.consume msg .grant (fun s m =>
          let s := s.takeGrant m
          if m.src = 254 || m.isRdcRead then s else s.post (Msg.plain .done m.line m.dst 254 m.mid m.key)))

/-- R92: a forward or recall waits while a grant to the agent is in flight. -/
def State.granting (s : State) (m : Msg) : Bool :=
  s.mem.net.any (fun g => g.kind = .grant && g.line == m.line && g.dst == m.dst && !g.isRdcRead)

/-- The copy with which an owner answers: its cached copy, or its write-back buffer (R92). -/
def State.answerCopy (s : State) (m : Msg) : Option (CLine × Bool) :=
  match s.cached (s.holder m.line m.dst) m.line with
  | some l => if l.tracked then some (l, true) else (s.mem.wbBuf.find (bufKey m.dst m.line)).map (fun l => (l, false))
  | none => (s.mem.wbBuf.find (bufKey m.dst m.line)).map (fun l => (l, false))

/-- Is a copy dirty: M or O in a cache; a buffered PutM? -/
def CLine.dirtyCopy (l : CLine) : Bool := l.st = .M || l.st = .O

/-- A forward or recall reaches the owner; it is held while the owner waits for its grant. -/
def State.forwarded (s : State) (i : Nat) (k : MsgKind) (f : State → Msg → Option (CLine × Bool) → State) : State :=
  match s.msgAt i k with
  | none => s
  | some m =>
    let c := s.holder m.line m.dst
    if m.place ≠ .here || s.granting m || s.snoopWaits c m.line then s
    else
      let s := (s.takeMsg i).snoopSpec c m.line
      f s m (s.answerCopy m)

/-- INV, R92: a sharer drops its copy and acknowledges. -/
def execInvMsg (msg : Nat) (s : State) : Out :=
  .next (s.forwarded msg .inv (fun s m _ =>
    (s.loseLine (if m.dst < 52 then 256 + (m.dst - 48) else s.holder m.line m.dst) m.line).post
      (Msg.plain .invAck m.line m.dst 254 m.mid m.key)))

/-- FWDS, R92: dirty data goes home and the owner keeps the line in O; a clean owner keeps a shared copy. -/
def execFwds (msg : Nat) (s : State) : Out :=
  .next (s.forwarded msg .fwdS (fun s m o =>
    let c := s.holder m.line m.dst
    let ack := Msg.plain .fwdAck m.line m.dst 254 m.mid m.key
    match o with
    | none => s.post ack
    | some (l, held) =>
      let s :=
        if !held then s
        else if l.dirtyCopy then s.putLine c m.line { l with st := .O }
        else if c < 192 then
          let s := (s.putLine c m.line { l with st := .U }).noteReader c m.line
          if m.dst < 48 then s else s.fillS (rdcOf c) m.line l.key l.data l.poison
        else s.putLine c m.line { l with st := .S }
      s.post { ack with key := l.key, data := l.data, poison := l.poison, hasData := l.dirtyCopy, excl := held }))

/-- FWDX, R92: the owner sends the line to the requester and drops its copy. -/
def execFwdx (msg : Nat) (s : State) : Out :=
  .next (s.forwarded msg .fwdX (fun s m o =>
    match (s.dirOf m.line).req with
    | none => s
    | some r =>
      let g := { Msg.plain .grant m.line m.dst r.src r.mid r.key with
        hasData := true, excl := true, modified := true, acc := r.acc }
      match o with
      | none => s.post { g with data := s.homeLine r.key m.line, poison := s.homePoison m.line }
      | some (l, held) =>
        let s := if held then s.loseLine (s.holder m.line m.dst) m.line else s
        if l.key = r.key && (l.dirtyCopy || held) then s.post { g with data := l.data, poison := l.poison }
        else
          let s := if l.dirtyCopy then s.writeBack m.line l else s
          s.post { g with data := s.homeLine r.key m.line, poison := s.homePoison m.line }))

/-- FWDD, R92: a copy of the data for an untracked read. -/
def execFwdd (msg : Nat) (s : State) : Out :=
  .next (s.forwarded msg .fwdD (fun s m o =>
    let g := Msg.plain .fdData m.line m.dst 254 m.mid m.key
    match o with
    | none => s.post g
    | some (l, held) => s.post { g with key := l.key, data := l.data, poison := l.poison, hasData := l.dirtyCopy || held }))

/-- RCL, R92: the owner writes back and drops its copy. -/
def execRclMsg (msg : Nat) (s : State) : Out :=
  .next (s.forwarded msg .rcl (fun s m o =>
    let g := Msg.plain .rcAck m.line m.dst 254 m.mid m.key
    match o with
    | none => s.post g
    | some (l, held) =>
      (if held then s.loseLine (s.holder m.line m.dst) m.line else s).post
        { g with key := l.key, data := l.data, poison := l.poison, hasData := l.dirtyCopy }))

/-- PUTACK, R92: the write-back buffer is freed. -/
def execPutack (msg : Nat) (s : State) : Out :=
  .next (s.consume msg .putAck (fun s m =>
    { s with mem := { s.mem with wbBuf := s.mem.wbBuf.del (bufKey m.dst m.line) } }))

/-! ## Spills and errors -/

/-- SPILL_RETURN, R99: the oldest spilled request of its slice returns to the miss table as an entry frees. -/
def execSpillReturn (msg : Nat) (s : State) : Out :=
  .next (
    match s.mem.net[msg]? with
    | some m =>
      let slice := s.sliceOf (128 * m.line)
      if m.place = .spill && !(s.mem.net.any (fun e => s.waitsAt slice .spill e && e.arr < m.arr))
          && decide (s.missUsed slice < missEntries slice) then
        { s with mem := { s.mem with net := setNth s.mem.net msg { m with place := .table } } }
      else s
    | none => s)

/-- R101: an uncorrectable error destroys a spilled request, which the slice answers with an error response (`excl` there marks an owner's
eviction). A lost write-back leaves its bytes poisoned at the home. -/
def State.loseSpill (s : State) (i : Nat) : State :=
  match s.mem.net[i]? with
  | some m =>
    if m.place ≠ .spill then s
    else
      let s := if m.kind = .mwb then s.poisonUnits m.line (unitsIn m.mask) else s
      let s := match m.acc with
        | some a => s.endFar a
        | none => s
      (s.takeMsg i).post { m with kind := .error, src := 254, dst := m.src, excl := m.kind.isPut }
  | none => s

/-- The accesses of a cache that wait for a line fail (R101). -/
def State.failWaiting (s : State) (cache line : Nat) : State :=
  let lost := s.waiting cache line
  let s := { s with mem := { s.mem with pend := s.mem.pend.filter (fun a => !(lost.contains a)) } }
  lost.foldl (fun s a => s.failAcc a 0x10 3) s

/-- ERROR_RESPONSE, R101: the requesting lanes raise cause 0x10 with reason 3, and a transaction ends by final(6) (R362). A lost eviction
is sent again from its buffer; an engine finds its answer when it next moves. -/
def execErrorResponse (msg : Nat) (s : State) : Out :=
  .next (match s.msgAt msg .error with
    | none => s
    | some m =>
      if m.dst = 255 then s
      else s.consume msg .error (fun s m =>
        if m.excl then
          (match s.mem.wbBuf.find (bufKey m.dst m.line) with
          | some l => s.post { Msg.plain (if l.st = .E then .putE else .putM) m.line m.dst 254 m.mid l.key with
              data := l.data, poison := l.poison, hasData := l.st != .E }
          | none => s)
        else match m.acc with
          | some a => s.failAcc a 0x10 3
          | none =>
            if m.tx then (if (s.thread m.agent).tx.live && !(s.thread m.agent).committing then s.final m.agent 6 else s)
            else if m.hasData then s
            else s.failWaiting (Msg.cache { m with src := m.dst }) m.line))

end Sys2Proof.Machine
end

