-- ==== Sys2Proof/Machine/Mreg.lean ====
section
/-! DEFINITION. The registers of home class 6 (spec/01_memory_and_homes.md, R36, R37, R437): who may reach them, and their values. -/

namespace Sys2Proof.Machine

/-- A register of Table 1.11. -/
inductive Mreg where
  /-- An entry of one of the ten access tables. -/
  | entry (table index : Nat)
  /-- `DBG.STOP` of a core. -/
  | stop (core : Nat)
  deriving DecidableEq, Repr

/-- R437: the register an access of `n` bytes names, with the die that carries it; none where the access is unbacked. -/
def State.mregOf (s : State) (pa : Word) (n : Nat) (k : ReqKind) : Option (Nat × Mreg) :=
  let die := bitsAt pa 40 3
  let block := bitsAt pa 32 8
  let off := bitsAt pa 0 32
  if k = .atomic || bitsAt pa 62 2 ≠ 0 || bitsAt pa 49 3 ≠ s.ownPkg || bitsAt pa 43 3 ≠ 0 || 4 < die then none
  else if block ≤ 1 then (if n = 4 && off % 4 = 0 && off < 16384 then some (die, .entry (5 * block + die) (off / 4)) else none)
  else if 0x10 ≤ block && block < 0x40 && die < 4 && n = 8 && off = 0 then some (die, .stop (48 * die + (block - 0x10)))
  else none

/-- Does a physical address word name home class 6? -/
def isMmio (pa : Word) : Bool := bitsAt pa 46 3 == 6

/-- R402: the partition of the die that carries a block; the host die belongs to none. -/
def State.partOfBlock (s : State) (die : Nat) : Option Nat := if die < 4 then s.partOfDie die else none

/-- R37, R437: the refusal of a class 6 access, or its register. Class 6 carries no key. -/
def State.mmioAdmit (s : State) (mid : Nat) (k : ReqKind) (pa : Word) (n : Nat) : Except Nat Mreg :=
  match s.mregOf pa n k with
  | none => .error 2
  | some (die, r) =>
    let e := s.aclEntry (5 + die) mid
    if s.crossesBoundary mid (s.partOfBlock die) then .error 4
    else if !(entryPermits e k none) then .error 1
    else match r, k with
      | .entry _ _, .write => if mid = 645 || mid = 647 then .ok r else .error 1
      | .stop _, .write => if e.testBit 5 then .ok r else .error 1
      | _, _ => .ok r

/-- The value of a register. -/
def State.mregRead (s : State) (r : Mreg) : Nat :=
  match r with
  | .entry t m => s.aclEntry t m
  | .stop c => (s.core c).dbgStop

/-- The bits of an access-table entry that are not reserved (Table 1.9). -/
def aclMask : Nat := 0xFFFC003F

/-- The slots of a core that hold a resident group. -/
def State.residentSlots (s : State) (core : Nat) : Nat :=
  (upto 32).foldl (fun n sl => match (s.thread (groupKey core sl)).status with
    | .vacant => n
    | .ended => n
    | _ => n + 2 ^ sl) 0

/-- Write a register: reserved bits of an entry stay zero; a debug stop is requested for resident groups alone. -/
def State.mregWrite (s : State) (r : Mreg) (v : Nat) : State :=
  match r with
  | .entry t m => { s with mem := { s.mem with acl := s.mem.acl.putD 0 (4096 * t + m) (v % 2 ^ 32 &&& aclMask) } }
  | .stop c => s.mapCore c (fun x => { x with dbgStop := x.dbgStop ||| (v % 2 ^ 32 &&& s.residentSlots c) })

/-- A master's write of a register: nothing changes where it is refused. -/
def State.mmioWrite (s : State) (mid : Nat) (pa : Word) (n v : Nat) : State :=
  match s.mmioAdmit mid .write pa n with
  | .ok r => s.mregWrite r v
  | .error _ => s

end Sys2Proof.Machine
end

