-- ==== Sys2Proof/Machine/Translate.lean ====
section
/-! DEFINITION. Address translation (spec/02_translation.md, R38 to R48, R53 to R55): the TLBs, the walk, the checks of a leaf,
and the removal of translations. -/

namespace Sys2Proof.Machine

/-! ## Who asks -/

/-- An address space and who translates in it: the structures in lookup order (Table 2.7), the walkers' die (4: the host die)
and the master under which table entries are read (R42). -/
structure Space where
  root : Word
  asid : Nat
  priv : Bool
  chain : List Nat
  die : Nat
  walker : Nat
  deriving DecidableEq, Repr

/-- The lookup order of a SIMT core's lanes and fetches. -/
def simtChain (core : Nat) : List Nat := [core, 512 + core / 48, 520 + core / 48]

/-- The lookup order of a distaff core. -/
def distaffChain (dc : Nat) : List Nat := [600 + dc, 700 + dc / 16]

/-- The space of a control thread. -/
def Thread.space (t : Thread) : Space :=
  match t.kind with
  | .group => ⟨t.xltRoot, bitsAt t.xltAsid 0 16, t.priv, simtChain t.ident.core, dieOf t.ident.core, 640 + dieOf t.ident.core⟩
  | .distaff => ⟨t.xltRoot, bitsAt t.xltAsid 0 16, t.priv, distaffChain t.ident.core, 4, 192 + t.ident.core⟩

/-- The space in which an engine of a core works for a command: the tensor walker's lookups (Table 2.7). -/
def engineSpace (core : Nat) (root : Word) (asid : Nat) (priv : Bool) : Space :=
  ⟨root, asid, priv, [256 + core, 520 + dieOf core], dieOf core, 640 + dieOf core⟩

/-- The space of a die's PME (Table 2.7). -/
def pmeSpace (die : Nat) (root : Word) (asid : Nat) (priv : Bool) : Space := ⟨root, asid, priv, [520 + die], die, 640 + die⟩

/-! ## Entries -/

/-- Bytes that an entry of a level maps (Table 2.3). -/
def levelSize (l : Nat) : Nat := 2 ^ (12 + 9 * l)

/-- Does an entry serve an address of an address space? A draining entry never does (R53). -/
def TlbEntry.covers (e : TlbEntry) (asid va : Nat) : Bool :=
  !e.draining && (e.leaf.getLsbD 8 || e.asid == asid) && va / levelSize e.level == e.vbase / levelSize e.level

/-- The entries of a structure. -/
def State.tlb (s : State) (place : Nat) : List TlbEntry := s.xlt.tlbs.getD place []

/-- Write a structure. -/
def State.setTlb (s : State) (place : Nat) (l : List TlbEntry) : State :=
  { s with xlt := { s.xlt with tlbs := s.xlt.tlbs.putD [] place l } }

/-- Table 2.7: entries of a structure. -/
def tlbSize (place : Nat) : Nat :=
  if place < 192 then 256 else if place < 512 then 512 else if place < 520 then 2048 else if place < 600 then 8192
  else if place < 700 then 128 else 1024

/-- Entries leave a structure. Those of a core's L1 TLB are remembered: bytes written through them may still be in its L1 (R54, R55). -/
def State.dropEntries (s : State) (place : Nat) (gone : TlbEntry → Bool) : State :=
  let l := s.tlb place
  let s := s.setTlb place (l.filter (fun e => !(gone e)))
  if place < 192 && l.any gone then
    let p := (l.filter gone).foldl (fun p e => if p.contains e then p else p ++ [e]) (s.xlt.past.getD place [])
    { s with xlt := { s.xlt with past := s.xlt.past.put place p } }
  else s

/-- Add an entry; a full structure drops its oldest one. -/
def State.fillTlb (s : State) (e : TlbEntry) (place : Nat) : State :=
  let l := s.tlb place
  if l.contains e then s
  else
    let s := if l.length < tlbSize place then s else match l with
      | o :: _ => s.dropEntries place (fun x => x == o)
      | [] => s
    s.setTlb place (s.tlb place ++ [e])

/-- The entry that serves an address, and the structures above the one that holds it. -/
def State.findTlb (s : State) (asid va : Nat) : List Nat → List Nat → Option (TlbEntry × List Nat)
  | _, [] => none
  | above, p :: r =>
    match (s.tlb p).find? (fun e => e.covers asid va) with
    | some e => some (e, above)
    | none => s.findTlb asid va (above ++ [p]) r

/-- R46: a hit at a lower level fills every level above it. -/
def State.touch (s : State) (e : TlbEntry) (above : List Nat) : State := above.foldl (fun s p => s.fillTlb e p) s

/-- R52: an entry that refused an access is discarded from the structures that serve the core or engine. -/
def State.discardTlb (s : State) (e : TlbEntry) (chain : List Nat) : State :=
  chain.foldl (fun (s : State) p => s.dropEntries p (fun f => f == e)) s

/-! ## Walking -/

/-- A word of memory that a walker reads (R42), or why it cannot: a denial is cause 0x09, a poisoned entry cause 0x10. A word of home
class 6 is a register's (R437). -/
def State.readEntry (s : State) (walker : Nat) (pa : Word) : Except (Nat × Nat) Word :=
  if isMmio pa then
    (match s.mmioAdmit walker .read pa 8 with
    | .error r => .error (0x09, r)
    | .ok r => .ok (BitVec.ofNat 64 (s.mregRead r)))
  else match s.vet walker .read pa with
  | .error r => .error (0x09, r)
  | .ok a =>
    if s.peekPoison a 8 then .error (0x10, 1) else .ok (BitVec.ofNat 64 (ofBytes (s.peek a (keyOf pa) 8)))

/-- R40: is a valid entry of a level malformed? -/
def entryMalformed (l : Nat) (e : Word) : Bool :=
  bitsAt e 62 2 != 0
    || (if e.getLsbD 1 then l == 4 || bitsAt e 12 (9 * l) != 0 else l == 0)

/-- The physical address word of the entry of a table of level `l` for an address. -/
def entryAt (table : Word) (l va : Nat) : Word :=
  BitVec.ofNat 64 (bitsAt table 12 50 * 2 ^ 12 + 8 * (va / levelSize l % (if l = 4 then 256 else 512)))

/-- What a walk finds: the leaf, the pointers it read, and the entries' physical address words. -/
structure Found where
  leaf : TlbEntry
  pointers : List TlbEntry
  reads : List Word
  deriving DecidableEq, Repr

/-- R39, R40, R42: walk from a table. `n` levels lie at or below it, level `n - 1` first. -/
def State.walkFrom (s : State) (walker asid va : Nat) : Nat → Word → List TlbEntry → List Word → Except (Nat × Nat) Found
  | 0, _, _, _ => .error (0x07, 3)
  | l + 1, table, ps, rs =>
    let at_ := entryAt table l va
    match s.readEntry walker at_ with
    | .error e => .error e
    | .ok w =>
      let e : TlbEntry := ⟨asid, l, va / levelSize l * levelSize l, w, false, 0⟩
      if !(w.getLsbD 0) then .error (0x07, 1)
      else if entryMalformed l w then .error (0x07, 3)
      else if w.getLsbD 1 then .ok ⟨e, ps, rs ++ [at_]⟩
      else s.walkFrom walker asid va l w (ps ++ [e]) (rs ++ [at_])

/-- The deepest pointer that a walk cache holds for an address; a walk without one begins at the root. -/
def State.cachedPointer (s : State) (die asid va : Nat) : Option TlbEntry :=
  let l := (s.xlt.wcache.getD die []).filter (fun e => e.asid == asid && va / levelSize e.level == e.vbase / levelSize e.level)
  [1, 2, 3, 4].findSome? (fun n => l.find? (fun e => e.level == n))

/-- Walk for an address, from the walk cache's pointer or the root. -/
def State.walk (s : State) (die walker asid : Nat) (root : Word) (va : Nat) : Except (Nat × Nat) Found :=
  match s.cachedPointer die asid va with
  | some e => s.walkFrom walker asid va e.level e.leaf [] []
  | none => s.walkFrom walker asid va 5 root [] []

/-- Keep the pointers of a walk, the newest 512 (Table 2.7). -/
def State.cachePointers (s : State) (die : Nat) (ps : List TlbEntry) : State :=
  let l := s.xlt.wcache.getD die []
  let l := l ++ ps.filter (fun e => !(l.contains e))
  { s with xlt := { s.xlt with wcache := s.xlt.wcache.putD [] die (l.drop (l.length - 512)) } }

/-- The coherent reads of a walk (R42), with their snoops and counts (R360, R26). -/
def State.countReads (s : State) (mid : Nat) (pas : List Word) : State :=
  pas.foldl (fun (s : State) pa => match s.home pa with
    | some a => s.readAt a (keyOf pa) 8 mid
    | none => s) s

/-- The visits that a walk's reads make at their homes (R98). -/
def State.walkVisits (s : State) (mid : Nat) (pas : List Word) : Visit :=
  State.visitAll mid 0 (pas.filterMap (fun pa => (s.home pa).map (fun a => (s.steer a 0).1 / 128))) s s true

/-- The lines of the entries a walk would read are free. -/
def State.walkReady (s : State) (die walker asid : Nat) (root : Word) (va : Nat) : Bool :=
  let pas := match s.walk die walker asid root va with
    | .ok f => f.reads
    | .error _ => []
  pas.all (fun pa => match s.home pa with
    | some a => !(s.lineBusy ((s.steer a 0).1 / 128)) && !(s.windowHeld pa)
    | none => true)

/-! ## Checks -/

/-- R43, steps 3 to 6: the first check of a leaf that an access fails. Which reason an atomic has through a leaf with `Rd` and `W`
both clear is the model's choice: reason 1 (log entry 29). -/
def leafFault (leaf : Word) (priv : Bool) (k : ReqKind) : Option (Nat × Nat) :=
  let rd := leaf.getLsbD 2
  let wr := leaf.getLsbD 3
  let writes := k = .write || k = .atomic
  if !priv && !(leaf.getLsbD 5) then some (0x08, 4)
  else if (k = .read || k = .atomic) && !rd then some (0x08, 1)
  else if writes && !wr then some (0x08, 2)
  else if k = .fetch && !(leaf.getLsbD 4) then some (0x08, 3)
  else if !(leaf.getLsbD 6) then some (0x07, 4)
  else if writes && !(leaf.getLsbD 7) then some (0x07, 5)
  else none

/-- The physical address word that a leaf gives an address. -/
def TlbEntry.word (e : TlbEntry) (va : Nat) : Word := BitVec.ofNat 64 (bitsAt e.leaf 12 50 * 2 ^ 12 + va % levelSize e.level)

/-- R61: does an address lie in a registered range of an address space? -/
def State.inSparse (s : State) (asid va : Nat) : Bool :=
  s.svc.regions.any (fun p => p.2.asid == asid && p.2.base ≤ va && va < p.2.base + p.2.len)

/-- What translation answers for one address. -/
inductive Look where
  /-- A physical address word, through an entry and past the structures to fill; none with translation disabled. -/
  | ok (pa : Word) (via : Option (TlbEntry × List Nat))
  /-- A failed check, and the entry that failed it. -/
  | fail (cause reason : Nat) (via : Option TlbEntry)
  | miss
  deriving DecidableEq, Repr

/-- R272, R43: the checks of an access of `n` bytes in their order, up to the target's own. R272 gives reason 6 of cause 0x07 no place: the
model puts it after address form and alignment, before the sparse ranges (log entry 30). -/
def State.look (s : State) (x : Space) (k : ReqKind) (va : Word) (n : Nat) : Look :=
  let a := va.toNat
  let enabled := x.root.getLsbD 0
  if !enabled && x.priv then (if a % n ≠ 0 then .fail 0x06 0 none else .ok va none)
  else if 2 ^ 56 ≤ a then .fail 0x07 2 none
  else if a % n ≠ 0 then .fail 0x06 0 none
  else if !enabled then .fail 0x07 6 none
  else if s.inSparse x.asid a then .fail 0x08 5 none
  else match s.findTlb x.asid a [] x.chain with
    | none => .miss
    | some (e, above) =>
      match leafFault e.leaf x.priv k with
      | some (c, r) => .fail c r (some e)
      | none => .ok (e.word a) (some (e, above))

/-- R46, R52: what the lookup leaves in the TLBs. A failed check discards the entry, from the walk-ahead TLB of the core too. -/
def Look.settle (l : Look) (x : Space) (s : State) : State :=
  match l with
  | .ok _ (some (e, above)) => s.touch e above
  | .fail _ _ (some e) =>
    s.discardTlb e (x.chain ++ x.chain.filterMap (fun p => if p < 192 then some (256 + p) else none))
  | _ => s

/-! ## Walks in flight -/

/-- The fault of a walk that a thread has to take for an address. -/
def State.walkFault (s : State) (agent asid va : Nat) : Option WalkFault :=
  s.xlt.faults.find? (fun f => f.agent == agent && f.asid == asid && f.vpage == va / 4096)

/-- A thread has taken what its walks brought. -/
def State.dropFaults (s : State) (agent : Nat) : State :=
  { s with xlt := { s.xlt with faults := s.xlt.faults.filter (fun f => !(f.agent == agent)) } }

/-- R47: does a walk in flight serve an address: its 4 KiB page, or the leaf that it will find? -/
def State.walkServes (s : State) (w : Walk) (x : Space) (va : Nat) : Bool :=
  w.place == x.die && w.asid == x.asid && (w.vpage == va / 4096 ||
    (match s.walk w.place w.mid w.asid w.root (4096 * w.vpage) with
    | .ok f => va / levelSize f.leaf.level == f.leaf.vbase / levelSize f.leaf.level
    | .error _ => false))

/-- The walkers of a die (Table 2.7), and the misses that its last-level TLB queues for them (R47). -/
def walkers (place : Nat) : Nat := if place = 4 then 16 else 64
def walkQueue : Nat := 2048

/-- The walks of a die. -/
def State.walksOf (s : State) (place : Nat) : List Walk := s.xlt.walks.filter (fun w => w.place == place)

/-- R47: ask for a walk, or wait for the one in flight on the die. While the queue is full the miss waits where it is. -/
def State.startWalk (s : State) (agent : Nat) (x : Space) (va : Nat) : State :=
  if s.xlt.walks.any (fun w => s.walkServes w x va) then
    { s with xlt := { s.xlt with walks := s.xlt.walks.map (fun w =>
        if s.walkServes w x va then { w with waiters := insertNat w.waiters agent } else w) } }
  else if walkers x.die + walkQueue ≤ (s.walksOf x.die).length then s
  else
    { s with xlt := { s.xlt with walks := s.xlt.walks ++ [⟨x.die, x.asid, va / 4096, x.root, x.walker, [agent]⟩] } }

/-- The structures that a walk fills for a waiting thread. -/
def Walk.fills (w : Walk) (s : State) : List Nat := w.waiters.flatMap (fun k => (s.thread k).space.chain)

/-- Has a walk reached a walker: fewer walks of its die than there are walkers came before it (R47)? -/
def State.walkTurn (s : State) (walk : Nat) (w : Walk) : Bool :=
  ((s.xlt.walks.take walk).filter (fun v => v.place == w.place)).length < walkers w.place

/-- What a walk that has been made leaves: its reads, the walk cache, and the structures to fill. -/
def State.walked (s : State) (place mid : Nat) (f : Found) (fills : List Nat) : State :=
  ((s.countReads mid f.reads).cachePointers place f.pointers).touch f.leaf fills

/-- WALK_COMPLETE, R47: the walk is made on the table as it stands; its waiters take the entry, or the fault. It waits while a
line it reads is being served at its home, or admits no request; a lost request ends it with cause 0x10, reason 3 (R101). -/
def execWalkComplete (walk : Nat) (s : State) : Out :=
  .next (match s.xlt.walks[walk]? with
    | none => s
    | some w =>
      let va := 4096 * w.vpage
      let gone (s : State) : State := { s with xlt := { s.xlt with walks := dropNth s.xlt.walks walk } }
      let failed (s : State) (c r : Nat) : State :=
        { s with xlt := { s.xlt with faults := s.xlt.faults ++ w.waiters.map (fun k => ⟨k, w.asid, w.vpage, c, r⟩) } }
      if !(s.walkTurn walk w) || !(s.walkReady w.place w.mid w.asid w.root va) then s
      else match s.walk w.place w.mid w.asid w.root va with
        | .error (c, r) => failed (gone s) c r
        | .ok f => match s.walkVisits w.mid f.reads with
          | .wait s => s
          | .lost s => failed (gone s) 0x10 3
          | .go s => (gone s).walked w.place w.mid f (w.fills s))

/-- An engine or service translates. A miss walks at once and its entry is kept, where a walker is free for it and no walk in flight serves
the address; else it waits (R47). -/
def State.lookNow (s : State) (x : Space) (k : ReqKind) (va : Word) (n : Nat) : Look × State :=
  match s.look x k va n with
  | .miss =>
    if s.xlt.walks.any (fun w => s.walkServes w x va.toNat) || walkers x.die ≤ (s.walksOf x.die).length
        || !(s.walkReady x.die x.walker x.asid x.root va.toNat) then (.miss, s)
    else (match s.walk x.die x.walker x.asid x.root va.toNat with
    | .error (c, r) => (.fail c r none, s)
    | .ok f => match s.walkVisits x.walker f.reads with
      | .wait s => (.miss, s)
      | .lost s => (.fail 0x10 3 none, s)
      | .go s =>
        let s := s.walked x.die x.walker f x.chain
        match leafFault f.leaf.leaf x.priv k with
        | some (c, r) => (.fail c r (some f.leaf), Look.settle (.fail c r (some f.leaf)) x s)
        | none => (.ok (f.leaf.word va.toNat) (some (f.leaf, [])), s))
  | l => (l, l.settle x s)

/-! ## Removing translations -/

/-- The invalidation descriptor (Table 2.9). -/
structure InvDesc where
  kind : Nat
  first : Nat
  asid : Nat
  count : Nat
  bad : Bool
  deriving DecidableEq, Repr

/-- Read the descriptor from its two registers. -/
def InvDesc.ofWords (a b : Word) : InvDesc :=
  let kind := bitsAt a 62 2
  { kind := kind, first := bitsAt a 12 44, asid := bitsAt b 48 16, count := bitsAt b 0 32,
    bad := bitsAt a 56 6 != 0 || bitsAt a 0 12 != 0 || bitsAt b 32 16 != 0
      || ((kind == 1 || kind == 2) && bitsAt b 0 32 == 0) }

/-- R53: does the descriptor match an entry, by address space and leaf span? -/
def InvDesc.hits (d : InvDesc) (e : TlbEntry) : Bool :=
  let g := e.leaf.getLsbD 8
  let span := e.vbase < 4096 * (d.first + d.count) && 4096 * d.first < e.vbase + levelSize e.level
  match d.kind with
  | 0 => !g && e.asid == d.asid
  | 1 => !g && e.asid == d.asid && span
  | 2 => span
  | _ => true

/-- Mark an entry draining where it matches and is not draining yet. -/
def InvDesc.mark (d : InvDesc) (num : Nat) (e : TlbEntry) : TlbEntry :=
  if d.hits e && !e.draining then { e with draining := true, inval := num } else e

/-- Mark the translation of an access. -/
def InvDesc.markAcc (d : InvDesc) (num : Nat) (a : Access) : Access := { a with via := a.via.map (d.mark num) }

/-- Mark the translation of a message's access. -/
def InvDesc.markMsg (d : InvDesc) (num : Nat) (m : Msg) : Msg := { m with acc := m.acc.map (d.markAcc num) }

/-- Mark the translation of a page that the root-of-trust processor holds. -/
def InvDesc.markProducer (d : InvDesc) (num : Nat) (p : Producer) : Producer :=
  match p.await with
  | .rot page via => { p with await := .rot page (via.map (d.mark num)) }
  | _ => p

/-- Mark the translations a command holds, those of coming tiles among them (R53). -/
def InvDesc.markCmd (d : InvDesc) (num : Nat) (c : Cmd) : Cmd :=
  { c with via := c.via.map (d.mark num), ahead := c.ahead.map (fun h => { h with via := h.via.map (d.mark num) }) }

/-- Mark every matched entry and every access in flight through one. -/
def State.drain (s : State) (d : InvDesc) (num : Nat) : State :=
  { s with
    xlt := { s.xlt with tlbs := s.xlt.tlbs.map (fun p => (p.1, p.2.map (d.mark num))), wcache := [] },
    mem := { s.mem with
      pend := s.mem.pend.map (d.markAcc num), net := s.mem.net.map (d.markMsg num),
      dir := s.mem.dir.map (fun p => (p.1, { p.2 with req := p.2.req.map (d.markMsg num) })) },
    svc := { s.svc with cmds := s.svc.cmds.map (d.markCmd num) },
    work := { s.work with
      threads := s.work.threads.map (fun p => (p.1, { p.2 with
        producers := p.2.producers.map (d.markProducer num), tx := { p.2.tx with pages := p.2.tx.pages.map (d.mark num) } })),
      cores := s.work.cores.map (fun p => (p.1, { p.2 with
        windows := p.2.windows.map (fun w => { w with reqs := w.reqs.map (d.markAcc num) }),
        rqcWait := p.2.rqcWait.map (d.markAcc num) })) } }

/-- The cores whose L1 TLB holds, or has held, an entry the descriptor matches. -/
def State.holdsMatched (s : State) (d : InvDesc) : List Nat :=
  (upto 192).filter (fun c => (s.tlb c).any d.hits || (s.xlt.past.getD c []).any d.hits)

/-- R53: live transactions that translated through a matched entry abort with cause 6. -/
def State.abortMatched (s : State) (d : InvDesc) : State :=
  (s.work.threads.map (·.1)).foldl (fun (s : State) k =>
    let t := s.thread k
    if t.tx.live && !t.committing && t.tx.pages.any d.hits then s.final k 6 else s) s

/-- The number after an invalidation number: 2^32 - 1 is followed by 1. -/
def nextInval (n : Nat) : Nat := if 2 ^ 32 - 1 ≤ n then 1 else n + 1

/-- R53: accept an invalidation. -/
def State.invalidate (s : State) (d : InvDesc) : State :=
  let num := nextInval s.xlt.invalNum
  let cores := s.holdsMatched d
  let s := s.drain d num
  State.abortMatched { s with xlt := { s.xlt with
    invalNum := num, invals := s.xlt.invals ++ [⟨num, cores, none⟩], invalWrapped := s.xlt.invalWrapped || num < s.xlt.invalNum,
    past := (s.xlt.past.map (fun p => (p.1, p.2.filter (fun e => !(d.hits e))))).filter (fun p => !p.2.isEmpty) } } d

/-- Was an access translated through an entry that an invalidation matched? -/
def Access.drains (num : Nat) (a : Access) : Bool :=
  match a.via with
  | some e => e.draining && e.inval == num
  | none => false

/-- Does a command hold a translation that an invalidation matched? -/
def Cmd.drains (num : Nat) (c : Cmd) : Bool := (c.via ++ c.ahead.filterMap (·.via)).any (fun e => e.draining && e.inval == num)

/-- Has a commit under way buffered a write that was translated through a matched entry? -/
def Thread.commitDrains (num : Nat) (t : Thread) : Bool :=
  t.tx.live && t.committing && t.tx.pages.any (fun e => e.draining && e.inval == num)

/-- Is such an access still to be performed, or its write still to be applied? -/
def State.draining (s : State) (num : Nat) : Bool :=
  let msg (m : Msg) : Bool := match m.acc with
    | some a => a.drains num
    | none => false
  s.mem.pend.any (Access.drains num) || s.mem.net.any msg || s.svc.cmds.any (Cmd.drains num)
    || s.mem.dir.any (fun p => match p.2.req with
      | some m => msg m
      | none => false)
    || s.work.threads.any (fun p => p.2.commitDrains num || p.2.producers.any (fun q => match q.await with
      | .rot _ (some e) => e.draining && e.inval == num
      | _ => false))
    || s.work.cores.any (fun p =>
      p.2.rqcWait.any (Access.drains num) || p.2.windows.any (fun w => w.reqs.any (Access.drains num)))

/-- The number of invalidations between two numbers, counting back from the latest. -/
def invalsBack (latest n : Nat) : Nat := if n ≤ latest then latest - n else latest + (2 ^ 32 - 1) - n

/-- R54: what TINVC answers. -/
def State.invalAnswer (s : State) (a : Word) : Nat :=
  let n := a.toNat
  let back := invalsBack s.xlt.invalNum n
  if n = 0 || 2 ^ 32 ≤ n || s.xlt.invalNum = 0 || 2 ^ 31 ≤ back || (s.xlt.invalNum < n && !s.xlt.invalWrapped) then 2
  else if s.xlt.invals.any (fun i => back ≤ invalsBack s.xlt.invalNum i.num) then 0 else 1

end Sys2Proof.Machine
end

