-- ==== Sys2Proof/Machine/Stage.lean ====
section
/-! DEFINITION. Stages and their flushes (spec/17_launch_scheduling.md, R378, R380, R442), releases and acquires
(spec/04_caches_coherence_network.md Table 4.3b; spec/13_memory_instructions.md R283, R291; R439). -/

namespace Sys2Proof.Machine

/-! ## Immediate flushes -/

/-- What the current word's immediate flush did: the reason of a race trap, 0 for none; none where it has to wait. `atomic`: far atomics of
the word are performed under its ticket. -/
def State.immediate (s : State) (retires : Bool) (atomic : Bool := false) : Option (State × Nat) :=
  let t := s.th
  let lvl := s.level t
  if lvl = 0 then some (s, 0)
  else if s.flushReady (s.stagedLines t.ident.core t.ident.lnum t.ident.block) (some s.work.cur) then
    some (s.flushStage t.ident.core t.ident.lnum t.ident.block lvl retires atomic)
  else none

/-- Has the current thread's block staged bytes in any of these lines (R378)? -/
def State.touchesStage (s : State) (lines : List Nat) : Bool :=
  let t := s.th
  s.level t != 0 && (s.stagedLines t.ident.core t.ident.lnum t.ident.block).any (fun p => lines.contains p.1)

/-! ## Releases -/

/-- A release begins: the masked bytes of the core's L1 are written back, once; what its groups write meanwhile it does not wait for. -/
def State.beginRelease (s : State) : State × Nat :=
  match s.th.wait with
  | .release n => (s, n)
  | _ =>
    let s := s.flushAll s.th.ident.core
    (s.mapTh (fun t => { t with wait := .release s.mem.mwbNext }), s.mem.mwbNext)

/-- A release by the current thread at a scope (R283, R291, Table 4.3b): every earlier access performed, the masked bytes of the
L1 written back, no replay entry left, at levels 1 and 2 the stage flushed. `some race` when it is complete. -/
def State.release (s : State) (scope : Nat) : State × Option Nat :=
  let k := s.work.cur
  let t := s.th
  if s.unperformed k || s.coreOut k then (s, none)
  else match t.kind with
    | .distaff => (s, some 0)
    | .group =>
      if scope = 0 then (s, some 0)
      else
        let (s, n) := s.beginRelease
        if s.mwbOut t.ident.core scope (some k) (some n) then (s, none)
        else match s.immediate (2 ≤ scope) with
          | some (s, race) => (s.mapTh (fun t => { t with wait := .none }), some race)
          | none => (s, none)

/-- A race that an immediate flush has found is raised on its group before the word that made the flush is performed (R381,
R386: an asynchronous trap); with none the word is performed. -/
def State.unlessRace (s : State) (race : Nat) (f : State → Res) : Res :=
  if race = 0 then f s else .moved (s.trapHere 0x0D race)

/-- A word that does its work after a release at a scope. -/
def State.afterRelease (s : State) (scope : Nat) (f : State → Res) : Res :=
  match s.release scope with
  | (s, none) => .stay s
  | (s, some race) => s.unlessRace race f

/-- A word that does its work after an immediate flush. -/
def State.afterFlush (s : State) (f : State → Res) (atomic : Bool := false) : Res :=
  match s.immediate false atomic with
  | none => .stay s
  | some (s, race) => s.unlessRace race f

/-! ## Acquires -/

/-- The core whose instruction cache a thread fetches through: a SIMT core, or 192 + n for distaff core n (R439). -/
def Thread.icache (t : Thread) : Nat := t.mid

/-- Discard an instruction cache. -/
def State.dropIcache (s : State) (c : Nat) : State :=
  s.mapCore c (fun x => { x with icache := [] })

/-- R380: the acquire ticket of a thread's block. -/
def State.stampAcquire (s : State) (t : Thread) (scope : Nat) : State :=
  if scope < 2 || s.level t ≠ 2 then s
  else s.mapBlock t.ident.lnum t.ident.block (fun b => { b with acqTicket := s.svc.ticket })

/-- R118: the collector's open window opened before this acquire of the group. -/
def State.staleWindow (s : State) (core slot : Nat) : State :=
  s.mapCore core (fun x => if x.windows.any (fun w => !w.issued) then { x with stale := insertNat x.stale slot } else x)

/-- The acquire action of a thread at a scope (Table 4.3b, R439). -/
def State.acquire (s : State) (k scope : Nat) : State :=
  let t := s.thread k
  let s := if 2 ≤ scope then (s.dropIcache t.icache).stampAcquire t scope else s
  match t.kind with
  | .distaff => s
  | .group => if scope = 0 then s else (s.acquireL1 t.ident.core).staleWindow t.ident.core t.ident.slot

/-- May the acquire action of a thread be made now? At levels 1 and 2 its block's stage has to leave first (R378). -/
def State.acquireReady (s : State) (k scope : Nat) : Bool :=
  let t := s.thread k
  scope = 0 || s.level t = 0 || s.flushReady (s.stagedLines t.ident.core t.ident.lnum t.ident.block) (some k)

/-- The acquire action with the immediate flush before it; a race is raised on the group. -/
def State.acquireNow (s : State) (k scope : Nat) : State :=
  let t := s.thread k
  let lvl := s.level t
  if scope = 0 || lvl = 0 then s.acquire k scope
  else
    let (s, race) := s.flushStage t.ident.core t.ident.lnum t.ident.block lvl false
    let s := s.acquire k scope
    if race = 0 then s else s.defer k ⟨0x0D, race, 0, (s.thread k).active, 0, false, none, none⟩

/-- Has the thread an acquire that has not landed? No later access is performed before it (R283, R339). -/
def Thread.acqPending (t : Thread) : Bool := t.producers.any (fun p => p.order.acq)

end Sys2Proof.Machine
end

