-- ==== Sys2Proof/Machine/Mmio.lean ====
section
/-! DEFINITION. Home class 6 (spec/01_memory_and_homes.md, R437): the writes of access tables and debug blocks, and the debug stop. -/

namespace Sys2Proof.Machine

/-- ACCESS_TABLE_WRITE, R437: a write of an access-table entry through class 6. -/
def execAccessTableWrite (mid : Nat) (pa : BitVec 64) (value : BitVec 32) (s : State) : Out :=
  .next (if isMmio pa then
    (match s.mmioAdmit mid .write pa 4 with
    | .ok (.entry t m) => s.mregWrite (.entry t m) value.toNat
    | _ => s) else s)

/-- DBG_STOP, R437: a write of a debug block's stop register. -/
def execDbgStop (mid : Nat) (pa : BitVec 64) (value : BitVec 64) (s : State) : Out :=
  .next (if isMmio pa then
    (match s.mmioAdmit mid .write pa 8 with
    | .ok (.stop c) => s.mregWrite (.stop c) value.toNat
    | _ => s) else s)

/-- DEBUG_TRAP, R382: a group whose stop is requested takes cause 0x13 at its next word boundary, resuming as an asynchronous
trap does (R386). -/
def execDebugTrap (agent : Nat) (s : State) : Out :=
  .next (
    let t := s.thread agent
    let c := t.ident.core
    if isGroupKey agent && (s.core c).dbgStop.testBit t.ident.slot && t.status = .running && t.wait.idle then
      (s.mapCore c (fun x => { x with dbgStop := x.dbgStop &&& (2 ^ 32 - 1 - 2 ^ t.ident.slot) })).trap agent
        ⟨0x13, 0, 0, t.active, 0, false, t.here⟩
    else s)

end Sys2Proof.Machine
end

