-- ==== Sys2Proof/Machine/Lanes.lean ====
section
/-! DEFINITION. The lanes of a memory word (spec/13_memory_instructions.md, R272, R273): the requests, their translation and the
target's own checks. -/

namespace Sys2Proof.Machine

/-- Where a checked lane goes: bytes of home memory under a key, or a register of home class 6. -/
inductive Target where
  | mem (addr key : Nat)
  | reg (r : Mreg)
  deriving DecidableEq, Repr

/-- What the checks of one lane decide (R272). -/
inductive Fate where
  | good (t : Target)
  | fail (cause reason : Nat)
  | miss
  deriving DecidableEq, Repr

/-- A lane with its lookup and its fate. -/
structure Resolved where
  req : LaneReq
  look : Look
  fate : Fate
  deriving DecidableEq, Repr

/-- The target's own checks (R37, R437). -/
def State.target (s : State) (mid : Nat) (k : ReqKind) (pa : Word) (n : Nat) : Fate :=
  if isMmio pa then
    match s.mmioAdmit mid k pa n with
    | .ok r => .good (.reg r)
    | .error r => .fail 0x09 r
  else
    match s.vet mid k pa with
    | .ok a => .good (.mem a (keyOf pa))
    | .error r => .fail 0x09 r

/-- R272: the checks of one lane. A lookup that misses takes the fault of a finished walk, or waits for one. -/
def State.resolve (s : State) (agent mid : Nat) (x : Space) (q : LaneReq) : Resolved :=
  let l := s.look x q.op.kind q.va q.size
  match l with
  | .ok pa _ => ⟨q, l, s.target mid q.op.kind pa q.size⟩
  | .fail c r _ => ⟨q, l, .fail c r⟩
  | .miss => match s.walkFault agent x.asid q.va.toNat with
    | some f => ⟨q, l, .fail f.cause f.reason⟩
    | none => ⟨q, l, .miss⟩

/-- The lanes of a word, resolved for a thread. -/
def State.resolveAll (s : State) (k : Nat) (qs : List LaneReq) : List Resolved :=
  qs.map (s.resolve k (s.thread k).mid (s.thread k).space)

/-- Does a lane wait for a walk? -/
def Resolved.waits (r : Resolved) : Bool := r.fate = .miss

/-- Start the walks that lanes wait for (R47). -/
def State.startWalks (s : State) (k : Nat) (rs : List Resolved) : State :=
  (rs.filter Resolved.waits).foldl (fun (s : State) r => s.startWalk k (s.thread k).space r.req.va.toNat) s

/-- The lookups leave their marks in the TLBs, and finished walks' faults are taken (R46, R47, R52). -/
def State.settleLooks (s : State) (k : Nat) (rs : List Resolved) : State :=
  (rs.foldl (fun (s : State) r => r.look.settle (s.thread k).space s) s).dropFaults k

/-- The translation a lane used. -/
def Resolved.via (r : Resolved) : Option TlbEntry :=
  match r.look with
  | .ok _ (some (e, _)) => some e
  | _ => none

/-- Is a lane checked and good? -/
def Resolved.isGood (r : Resolved) : Bool :=
  match r.fate with
  | .good _ => true
  | _ => false

/-- Causes 0x07 with reasons 1 to 6 and 0x08 with reasons 1 to 4 park, or enter the replay queue (Table 18.1). -/
def parks (cause reason : Nat) : Bool := (cause == 7 && reason ≤ 6) || (cause == 8 && reason ≤ 4)

/-- A lane's cause, reason and address, where it fails with one that is not parked. -/
def Resolved.failure (r : Resolved) : Option (Nat × Nat × Nat × Nat) :=
  match r.fate with
  | .fail c e => if parks c e then none else some (r.req.lane, c, e, r.req.va.toNat)
  | _ => none

/-- Does a lane park? -/
def Resolved.isParked (r : Resolved) : Bool :=
  match r.fate with
  | .fail c e => parks c e
  | _ => false

/-- R384: the one trap of a word whose lanes failed (lane, cause, reason, address), in rising lane order: cause and reason of the
lowest, the lanes with that cause, and `MORE`. The address is that lane's for an address fault (R385). -/
def failRes (s : State) (fs : List (Nat × Nat × Nat × Nat)) : Res :=
  match fs with
  | [] => .done s
  | (_, c, r, va) :: _ =>
    let same := fs.filter (fun f => f.2.1 == c)
    .lanes s c r (maskOf (same.map (·.1))) (faultVa c va) (same.length != fs.length)

/-- Insert a failed lane in rising lane order. -/
def insertFail (l : List (Nat × Nat × Nat × Nat)) (f : Nat × Nat × Nat × Nat) : List (Nat × Nat × Nat × Nat) :=
  l.filter (fun g => g.1 < f.1) ++ f :: l.filter (fun g => f.1 < g.1)

end Sys2Proof.Machine
end

