-- ==== Sys2Proof/Machine/Tx.lean ====
section
/-! DEFINITION. Transactions (spec/16_transactions.md, R350 to R361; spec/14_engine_sync_system_instructions.md, R317 to R322):
transactional accesses, the commit sequence, and the fallback lock. -/

namespace Sys2Proof.Machine

/-! ## Signatures -/

/-- R351: mark a line read or written by a transaction; none where the slice has no free entry. -/
def State.mark (s : State) (agent line : Nat) (r w : Bool) : Option State :=
  let put (l : List Sig) : State := { s with mem := { s.mem with sigs := l } }
  if s.mem.sigs.any (fun e => e.agent == agent && e.line == line) then
    some (put (s.mem.sigs.map (fun e =>
      if e.agent = agent && e.line = line then { e with r := e.r || r, w := e.w || w } else e)))
  else if s.sigCount (s.sliceOf (128 * line)) < sigCapacity (s.sliceOf (128 * line)) then
    some (put (s.mem.sigs ++ [⟨line, agent, r, w⟩]))
  else none

/-! ## A lane's log and buffer (R352) -/

/-- The word addresses that a table of bytes holds for a lane. -/
def laneWords (t : Tab Byte) (lane : Nat) : List Nat :=
  (t.filter (fun p => p.1 % 64 == lane)).foldl (fun l p => insertNat l (p.1 / 256)) []

/-- Words that the table holds in all lanes. -/
def allWords (t : Tab Byte) : Nat := ((upto 64).map (fun l => (laneWords t l).length)).foldl (· + ·) 0

/-- Table 14.5: a lane or the group has logged or written too many words. -/
def Trans.full (x : Trans) (lane : Nat) : Bool :=
  decide (16 < (laneWords x.log lane).length) || decide (8 < (laneWords x.buf lane).length)
    || decide (512 < allWords x.log) || decide (256 < allWords x.buf)

/-- The addresses of the whole 32-bit words that an access touches. -/
def wordBytes (a n : Nat) : List Nat := (upto (4 * ((a + n - 1) / 4 - a / 4 + 1))).map (fun i => a / 4 * 4 + i)

/-- Log the bytes of the words that a lane reads, but those it has logged or written. -/
def Trans.logRead (x : Trans) (lane a n : Nat) (byte : Nat → Byte) : Trans :=
  { x with log := (wordBytes a n).foldl (fun (t : Tab Byte) b =>
      if t.has (64 * b + lane) || x.buf.has (64 * b + lane) then t else t.put (64 * b + lane) (byte b)) x.log }

/-- The value a lane reads: its own buffered bytes over memory's (R352: lanes never see each other's writes). -/
def Trans.value (x : Trans) (lane a n : Nat) (byte : Nat → Byte) : Nat :=
  ofBytes ((upto n).map (fun i => (x.buf.getD (64 * (a + i) + lane) (byte (a + i))).toNat))

/-- Buffer the bytes that a lane writes; bit `i` of `bad` marks byte `i` as poisoned. A synchronising write is told from a plain one
(R380). -/
def Trans.bufWrite (x : Trans) (lane a n v bad : Nat) (sync : Bool) : Trans :=
  { x with
    buf := (upto n).foldl (fun (t : Tab Byte) i => t.put (64 * (a + i) + lane) (BitVec.ofNat 8 (v / 2 ^ (8 * i)))) x.buf,
    bufBad := (upto n).foldl (fun l i => (if bad.testBit i then insertNat else eraseNat) l (64 * (a + i) + lane)) x.bufBad,
    wsync := if x.wsync.contains (a / 128, sync) then x.wsync else x.wsync ++ [(a / 128, sync)] }

/-! ## Performing a transactional access -/

/-- How a transactional lane ends: with the state after and its value, by an abort with the cause of Table 14.5 (0: the abort has been
made), or by a race of level 2 (R380). -/
inductive TxLane where
  | ok (s : State) (v : Nat)
  | abort (s : State) (cause : Nat)
  | race (s : State) (reason : Nat)

/-- Serve an abort (R319, R320): causes 1, 7 and 8 retry, the others are final. -/
def State.abortTx (s : State) (k cause : Nat) : State :=
  if cause = 0 then s
  else if cause = 1 || cause = 7 || cause = 8 then s.retry k cause (s.thread k).tx.tm else s.final k cause

/-- Does an access read? -/
def AccOp.reads (o : AccOp) : Bool := !(o.writes && !o.isAtomic)

/-- Does a lane's read meet a poisoned byte: of memory, among the bytes it reads there, or among those it has buffered? -/
def Trans.meetsPoison (x : Trans) (lane a n : Nat) (bad : Nat → Bool) : Bool :=
  (wordBytes a n).any (fun b => !(x.buf.has (64 * b + lane)) && bad b)
    || (upto n).any (fun i => x.bufBad.contains (64 * (a + i) + lane))

/-- The lane's effect on log and buffer, where memory holds the bytes `byte`, of which `bad` are poisoned. Of a word that the lane has
written in part, it reads and logs the other bytes (R352). -/
def State.txEffect (s : State) (k : Nat) (q : LaneReq) (a key : Nat) (via : Option TlbEntry) (byte : Nat → Byte) (bad : Nat → Bool) :
    TxLane :=
  let t := s.thread k
  let keep (x : Trans) : State := s.putThread k { t with tx :=
    { x with lkeys := x.lkeys.put (a / 128) key, pages := match via with
      | some e => if x.pages.contains e then x.pages else x.pages ++ [e]
      | none => x.pages } }
  if q.op.reads && t.tx.meetsPoison q.lane a q.size bad then .abort s 6
  else
    let old := t.tx.value q.lane a q.size byte
    let x := if q.op.reads then t.tx.logRead q.lane a q.size byte else t.tx
    let e := q.op.effect old
    let x := match e.write with
      | some v => x.bufWrite q.lane a q.size v q.op.bad q.sync
      | none => x
    if x.full q.lane then .abort (keep x) 2
    else match e.result with
      | some v => .ok (keep x) v
      | none => .abort (keep x) 1

/-- A transactional read of a level-2 block registers when it is performed (R380); a write, at its commit. -/
def State.txRegister (s : State) (k line : Nat) (q : LaneReq) : Except Nat State :=
  let t := s.thread k
  if q.op.reads && s.level t = 2 then s.register t.ident.lnum t.ident.block line false q.sync else .ok s

/-! ### SIMT groups -/

/-- Take a line that is held in E or M to S, as a GetS does (R359): dirty data goes home, and the owner keeps a shared copy. -/
def State.demote (s : State) (line : Nat) : State :=
  let d := s.dirOf line
  if d.st ≠ .EM then s
  else
    let c := s.holder line d.owner
    let s := s.snoopSpec c line
    match s.cached c line with
    | none => s
    | some l =>
      let s := if l.ownedDirty then s.writeBack line l else s
      let s := if c < 192 then
          let s := (s.putLine c line { l with st := .U }).noteReader c line
          if d.owner < 48 then s else s.fillS (rdcOf c) line l.key l.data l.poison
        else s.putLine c line { l with st := .S }
      s.putDir line { (s.dirOf line).addSharer d.owner with st := .S, owner := 255 }

/-- The core's own masked bytes of a line go home first (R352). -/
def State.pushMask (s : State) (core line : Nat) : State :=
  match s.cached core line with
  | some l =>
    if l.dirty = 0 then s
    else
      let s := (s.settle line).mergeLine l.key line l.data l.dirty l.poison
      ((s.putLine core line { l with dirty := 0 }).hitSigs line).count (128 * line) true core
  | none => s

/-- Has a core writes of a line on their way, or accesses that wait for it? For the holder of the fallback lock only those count that do not
wait for the lock. -/
def State.coreBusy (s : State) (core line : Nat) (agent : Option Nat := none) : Bool :=
  let mine := s.holdsLock agent
  s.mem.net.any (fun m => m.line == line && m.mid == core && m.kind.isRequest && !(mine && s.held m))
    || (s.waiting core line).any (fun a => !mine || agent == some a.agent)

/-- May a transactional access of a thread of a SIMT core meet this line now? -/
def State.txReady (s : State) (k core line : Nat) : Bool := !(s.lineBusy line) && !(s.coreBusy core line (some k))

/-- One lane of a SIMT group's transactional access (R352). The write-back of its core's masked bytes may abort its own transaction
(R359). -/
def State.txSimt (s : State) (k : Nat) (q : LaneReq) (a key : Nat) (via : Option TlbEntry) : TxLane :=
  let core := (s.thread k).ident.core
  let p := s.steer a key
  let line := p.1 / 128
  let x := (s.thread k).tx
  let s := if q.op.reads then ((s.pushMask core line).settleKey line p.2).demote line else s
  if (s.thread k).tx ≠ x then .abort s 0
  else match s.mark k line q.op.reads q.op.writes with
    | none => .abort s 2
    | some s => match s.txRegister k line q with
      | .error r => .race s r
      | .ok s =>
        let s := if q.op.reads then s.count p.1 false core else s
        s.txEffect k q p.1 p.2 via (s.homeByte p.2) (fun b => s.memPoisoned b 1)

/-! ### Distaff threads -/

/-- Is a request or grant of a core for a line under way? -/
def State.asking (s : State) (code line : Nat) : Bool :=
  s.mem.net.any (fun m => m.line == line &&
    ((m.kind.isRequest && m.src == code) || (m.kind = .grant && m.dst == code)))
    || (match (s.dirOf line).req with
      | some m => m.src == code
      | none => false)

/-- How a distaff thread's transactional access finds its line. -/
inductive TxLine where
  | ready (s : State) (l : CLine)
  | wait (s : State)
  | abort (s : State) (cause : Nat)

/-- A distaff thread's transactional access needs its line in its L1, exclusively to write it. Before it asks, and at the home, it meets the
W entry of another live transaction (R357). A copy under another key is evicted first (R35). -/
def State.txLine (s : State) (k line key : Nat) (write : Bool) : TxLine :=
  let c := (s.thread k).cache
  let code := ownerCode c line
  let ask (s : State) (kind : MsgKind) : TxLine :=
    .wait (if s.asking code line then s else s.post { Msg.plain kind line code 254 c key with tx := true, agent := k })
  if s.meetsWriter k line then .abort s 1
  else match s.clearKey c line key k with
    | none => .wait s
    | some s' =>
      if (s'.thread k).tx ≠ (s.thread k).tx then .abort s' 0
      else match s'.cached c line with
        | some l => if !write || l.exclusive then .ready s' l else ask s' .upg
        | none => ask s' (if write then .getX else .getS)

/-- A distaff thread's transactional access on its line (R357). -/
def State.txDistaff (s : State) (k : Nat) (q : LaneReq) (a key : Nat) (via : Option TlbEntry) (l : CLine) : TxLane :=
  let line := a / 128
  match s.mark k line q.op.reads q.op.writes with
  | none => .abort s 2
  | some s =>
    let s := s.putLine (s.thread k).cache line { l with spec := true }
    s.txEffect k q a key via (fun b => BitVec.ofNat 8 (lineByte l.data (b % 128))) (fun b => l.poison.getLsbD (b % 128 / 8))

/-! ### Words -/

/-- The cause of Table 14.5 with which a lane's checks end the transaction (R350, R362, R387): a fault is reported to no handler. -/
def Resolved.txFault (r : Resolved) (own : Nat) : Option Nat :=
  let at_ (p : Word → Bool) : Bool := match r.look with
    | .ok pa _ => p pa
    | _ => false
  match r.fate with
  | .good (.reg _) => some 5
  | .good (.mem _ _) => none
  | .miss => none
  | .fail _ _ => if at_ (fun pa => bitsAt pa 49 3 != own) then some 3 else if at_ isMmio then some 5 else some 6

/-- That of the first lane whose checks fail. -/
def firstFault (rs : List Resolved) (own : Nat) : Option Nat := rs.findSome? (fun r => r.txFault own)

/-- The lanes of a SIMT word in rising order, their values collected. -/
def State.txLanes (s : State) (k : Nat) : List Resolved → List (Nat × Nat) → TxLane × List (Nat × Nat)
  | [], vs => (.ok s 0, vs)
  | r :: rs, vs =>
    match r.fate with
    | .good (.mem a key) =>
      match s.txSimt k r.req a key r.via with
      | .ok s v => s.txLanes k rs (vs ++ [(r.req.lane, v)])
      | .abort s c => (.abort s c, vs)
      | .race s e => (.race s e, vs)
    | _ => s.txLanes k rs vs

/-- A producer that has all its values. -/
def State.produceValues (s : State) (form : Form) (sd vd : List Nat) (vs : List (Nat × Nat)) : State :=
  if sd.isEmpty && vd.isEmpty then s
  else s.mapTh (fun t => t.produce { t.producer form sd vd with vals := vs.flatMap (fun p => form.values p.1 p.2) })

/-- The lines that good lanes reach. -/
def State.goodLines (s : State) (rs : List Resolved) : List Nat :=
  (rs.flatMap (fun r => match r.fate with
    | .good (.mem a key) => linesOf (s.steer a key).1 r.req.size
    | _ => [])).foldl insertNat []

/-- A race that a transactional read of level 2 meets is raised on its lane, which first ends the transaction (R387; log entry 31). -/
def State.txRace (s : State) (k reason : Nat) : State :=
  let t := s.thread k
  s.trap k ⟨0x0D, reason, 0, t.active, 0, false, t.here⟩

/-- A SIMT group's transactional word, its lanes checked and good: performed where every home admits it (R352, R98). -/
def State.txGroupWord (s : State) (k : Nat) (rs : List Resolved) (form : Form) (sd vd : List Nat) : Res :=
  let core := (s.thread k).ident.core
  let lines := s.goodLines rs
  if !(lines.all (s.txReady k core)) then .stay s
  else match State.visitAll core 0 lines s s true with
    | .wait s => .stay s
    | .lost s => .moved (s.final k 6)
    | .go s =>
      match (s.settleLooks k rs).txLanes k rs [] with
      | (.ok s _, vs) => .done (s.produceValues form sd vd vs)
      | (.abort s c, _) => .moved (s.abortTx k c)
      | (.race s r, _) => .moved (s.txRace k r)

/-- A distaff thread's transactional word (R357). -/
def State.txDistaffWord (s : State) (k : Nat) (rs : List Resolved) (form : Form) (sd vd : List Nat) : Res :=
  match rs with
  | [] => .done s
  | r :: _ => match r.fate with
    | .good (.mem a key) =>
      let p := s.steer a key
      if s.inTransit (p.1 / 128) then .stay s
      else match s.txLine k (p.1 / 128) p.2 r.req.op.writes with
        | .wait s => .stay s
        | .abort s c => .moved (s.abortTx k c)
        | .ready s l =>
          match (s.settleLooks k rs).txDistaff k r.req p.1 p.2 r.via l with
          | .ok s v => .done (s.produceValues form sd vd [(r.req.lane, v)])
          | .abort s c => .moved (s.abortTx k c)
          | .race s _ => .done s
    | _ => .done s

/-- A memory word inside a live transaction (R287, R350, R352, R357). An abort places the thread at `RH`. -/
def State.txWord (s : State) (qs : List LaneReq) (form : Form) (sd vd : List Nat) : Res :=
  let k := s.work.cur
  let rs := s.resolveAll k qs
  if rs.any Resolved.waits then .stay (s.startWalks k rs)
  else match firstFault rs s.ownPkg with
    | some c => .moved ((s.settleLooks k rs).final k c)
    | none =>
      let go (s : State) : Res := match s.th.kind with
        | .group => s.txGroupWord k rs form sd vd
        | .distaff => s.txDistaffWord k rs form sd vd
      if s.touchesStage (s.goodLines rs) then s.afterFlush go else go s

/-! ## Beginning and ending -/

/-- TXBEGIN, R317. -/
def execTxbegin (d : BitVec 7) (n : BitVec 4) (s : State) : Out :=
  .next (s.issue (fun t => { distaff := true, illegal := !t.lastWord, aborts := true, sdests := [t.abs d] })
    (fun s =>
      let t := s.th
      let x : Trans := { Trans.none with
        live := true, tm := t.active, d0 := t.pstack.length, budget := n.toNat, rh := t.nextHdr, rd := t.abs d }
      .done ((s.mapTh (fun t => { t with tx := x })).setS d 0)))

/-- The slices that hold an entry of a transaction. -/
def State.sigSlices (s : State) (k : Nat) : List Nat :=
  ((s.mem.sigs.filter (fun e => e.agent == k)).map (fun e => s.sliceOf (128 * e.line))).foldl insertNat []

/-- R355, R319: the transaction has committed the lanes `c`; it ends, or its other lanes retry. -/
def State.finishCommit (s : State) (d : BitVec 7) (c : Mask) : Res :=
  let k := s.work.cur
  let s := (s.acquireNow k 2).mapTh (fun t => { t with tx := { t.tx with done := t.tx.done ||| c }, wait := .none })
  let f := s.th.tx.tm &&& ~~~c
  if f ≠ 0 then .moved ((s.retry k 1 f).mapThread k (fun t => t.endRegion true))
  else
    let s := ((s.dropSigs k).clearSpec s.th.cache).releaseLock k
    .done ((s.mapTh (fun t => { t with
      tx := { t.tx.discard t.tx.tm with live := false, pages := [] }, pstack := toDepth t.pstack t.tx.d0 })).setS d s.th.tx.done)

/-- TXEND, R319, R355: it requests a ticket and waits until every slice has written; it is not performed while another thread
holds the fallback lock (R361). -/
def execTxend (d : BitVec 7) (s : State) : Out :=
  .next (s.issue (fun t => { distaff := true, illegal := !t.lastWord, ends := true, sdests := [t.abs d] })
    (fun s =>
      let k := s.work.cur
      if !s.th.tx.live then .done (s.setS d 0)
      else match s.th.wait with
        | .commit t _ c bad =>
          if t = 0 || s.mem.resv.any (fun r => r.agent == k && !r.atomic) then .stay s
          else if bad then .moved ((s.mapTh (fun t => { t with wait := .none })).final k 6)
          else if s.acquireReady k 2 then s.finishCommit d c else .stay s
        | _ =>
          s.afterRelease 2 (fun s =>
            if s.svc.fblHolder.isSome && s.svc.fblHolder ≠ some k then .moved (s.retry k 8 s.th.tx.tm)
            else
              let sl := s.sigSlices k
              if sl.isEmpty then (if s.acquireReady k 2 then s.finishCommit d s.th.tx.tm else .stay s)
              else .stay (s.mapTh (fun t => { t with wait := .commit 0 sl t.tx.tm false })))))

/-- TXABORT, R321. -/
def execTxabort (n : BitVec 7) (s : State) : Out :=
  .next (s.issue (fun _ => { distaff := true })
    (fun s =>
      if s.th.tx.live then
        .moved ((s.mapTh (fun t => { t with tx := { t.tx with code := n.toNat } })).final s.work.cur 4)
      else .done s))

/-- Table 14.6. -/
def Trans.stat (x : Trans) : Word :=
  BitVec.ofNat 64 (x.cause * 2 ^ 56 + (if x.cause = 4 then x.code else 0) * 2 ^ 49 + x.att * 2 ^ 44 + bit x.fbk * 2 ^ 43
    + bit x.live * 2 ^ 42)

/-- TXSTAT, R322. -/
def execTxstat (d : BitVec 7) (s : State) : Out :=
  .next (s.issue (fun t => { distaff := true, sdests := [t.abs d] }) (fun s => .done (s.setS d s.th.tx.stat)))

/-! ## The commit sequence (R355) -/

/-- TICKET_REQUEST, R354: the Halyard issues a ticket and sends its reservations; a transaction that finds the fallback lock
held by another is served by retry(8) before it takes one (R361), and one whose group has been stopped takes none (R362). -/
def execTicketRequest (agent : Nat) (s : State) : Out :=
  .next (match (s.thread agent).wait with
    | .commit 0 sl c bad =>
      if (s.thread agent).status ≠ .running then s
      else if s.svc.fblHolder.isSome && s.svc.fblHolder ≠ some agent then s.retry agent 8 (s.thread agent).tx.tm
      else
        let (t, s) := s.takeTicket
        let s := s.mapThread agent (fun th => { th with wait := .commit t sl c bad })
        { s with mem := { s.mem with resv := s.mem.resv ++ sl.map (fun x => ⟨t, agent, x, false, false, false⟩) } }
    | _ => s)

/-- The entries of a transaction at a slice. -/
def State.sigsAt (s : State) (agent slice : Nat) : List Sig :=
  s.mem.sigs.filter (fun e => e.agent == agent && s.sliceOf (128 * e.line) == slice)

/-- Where a line of a transaction is served, under the key of its accesses: at the new home, once it has moved (R31, R362). -/
def State.txHome (s : State) (x : Trans) (line : Nat) : Nat × Nat :=
  let p := s.steer (128 * line) (x.lkeys.getD line 0)
  (p.1 / 128, p.2)

/-- Change a reservation. -/
def State.mapResv (s : State) (r : Resv) (f : Resv → Resv) : State :=
  { s with mem := { s.mem with resv := s.mem.resv.map (fun q => if q = r then f q else q) } }

/-- The bytes that a lane has logged of some lines. -/
def Trans.logged (x : Trans) (lines : List Nat) : List (Nat × Byte) := x.log.filter (fun p => lines.contains (p.1 / 64 / 128))

/-- The lanes whose logged bytes of some lines differ from memory. -/
def State.changedLanes (s : State) (x : Trans) (lines : List Nat) : Mask :=
  maskOf ((upto 64).filter (fun l => (x.logged lines).any (fun p =>
    let h := s.txHome x (p.1 / 64 / 128)
    p.1 % 64 == l && s.homeByte h.2 (128 * h.1 + p.1 / 64 % 128) != p.2)))

/-- Is a logged byte poisoned? -/
def State.logPoisoned (s : State) (x : Trans) (lines : List Nat) : Bool :=
  (x.logged lines).any (fun p => s.memPoisoned (128 * (s.txHome x (p.1 / 64 / 128)).1 + p.1 / 64 % 128) 1)

/-- A slice's answer to a reservation at its head: the lanes that fail there, and whether a logged byte is poisoned. -/
def State.answerResv (s : State) (r : Resv) (fail : Mask) (poison : Bool) : State :=
  (s.mapThread r.agent (fun t => { t with wait := match t.wait with
    | .commit n sl c bad => .commit n (eraseNat sl r.slice) (c &&& ~~~fail) (bad || poison)
    | w => w })).mapResv r (fun q => { q with head := true })

/-- A lock recalls a line that a distaff core holds speculative for a commit with a higher ticket, whose marks could be cleared only
after this commit: where this one writes the line, that one fails to validate and retries, so that it observes this write (R356; log
entry 32). -/
def State.overtake (s : State) (line ticket : Nat) : State :=
  s.work.threads.foldl (fun (s : State) p =>
    let t := s.thread p.1
    if t.kind = .distaff && t.committing && ticket < t.ticket && s.mem.sigs.any (fun e => e.agent == p.1 && e.line == line) then
      s.mapThread p.1 (fun t => { t with wait := match t.wait with
        | .commit n sl _ bad => .commit n sl 0 bad
        | w => w })
    else s) s

/-- RESERVATION_HEAD, R355, R358: the slice locks the lines, recalls their copies, and answers which lanes validate. A distaff
transaction has nothing to validate, and a far atomic's turn is taken by its own request (R378). -/
def execReservationHead (slice : Nat) (s : State) : Out :=
  .next (match s.firstResv slice with
    | none => s
    | some r =>
      let t := s.thread r.agent
      let es := s.sigsAt r.agent slice
      let lines := es.map (·.line)
      let homes := lines.map (fun l => (s.txHome t.tx l).1)
      if r.head || r.atomic then s
      else match t.kind with
        | .distaff => s.answerResv r 0 false
        | .group =>
          if homes.any (fun l => s.lineMoves l || s.mem.caches.any (fun p => s.snoopWaits p.1 l (some r.ticket))) then s
          else
            let s := { s with mem := { s.mem with locked := homes.foldl insertNat s.mem.locked } }
            let s := (es.filter (·.w)).foldl (fun (s : State) e => s.overtake (s.txHome t.tx e.line).1 r.ticket) s
            let s := homes.foldl (fun (s : State) l => s.settle l) s
            s.answerResv r (s.changedLanes t.tx lines) (s.logPoisoned t.tx lines))

/-- R353: the lanes that commit, formed in ascending order. -/
def Trans.commitSet (x : Trans) (pass : Mask) : Mask :=
  let step (c : List Nat) (l : Nat) : List Nat :=
    let w := laneWords x.buf l
    let r := laneWords x.log l
    let clash := c.any (fun m =>
      let wm := laneWords x.buf m
      let rm := laneWords x.log m
      wm.any (fun a => w.contains a || r.contains a) || w.any (fun a => rm.contains a))
    if pass.getLsbD l && x.tm.getLsbD l && !clash then c ++ [l] else c
  maskOf ((upto 64).foldl step [])

/-- The committed bytes of a line, their mask, and the units that poisoned ones reach. The lanes of C write no byte in common (R353). -/
def Trans.lineOf (x : Trans) (c : Mask) (line : Nat) : BitVec 1024 × BitVec 128 × BitVec 16 :=
  let mine (k : Nat) : Bool := c.getLsbD (k % 64) && k / 64 / 128 == line
  let ws := x.buf.filter (fun p => mine p.1)
  (ws.foldl (fun d p => setLineBytes d (p.1 / 64 % 128) 1 p.2.toNat) 0,
    ws.foldl (fun m p => m ||| byteMask (p.1 / 64 % 128) 1) 0,
    unitMask ((x.bufBad.filter mine).map (fun k => k / 64 % 128 / 8)))

/-- Write a line's committed bytes at its home. -/
def State.commitHome (s : State) (x : Trans) (c : Mask) (mid line : Nat) : State :=
  let w := x.lineOf c line
  if w.2.1 = 0 then s
  else
    let h := s.txHome x line
    (s.mergeLine h.2 h.1 w.1 w.2.1 w.2.2).count (128 * h.1) true mid

/-- Check a committed line of a level-2 block (R380): the reason of a race, whose bytes are discarded (R381), or the state after. -/
def State.registerCommit (s : State) (t : Thread) (line : Nat) : Except Nat State :=
  if s.level t ≠ 2 then .ok s
  else t.tx.wsync.foldl (fun (q : Except Nat State) w => match q with
    | .ok s => if w.1 = line then s.register t.ident.lnum t.ident.block (s.txHome t.tx line).1 true w.2 else .ok s
    | e => e) (.ok s)

/-- A SIMT group's committed bytes of one line: written, or discarded with a race that its group takes (R381). -/
def State.commitLine (s : State) (agent : Nat) (c : Mask) (line : Nat) : State :=
  let t := s.thread agent
  if (t.tx.lineOf c line).2.1 = 0 then s
  else match s.registerCommit t line with
    | .ok s => s.commitHome t.tx c t.mid line
    | .error r => s.defer agent ⟨0x0D, r, 0, t.active, 0, false, none, none⟩

/-- A distaff thread's committed bytes of one line stand in its own L1, in M (R358); those of a line it has lost go home. -/
def State.writeSpec (s : State) (t : Thread) (c : Mask) (line : Nat) : State :=
  let w := t.tx.lineOf c line
  if w.2.1 = 0 then s
  else match s.cached t.cache line with
    | some l =>
      if l.exclusive then
        s.putLine t.cache line { l with
          data := overlay l.data w.1 w.2.1, st := .M, poison := (l.poison &&& ~~~(unitMask (unitsFull w.2.1))) ||| w.2.2 }
      else s.commitHome t.tx c t.mid line
    | none => s.commitHome t.tx c t.mid line

/-- May a distaff thread's commit stand at once: no line that it has lost is being served? -/
def State.specReady (s : State) (t : Thread) (c : Mask) (lines : List Nat) : Bool :=
  lines.all (fun l => (t.tx.lineOf c l).2.1 = 0
    || ((s.cached t.cache l).map CLine.exclusive).getD false || !(s.lineMoves (s.txHome t.tx l).1))

/-- VALIDATION_ANSWERS, R353, R355: every slice has answered; the group forms C and sends its words. A distaff thread's bytes stand in
its L1 at one point, and it clears its marks (R348, R358). -/
def execValidationAnswers (agent : Nat) (s : State) : Out :=
  .next (
    let t := s.thread agent
    match t.wait with
    | .commit n [] pass bad =>
      if n = 0 || s.mem.resv.any (fun r => r.agent == agent && !r.atomic && (!r.head || r.write)) then s
      else
        let c := if bad then 0 else match t.kind with
          | .group => t.tx.commitSet pass
          | .distaff => t.tx.tm &&& pass
        let lines := (s.mem.sigs.filter (fun e => e.agent == agent)).map (·.line)
        if t.kind = .distaff && !(s.specReady t c lines) then s
        else
          let s := s.putThread agent { t with wait := .commit n [] c bad }
          let s := { s with mem := { s.mem with
            resv := s.mem.resv.map (fun r => if r.agent = agent && !r.atomic then { r with write := true } else r) } }
          match t.kind with
          | .group => s
          | .distaff => ((lines.foldl (fun (s : State) l => s.writeSpec t c l) s).dropSigs agent).clearSpec t.cache
    | _ => s)

/-- COMMIT_WRITE, R355: the slice writes the words, removes the transaction's entries, unlocks the lines and takes its next
reservation. -/
def execCommitWrite (slice : Nat) (s : State) : Out :=
  .next (match s.firstResv slice with
    | none => s
    | some r =>
      let t := s.thread r.agent
      match t.wait with
      | .commit _ _ c _ =>
        if !(r.head && r.write) || r.atomic then s
        else
          let lines := (s.sigsAt r.agent slice).map (·.line)
          let homes := lines.map (fun l => (s.txHome t.tx l).1)
          let s := lines.foldl (fun (s : State) l => s.commitLine r.agent c l) s
          { s with mem := { s.mem with
            sigs := s.mem.sigs.filter (fun e => !(e.agent == r.agent && lines.contains e.line)),
            locked := s.mem.locked.filter (fun l => !(homes.contains l)),
            resv := s.mem.resv.filter (fun q => !(q == r)) } }
      | _ => s)

/-- FALLBACK_LOCK_GRANT, R361, R319: the lock goes to the first that asked, which transfers to `RH`. -/
def execFallbackLockGrant (s : State) : Out :=
  .next (match s.svc.fblHolder, s.svc.fblWait with
    | none, k :: r =>
      let t := s.thread k
      let s := { s with svc := { s.svc with fblHolder := some k, fblWait := r } }
      (match t.wait with
      | .lock => s.putThread k (({ t with wait := .none }.mapRegs (fun q => q.setS t.tx.rd 0)).goto t.tx.rh)
      | _ => s)
    | _, _ => s)

end Sys2Proof.Machine
end

