-- ==== Sys2Proof/Machine/Memory.lean ====
section
/-! DEFINITION. Memory words (spec/13_memory_instructions.md, R271 to R291): loads, stores, ordered accesses, atomics, fences and
scratchpad accesses, with parking (R276, R384) and the replay queue (R275). -/

namespace Sys2Proof.Machine

/-! ## Records of parked lanes -/

/-- Lanes grouped by 4 KiB page, in rising lane order: the page's lowest lane, and every lane on it (R389). -/
def byPage (qs : List LaneReq) : List (LaneReq × Mask) :=
  (qs.foldl (fun (ps : List LaneReq) q =>
    if ps.any (fun p => p.va.toNat / 4096 == q.va.toNat / 4096) then ps else ps ++ [q]) []).map
    (fun p => (p, maskOf ((qs.filter (fun q => q.va.toNat / 4096 == p.va.toNat / 4096)).map (·.lane))))

/-- `ACC` of Table 18.4. -/
def AccOp.accCode (o : AccOp) : Nat := if o.isAtomic then 2 else if o.writes then 1 else 0

/-- The cause and reason a lane fails with. -/
def Resolved.cause (r : Resolved) : Nat × Nat :=
  match r.fate with
  | .fail c e => (c, e)
  | _ => (0, 0)

/-- The cause and reason of a lane among resolved lanes. -/
def causeOf (rs : List Resolved) (lane : Nat) : Nat × Nat :=
  match rs.find? (fun r => r.req.lane == lane) with
  | some r => r.cause
  | none => (0, 0)

/-- Write one record for each page of faulting lanes (R389, R390), and answer their tokens with the lanes. -/
def State.reportPages (s : State) (k kind : Nat) (hdr : Word) (rs : List Resolved) (src : Source) : State × List (Nat × Mask) :=
  let t := s.thread k
  (byPage (rs.map (·.req))).foldl (fun (q : State × List (Nat × Mask)) p =>
    let c := causeOf rs p.1.lane
    let part := q.1.ownerPart t
    let s := q.1.report part t.die
      ⟨kind, c.1, c.2, t.mid, t.ident.slot, p.1.op.accCode, bitsAt t.xltAsid 0 16, p.1.va, p.2, t.ident.lnum, 0, hdr, 0⟩ src
    (s, q.2 ++ [(s.lastToken part, p.2)])) (s, [])

/-! ## Sending lanes -/

/-- The access of a good lane. -/
def Resolved.access (r : Resolved) (k prod mid a key ticket : Nat) : Access :=
  ⟨k, prod, r.req.lane, r.req.op, a, r.req.size, key, r.req.scope, mid, r.via, r.req.sync,
    if r.req.op.isAtomic && 2 ≤ r.req.scope then ticket else 0, r.req.va.toNat⟩

/-- Perform a lane at a register of home class 6 at once (R437). -/
def State.sendReg (s : State) (a : Access) (r : Mreg) : State :=
  let e := a.op.effect (s.mregRead r)
  let s := match e.write with
    | some v => s.mregWrite r v
    | none => s
  s.arrive { a with via := none } e.result 0

/-- A good lane leaves for its place. -/
def State.sendLane (s : State) (k prod mid ticket : Nat) (r : Resolved) : State :=
  match r.fate with
  | .good (.mem a key) => s.send (r.access k prod mid a key ticket)
  | .good (.reg m) => s.sendReg (r.access k prod mid 0 0 0) m
  | _ => s

/-- The good lanes of a word leave in rising lane order (R273), its far atomics under a ticket. -/
def State.sendLanes (s : State) (k prod : Nat) (rs : List Resolved) (ticket : Nat) : State :=
  (rs.filter Resolved.isGood).foldl (fun s r => s.sendLane k prod (s.thread k).mid ticket r) s

/-- R378: the immediate flush that goes before a word's accesses: that of a far atomic, which is performed under its ticket, and that
of an access whose place of performance sends its line's masked bytes home (Tables 4.7 and 13.1). The state after it, the ticket of
the far atomics and the reason of a race; none while the flush has to wait. -/
def State.wordFlush (s : State) (k : Nat) (rs : List Resolved) : Option (State × Nat × Nat) :=
  let t := s.thread k
  let lvl := s.level t
  let wide := rs.filter (fun r => r.isGood && 1 ≤ r.req.scope)
  let far := wide.any (fun r => r.req.op.isAtomic && 2 ≤ r.req.scope)
  let staged := s.stagedLines t.ident.core t.ident.lnum t.ident.block
  let lines := s.goodLines wide
  if lvl = 0 || !(far || staged.any (fun p => lines.contains p.1)) then some (s, 0, 0)
  else if s.flushReady staged (some k) then
    let q := s.flushStage t.ident.core t.ident.lnum t.ident.block lvl false far
    some (q.1, if far then s.svc.ticket else 0, q.2)
  else none

/-- Two byte ranges overlap. -/
def overlaps (a n b m : Nat) : Bool := decide (a < b + m) && decide (b < a + n)

/-- R338: has the thread an access in flight to bytes of this range, performed away from its cache, or still polling? -/
def State.inFlight (s : State) (k a n : Nat) : Bool :=
  let hit (x : Access) : Bool := x.agent == k && overlaps x.pa x.size a n
  let msg (m : Msg) : Bool := match m.acc with
    | some x => hit x
    | none => false
  s.mem.net.any msg || s.mem.dir.any (fun p => match p.2.req with
    | some m => msg m
    | none => false)
    || (s.thread k).producers.any (fun p => match p.await with
      | .poll l => l.any hit
      | _ => false)
    || s.work.cores.any (fun p => p.2.rqcWait.any hit || p.2.windows.any (fun w => w.reqs.any hit))

/-- Does a lane's address wait with the class 7 requests of a MERGE or SPLIT (R406)? -/
def State.laneHeld (s : State) (r : Resolved) : Bool :=
  match r.look with
  | .ok pa _ => s.windowHeld pa
  | _ => false

/-- Does a good lane have to wait: behind an access of its own thread to the same bytes, or at a home that holds its request? -/
def State.behindOwn (s : State) (k : Nat) (r : Resolved) : Bool :=
  s.laneHeld r || match r.fate with
  | .good (.mem a key) => s.inFlight k (s.steer a key).1 r.req.size || s.inFlight k a r.req.size
  | _ => false

/-- The state in which a producer's own polls are not counted among the accesses in flight: the performances of one polling load or SWAITGE
do not wait for each other (R286). -/
def State.unpolled (s : State) (k id : Nat) : State := s.mapThread k (fun t => t.mapProducer id (fun q => { q with await := .none }))

/-! ## The replay queue (R275) -/

/-- Does an entry of the thread's group hold the page of an address? -/
def State.replayHolds (s : State) (k : Nat) (va : Word) : Bool :=
  let t := s.thread k
  t.kind = .group && (s.core t.ident.core).replay.any (fun e =>
    e.agent == k && e.reqs.any (fun q => q.va.toNat / 4096 == va.toNat / 4096))

/-- A number that no entry of the core carries. -/
def Core.freshReplay (c : Core) : Nat := c.replay.foldl (fun n e => max n e.id) 0 + 1

/-- Put lanes of a store into the queue, with records for those that faulted. -/
def State.enterReplay (s : State) (k : Nat) (rs : List Resolved) (faulted : Bool) : State :=
  if rs.isEmpty then s
  else
    let t := s.thread k
    let c := t.ident.core
    let id := (s.core c).freshReplay
    let (s, answers) := if faulted then s.reportPages k 2 t.fetch.hdr rs (.replay c id) else (s, [])
    s.mapCore c (fun x => { x with replay := x.replay ++ [⟨id, k, rs.map (·.req), t.fetch.hdr, answers, []⟩] })

/-! ## A memory word -/

/-- The word's requests, the registers it fills, its order, and whether it is a store, a polling load, a scalar form that a
spin suffix holds, with the lanes that consumed poison before they could be sent. -/
structure MemWord where
  reqs : List LaneReq
  bad : List Nat
  form : Form
  sd : List Nat
  vd : List Nat
  order : Order
  store : Bool
  spin : Bool
  poll : Bool
  deriving DecidableEq, Repr

/-- The failures of a word: its failing lanes, and those that consumed poison (R384). -/
def MemWord.failures (w : MemWord) (rs : List Resolved) : List (Nat × Nat × Nat × Nat) :=
  w.bad.foldl (fun l b => insertFail l (b, 0x10, 1, 0)) (rs.filterMap Resolved.failure)

/-- Records of lanes, one for each page (R389). -/
def recordsOf (rs : List Resolved) : Nat := (byPage (rs.map (·.req))).length

/-- The failures at issue of a word of the current thread: on a distaff thread, its translation and permission faults too (R399). -/
def MemWord.fails (w : MemWord) (rs : List Resolved) (distaff : Bool) : List (Nat × Nat × Nat × Nat) :=
  (rs.filter (fun r => r.isParked && distaff)).foldl
    (fun l r => insertFail l (r.req.lane, r.cause.1, r.cause.2, r.req.va.toNat)) (w.failures rs)

/-- A store whose lanes have left: once all of them have been performed its failures are raised (R275), else the group waits for them
where there are any (R384). -/
def State.storeSent (s : State) (id : Nat) : Res :=
  match s.th.findProducer id with
  | none => .done s
  | some p =>
    if p.left = 0 then failRes (s.mapTh (fun t => t.landProducer p)) (p.failed.foldl insertFail [])
    else .done (s.mapTh (fun t => t.mapProducer id (fun p => { p with holds := !p.failed.isEmpty })))

/-- A store (R275): good lanes are performed; lanes on a page that an entry holds wait behind it; lanes that meet a
translation or permission fault enter the queue. A distaff thread traps instead (R399). -/
def State.storeLanes (s : State) (w : MemWord) (rs : List Resolved) (ticket : Nat) : Res :=
  let k := s.work.cur
  let distaff := decide (s.th.kind = .distaff)
  let behind := rs.filter (fun r => r.isGood && s.replayHolds k r.req.va)
  let parked := rs.filter (fun r => r.isParked && !distaff)
  let good := rs.filter (fun r => r.isGood && !(s.replayHolds k r.req.va))
  let p := { s.th.producer Form.none [] [] with
    left := good.length, store := true, inRegion := false, failed := w.fails rs distaff }
  let s := ((s.settleLooks k rs).mapTh (fun t => t.produce p)).sendLanes k p.id good ticket
  ((s.enterReplay k behind false).enterReplay k parked true).storeSent p.id

/-- A load, atomic or polling load (R276): good lanes are performed; lanes that meet a translation or permission fault park the
group with their records (R384); the other failures trap once the others have been performed. A distaff thread traps on every failure
(R399). -/
def State.loadLanes (s : State) (w : MemWord) (rs : List Resolved) (ticket : Nat) : Res :=
  let k := s.work.cur
  let t := s.th
  let parked := rs.filter (fun r => r.isParked && t.kind = .group)
  let good := rs.filter Resolved.isGood
  let fails := w.fails rs (t.kind = .distaff)
  if good.isEmpty && parked.isEmpty then failRes (s.settleLooks k rs) fails
  else
    let p := { t.producer w.form w.sd w.vd with
      left := good.length + parked.length, order := w.order, spin := w.spin, reqs := if w.poll then w.reqs else [],
      failed := fails, holds := !fails.isEmpty }
    let s := (s.settleLooks k rs).mapTh (fun t => t.produce p)
    let s := if w.spin then s.offer else s
    let s := s.sendLanes k p.id good ticket
    if parked.isEmpty then .done s
    else
      let (s, answers) := s.reportPages k 1 t.fetch.hdr parked (.word k)
      .moved (s.mapTh (fun t => { t.endRegion (w.reqs.any (fun q => q.op.isAtomic)) with
        status := .parked, park := some ⟨parked.map (·.req), p.id, false, answers, false⟩ }))

/-- Can the word's lanes be recorded and queued (R275, R390)? -/
def State.wordRoom (s : State) (w : MemWord) (rs : List Resolved) : Bool :=
  let k := s.work.cur
  let parked := rs.filter (fun r => r.isParked && s.th.kind = .group)
  let behind := rs.filter (fun r => w.store && r.isGood && s.replayHolds k r.req.va)
  let need := if w.store then bit (!behind.isEmpty) + bit (!parked.isEmpty) else 0
  s.recordRoom s.th.die (recordsOf parked) && (need == 0 || decide ((s.core s.th.ident.core).replay.length + need ≤ 16))

/-- The lanes of a memory word are checked and performed. -/
def State.performLanes (s : State) (w : MemWord) : Res :=
  let k := s.work.cur
  let rs := s.resolveAll k w.reqs
  if rs.any Resolved.waits then .stay (s.startWalks k rs)
  else if !w.store && rs.any (fun r => s.replayHolds k r.req.va) then .stay s
  else if rs.any (s.behindOwn k) || !(s.wordRoom w rs) then .stay s
  else match s.wordFlush k rs with
    | none => .stay s
    | some (s, ticket, race) =>
      s.unlessRace race (fun s => if w.store then s.storeLanes w rs ticket else s.loadLanes w rs ticket)

/-- A memory word (R271, R283): behind an acquire that has not landed it waits; a release first makes its own; inside a live
transaction its accesses are transactional and its order and scope are ignored (R287). -/
def State.memWord (s : State) (w : MemWord) : Res :=
  if s.th.acqPending then .stay s
  else if s.th.tx.live then
    (if w.bad.isEmpty then s.txWord w.reqs w.form w.sd w.vd
      else .moved (s.trap s.work.cur ⟨0x10, 1, 0, maskOf w.bad, 0, false, s.th.here⟩))
  else if w.order.rel then s.afterRelease w.order.scope (fun s => s.performLanes w)
  else s.performLanes w

/-! ## Building requests -/

/-- Table 13.2's forms: bytes, registers, sign extension. -/
def vldForm (f : Nat) : Nat × Nat × Bool :=
  match f with
  | 0 => (1, 1, true)
  | 1 => (1, 1, false)
  | 2 => (2, 1, true)
  | 3 => (2, 1, false)
  | 4 => (4, 1, false)
  | 5 => (8, 2, false)
  | _ => (16, 4, false)

/-- VST's bytes and registers. -/
def vstForm (f : Nat) : Nat × Nat :=
  match f with
  | 0 => (1, 1)
  | 1 => (2, 1)
  | 2 => (4, 1)
  | 3 => (8, 2)
  | _ => (16, 4)

/-- The bytes of `n` registers of a lane as a number. -/
def Regs.lanesValue (r : Regs) (d l n bytes : Nat) : Nat :=
  ((upto n).foldl (fun v i => v + (r.v (d + i) l).toNat * 2 ^ (32 * i)) 0) % 2 ^ (8 * bytes)

/-- A plain team-scope load of lanes. -/
def loadWord (form : Form) (sd vd : List Nat) (bad : List Nat) (reqs : List LaneReq) : MemWord :=
  ⟨reqs, bad, form, sd, vd, Order.relaxed, false, false, false⟩

/-- A plain store of lanes. -/
def storeWord (bad : List Nat) (reqs : List LaneReq) : MemWord :=
  ⟨reqs, bad, Form.none, [], [], Order.relaxed, true, false, false⟩

/-- The request of a lane. -/
def laneReq (lane : Nat) (va : Word) (op : AccOp) (size : Nat) : LaneReq := ⟨lane, va, op, size, 0, false⟩

/-- A lane's address by base and per-lane offset, sign-extended (R277) or scaled (R280). -/
def Thread.offsetAddr (t : Thread) (a b : BitVec 7) (l : Nat) : Word := t.valS b + (t.regs.v a.toNat l).signExtend 64

/-- A lane's 64-bit pointer (R279). -/
def Thread.pointer (t : Thread) (a : BitVec 7) (l : Nat) : Word := t.regs.v64 a.toNat l

/-- The bytes of `n` registers of a lane that are poisoned, in a store of `bytes` bytes: four for each register (R83). -/
def Regs.lanesBad (r : Regs) (d l n bytes : Nat) : Nat :=
  ((upto n).foldl (fun v i => if r.vPoison.contains (64 * (d + i) + l) then v + 15 * 2 ^ (4 * i) else v) 0) % 2 ^ bytes

/-- The store of a lane's registers. -/
def Thread.storeOp (t : Thread) (d l n bytes : Nat) : AccOp :=
  .store (t.regs.lanesValue d l n bytes) (t.regs.lanesBad d l n bytes)

/-- The store of the low bytes of a scalar register. -/
def Thread.scalarStore (t : Thread) (d : BitVec 7) (n : Nat) : AccOp :=
  .store ((t.valS d).toNat % 2 ^ (8 * n)) (if t.regs.sPoison.contains (t.abs d) then 2 ^ n - 1 else 0)

/-- The lane that a scalar access stands for: the lowest active one. -/
def Thread.scalarLane (t : Thread) : Nat := t.lanes.headD 0

/-! ## Vector loads and stores -/

/-- VLD, R277. -/
def execVld (f : BitVec 3) (d : BitVec 7) (a : BitVec 7) (b : BitVec 7) (x : Bool) (y : Bool) (s : State) : Out :=
  let g := vldForm f.toNat
  let srcs : List Src := [srcV a x]
  .next (s.issue (fun t =>
    { role := .vector, illegal := t.badDest d g.2.1 (g.2.1 = 2) || t.badV a 1, lanes := true, reads := srcs ++ [t.srcS b y],
      vdests := destsV d g.2.1 })
    (fun s =>
      let t := s.th
      let p := t.cleanLanes srcs
      s.memWord (loadWord ⟨false, d.toNat, g.2.1, g.1, g.2.2⟩ [] (destsV d g.2.1) p.2
        (p.1.map (fun l => laneReq l (t.offsetAddr a b l) .load g.1)))))

/-- VST, R277. -/
def execVst (f : BitVec 3) (d : BitVec 7) (a : BitVec 7) (b : BitVec 7) (x : Bool) (y : Bool) (s : State) : Out :=
  let g := vstForm f.toNat
  let srcs : List Src := [srcV a x]
  .next (s.issue (fun t =>
    { role := .vector, illegal := t.badV d g.2 (g.2 = 2) || t.badV a 1, lanes := true, reads := srcs ++ [t.srcS b y] ++ dataV d g.2 })
    (fun s =>
      let t := s.th
      let p := t.cleanLanes srcs
      s.memWord (storeWord p.2 (p.1.map (fun l => laneReq l (t.offsetAddr a b l) (t.storeOp d.toNat l g.2 g.1) g.1)))))

/-- VLDS, R278: `a` is the window offset of the stride. -/
def execVlds (f : BitVec 3) (d : BitVec 7) (a : BitVec 7) (b : BitVec 7) (x : Bool) (y : Bool) (s : State) : Out :=
  let n := if f.toNat = 6 then 2 else 1
  .next (s.issue (fun t =>
    { role := .vector, illegal := t.badDest d n (n = 2), lanes := true, reads := [t.srcS a x, t.srcS b y], vdests := destsV d n })
    (fun s =>
      let t := s.th
      s.memWord (loadWord ⟨false, d.toNat, n, 4 * n, false⟩ [] (destsV d n) []
        (t.lanes.map (fun l => laneReq l (t.valS b + BitVec.ofNat 64 l * t.valS a) .load (4 * n))))))

/-- VLDP, R279. -/
def execVldp (w : Bool) (d : BitVec 7) (a : BitVec 7) (x : Bool) (s : State) : Out :=
  let n := if w then 2 else 1
  let srcs := groupV a 2 x
  .next (s.issue (fun t =>
    { role := .vector, illegal := t.badDest d n w || t.badV a 2 true, lanes := true, reads := srcs, vdests := destsV d n })
    (fun s =>
      let t := s.th
      let p := t.cleanLanes srcs
      s.memWord (loadWord ⟨false, d.toNat, n, 4 * n, false⟩ [] (destsV d n) p.2
        (p.1.map (fun l => laneReq l (t.pointer a l) .load (4 * n))))))

/-- VSTP, R279. -/
def execVstp (w : Bool) (d : BitVec 7) (a : BitVec 7) (x : Bool) (s : State) : Out :=
  let n := if w then 2 else 1
  let srcs := groupV a 2 x
  .next (s.issue (fun t =>
    { role := .vector, illegal := t.badV d n w || t.badV a 2 true, lanes := true, reads := srcs ++ dataV d n })
    (fun s =>
      let t := s.th
      let p := t.cleanLanes srcs
      s.memWord (storeWord p.2 (p.1.map (fun l => laneReq l (t.pointer a l) (t.storeOp d.toNat l n (4 * n)) (4 * n))))))

/-- The address of a table element (R280). -/
def Thread.elementAddr (t : Thread) (a b : BitVec 7) (l e : Nat) : Word :=
  t.valS b + BitVec.ofNat 64 ((t.regs.v a.toNat l).toNat * e)

/-- VSCAT, R280: stores into the L1, as VST does. -/
def execVscat (w : Bool) (d : BitVec 7) (a : BitVec 7) (b : BitVec 7) (x : Bool) (y : Bool) (s : State) : Out :=
  let n := if w then 2 else 1
  let srcs : List Src := [srcV a x]
  .next (s.issue (fun t =>
    { role := .vector, illegal := t.badV d n w || t.badV a 1, lanes := true, reads := srcs ++ [t.srcS b y] ++ dataV d n })
    (fun s =>
      let t := s.th
      let p := t.cleanLanes srcs
      s.memWord (storeWord p.2
        (p.1.map (fun l => laneReq l (t.elementAddr a b l (4 * n)) (t.storeOp d.toNat l n (4 * n)) (4 * n))))))

/-! ## Scalar loads and stores -/

/-- SLD, R281. -/
def execSld (d : BitVec 7) (a : BitVec 7) (x : Bool) (ty : BitVec 3) (s : State) : Out :=
  let n := if ty = 2 then 8 else 4
  .next (s.issue (fun t => { distaff := true, reads := [t.srcS a x], sdests := [t.abs d] })
    (fun s =>
      let t := s.th
      s.memWord (loadWord ⟨true, t.abs d, 1, n, ty = 1⟩ [t.abs d] [] [] [laneReq t.scalarLane (t.valS a) .load n])))

/-- SST, R281. -/
def execSst (d : BitVec 7) (a : BitVec 7) (x : Bool) (ty : BitVec 3) (s : State) : Out :=
  let n := if ty = 2 then 8 else 4
  .next (s.issue (fun t => { distaff := true, reads := [t.srcS a x, t.dataS d] })
    (fun s =>
      let t := s.th
      s.memWord (storeWord [] [laneReq t.scalarLane (t.valS a)
        (t.scalarStore d n) n])))

/-! ## Ordered accesses (R283 to R286) -/

/-- The order of an `ORD` code at a scope (R190). -/
def orderOf (o sc : Nat) : Order := ⟨o % 2 == 1, 2 ≤ o, sc⟩

/-- A request of an ordered access: `.acq`, `.rel` and `.ar` make it synchronising (R380). -/
def orderedReq (lane : Nat) (va : Word) (op : AccOp) (size o sc : Nat) : LaneReq := ⟨lane, va, op, size, sc, o != 0⟩

/-- Bytes and registers of an ordered type. -/
def orderedForm (ty : Nat) : Nat × Nat := if ty = 2 then (8, 2) else (4, 1)

/-- VLDO, R283, R284. -/
def execVldo (d : BitVec 7) (a : BitVec 7) (x : Bool) (p : Bool) (ty : BitVec 3) (o : BitVec 2) (sc : BitVec 2) (s : State) :
    Out :=
  let g := orderedForm ty.toNat
  let srcs := groupV a 2 x ++ (if p then groupV d g.2 false else [])
  .next (s.issue (fun t =>
    { role := .vector, illegal := t.badDest d g.2 (g.2 = 2) || t.badV a 2 true, lanes := true, reads := srcs, vdests := destsV d g.2 })
    (fun s =>
      let t := s.th
      let q := t.cleanLanes srcs
      let op (l : Nat) : AccOp := if p then .poll (t.regs.lanesValue d.toNat l g.2 g.1) else .load
      s.memWord ⟨q.1.map (fun l => orderedReq l (t.pointer a l) (op l) g.1 o.toNat sc.toNat), q.2,
        ⟨false, d.toNat, g.2, g.1, false⟩, [], destsV d g.2, orderOf o.toNat sc.toNat, false, p, p⟩))

/-- SLDO, R283, R284. -/
def execSldo (d : BitVec 7) (a : BitVec 7) (x : Bool) (p : Bool) (ty : BitVec 3) (o : BitVec 2) (sc : BitVec 2) (s : State) :
    Out :=
  let n := if ty = 2 then 8 else 4
  .next (s.issue (fun t =>
    { distaff := true, reads := t.srcS a x :: (if p then [t.srcS d false] else []), sdests := [t.abs d] })
    (fun s =>
      let t := s.th
      let op : AccOp := if p then .poll ((t.valS d).toNat % 2 ^ (8 * n)) else .load
      s.memWord ⟨[orderedReq t.scalarLane (t.valS a) op n o.toNat sc.toNat], [], ⟨true, t.abs d, 1, n, ty = 1⟩, [t.abs d], [],
        orderOf o.toNat sc.toNat, false, p, p⟩))

/-- VSTO, R283. -/
def execVsto (d : BitVec 7) (a : BitVec 7) (x : Bool) (ty : BitVec 3) (o : BitVec 2) (sc : BitVec 2) (s : State) : Out :=
  let g := orderedForm ty.toNat
  let srcs := groupV a 2 x
  .next (s.issue (fun t =>
    { role := .vector, illegal := t.badV d g.2 (g.2 = 2) || t.badV a 2 true, lanes := true, reads := srcs ++ dataV d g.2 })
    (fun s =>
      let t := s.th
      let q := t.cleanLanes srcs
      s.memWord ⟨q.1.map (fun l =>
          orderedReq l (t.pointer a l) (t.storeOp d.toNat l g.2 g.1) g.1 o.toNat sc.toNat), q.2,
        Form.none, [], [], orderOf o.toNat sc.toNat, true, false, false⟩))

/-- SSTO, R283. -/
def execSsto (d : BitVec 7) (a : BitVec 7) (x : Bool) (ty : BitVec 3) (o : BitVec 2) (sc : BitVec 2) (s : State) : Out :=
  let n := if ty = 2 then 8 else 4
  .next (s.issue (fun t => { distaff := true, reads := [t.srcS a x, t.dataS d] })
    (fun s =>
      let t := s.th
      s.memWord ⟨[orderedReq t.scalarLane (t.valS a)
          (t.scalarStore d n) n o.toNat sc.toNat], [],
        Form.none, [], [], orderOf o.toNat sc.toNat, true, false, false⟩))

/-- SWAITGE, R285. -/
def execSwaitge (d : BitVec 7) (a : BitVec 7) (x : Bool) (p : Bool) (ty : BitVec 3) (o : BitVec 2) (sc : BitVec 2) (s : State) :
    Out :=
  let n := if ty = 2 then 8 else 4
  .next (s.issue (fun t => { distaff := true, reads := [t.srcS a x, t.srcS d false], sdests := [t.abs d] })
    (fun s =>
      let t := s.th
      s.memWord ⟨[orderedReq t.scalarLane (t.valS a) (.waitGe ((t.valS d).toNat % 2 ^ (8 * n))) n o.toNat sc.toNat], [],
        ⟨true, t.abs d, 1, n, false⟩, [t.abs d], [], orderOf o.toNat sc.toNat, false, p, true⟩))

/-- R286, R441, R397: requests of a polling load or SWAITGE are performed again, translated afresh. Their faults park the group. -/
def State.reissue (s : State) (k : Nat) (p : Producer) (qs : List LaneReq) : State :=
  let t := s.thread k
  let rs := s.resolveAll k qs
  let parked := rs.filter (fun r => r.isParked && t.kind = .group)
  if rs.any Resolved.waits then s.startWalks k rs
  else if rs.any ((s.unpolled k p.id).behindOwn k) || !(s.recordRoom t.die (recordsOf parked)) || t.status ≠ .running then s
  else match s.wordFlush k rs with
    | none => s
    | some (s, ticket, race) =>
      let fails := rs.filterMap Resolved.failure ++ (rs.filter (fun r => r.isParked && t.kind = .distaff)).map
        (fun r => (r.req.lane, r.cause.1, r.cause.2, r.req.va.toNat))
      let s := if race = 0 then s else s.defer k ⟨0x0D, race, 0, t.active, 0, false, none, none⟩
      let s := (s.settleLooks k rs).mapThread k (fun t => t.mapProducer p.id (fun q =>
        { q with await := .none, left := q.left - fails.length, failed := q.failed ++ fails }))
      let s := s.sendLanes k p.id rs ticket
      if parked.isEmpty then s
      else
        let (s, answers) := s.reportPages k 1 p.hdr parked (.word k)
        s.mapThread k (fun t => { t with
          status := .parked, park := some ⟨parked.map (·.req), p.id, false, answers, true⟩ })

/-- POLL_REPERFORM, R286: the accesses of a polling load or SWAITGE whose condition did not hold are performed again, and all of one
that a save has cancelled (R441). -/
def execPollReperform (agent id : Nat) (s : State) : Out :=
  .next (match (s.thread agent).findProducer id with
    | some p =>
      (match p.await with
      | .poll [] => s.reissue agent p p.reqs
      | .poll l => s.reissue agent p (p.reqs.filter (fun q => l.any (fun a => a.lane == q.lane)))
      | _ => s)
    | none => s)

/-! ## Atomics (R288, R289) -/

/-- VATOM, R288 to R290. -/
def execVatom (o : BitVec 3) (d : BitVec 7) (a : BitVec 7) (x : Bool) (ty : BitVec 3) (r : BitVec 2) (sc : BitVec 2) (s : State) :
    Out :=
  let n := if atomWidth ty.toNat = 64 then 2 else 1
  let m := if o = 7 then 2 * n else n
  let srcs := groupV a 2 x ++ groupV d m false
  .next (s.issue (fun t =>
    { role := .vector, illegal := t.badDest d m (n = 2) || t.badV a 2 true, lanes := true, ends := !t.tx.live, reads := srcs,
      vdests := destsV d n })
    (fun s =>
      let t := s.th
      let q := t.cleanLanes srcs
      let op (l : Nat) : AccOp := .atomic o.toNat ty.toNat (t.regs.lanesValue d.toNat l n (4 * n))
        (t.regs.lanesValue (d.toNat + n) l n (4 * n)) t.rm
      s.memWord ⟨q.1.map (fun l => ⟨l, t.pointer a l, op l, 4 * n, sc.toNat, true⟩), q.2,
        ⟨false, d.toNat, n, 4 * n, false⟩, [], destsV d n, orderOf r.toNat sc.toNat, false, false, false⟩))

/-- SATOM, R288 to R290: the result of a 32-bit type is extended by its type. -/
def execSatom (o : BitVec 3) (d : BitVec 7) (a : BitVec 7) (x : Bool) (ty : BitVec 3) (r : BitVec 2) (sc : BitVec 2) (s : State) :
    Out :=
  let n := atomWidth ty.toNat / 8
  .next (s.issue (fun t =>
    { distaff := true, illegal := o = 7 && badS d 2, ends := !t.tx.live,
      reads := [t.srcS a x, t.srcS d false] ++ (if o = 7 then [⟨false, t.abs d + 1, false, true⟩] else []),
      sdests := [t.abs d] })
    (fun s =>
      let t := s.th
      let op : AccOp := .atomic o.toNat ty.toNat ((t.valS d).toNat % 2 ^ (8 * n)) ((t.regs.s (t.abs d + 1)).toNat % 2 ^ (8 * n)) t.rm
      s.memWord ⟨[⟨t.scalarLane, t.valS a, op, n, sc.toNat, true⟩], [], ⟨true, t.abs d, 1, n, ty = 1⟩, [t.abs d], [],
        orderOf r.toNat sc.toNat, false, false, false⟩))

/-! ## Fences (R291) -/

/-- Has the thread a load or atomic that has not been performed? -/
def Thread.loadsOut (t : Thread) : Bool := t.producers.any (fun p => !p.store && (p.left != 0 || p.await != .none))

/-- Has the group a store in the replay queue? -/
def State.inReplay (s : State) (k : Nat) : Bool :=
  let t := s.thread k
  t.kind = .group && (s.core t.ident.core).replay.any (fun r => r.agent == k)

/-- The acquire half of a fence. -/
def State.fenceAcquire (s : State) (scope : Nat) : Res :=
  let k := s.work.cur
  if s.th.loadsOut || (2 ≤ scope && s.inReplay k) || !(s.acquireReady k scope) then .stay s
  else .done (s.acquireNow k scope)

/-- FENCE, R291. -/
def execFence (o : BitVec 2) (sc : BitVec 2) (s : State) : Out :=
  let r := orderOf o.toNat sc.toNat
  .next (s.issue (fun _ => { distaff := true })
    (fun s =>
      if s.th.acqPending then .stay s
      else if r.rel then s.afterRelease r.scope (fun s => if r.acq then s.fenceAcquire r.scope else .done s)
      else s.fenceAcquire r.scope))

/-! ## Scratchpad (R282) -/

/-- The logical address of a lane. -/
def Thread.scratchAddr (t : Thread) (a b : BitVec 7) (l : Nat) : Word :=
  t.valS b + BitVec.ofNat 64 (t.regs.v a.toNat l).toNat

/-- R282: the failure of a lane's address, if any: lane, cause, reason, address. -/
def Team.scratchFault (m : Team) (l n : Nat) (va : Word) : Option (Nat × Nat × Nat × Nat) :=
  if va.toNat % n ≠ 0 then some (l, 0x06, 0, va.toNat)
  else if !(m.holds va.toNat n) then some (l, 0x08, 6, va.toNat)
  else Option.none

/-- A scratchpad access of the current group waits behind its acquires and its matrix operations (R268, R283). -/
def State.scratchWaits (s : State) : Bool :=
  s.th.acqPending || (s.core s.th.ident.core).mxq.any (fun j => j.members.contains s.work.cur)

/-- XLD, R282. -/
def execXld (m : BitVec 2) (z : Bool) (d : BitVec 7) (a : BitVec 7) (b : BitVec 7) (x : Bool) (y : Bool) (s : State) : Out :=
  let n := if z then 4 else 1
  let srcs : List Src := [srcV a x]
  .next (s.issue (fun t =>
    { role := .vector, illegal := t.badDest d n || t.badV a 1, lanes := true, reads := srcs ++ [t.srcS b y], vdests := destsV d n })
    (fun s =>
      if s.scratchWaits then .stay s
      else
        let t := s.th
        let g := s.tm
        let q := t.cleanLanes srcs
        let at_ (l : Nat) : Nat := (t.scratchAddr a b l).toNat
        let fs := q.2.foldl (fun l i => insertFail l (i, 0x10, 1, 0))
          (q.1.filterMap (fun l => g.scratchFault l (4 * n) (t.scratchAddr a b l)))
        let good := q.1.filter (fun l => (g.scratchFault l (4 * n) (t.scratchAddr a b l)).isNone)
        if good.isEmpty then failRes s fs
        else
          let form : Form := ⟨false, d.toNat, n, 4 * n, false⟩
          let vals := good.flatMap (fun l => form.values l (ofBytes (g.sbytes m.toNat (at_ l) (4 * n))))
          let poison := good.flatMap (fun l => (upto n).filterMap (fun i =>
            if g.spoisoned m.toNat (at_ l + 4 * i) 4 then some (Dest.v (d.toNat + i) l) else none))
          failRes (s.mapTh (fun t => t.produce { t.producer form [] (destsV d n) with vals := vals, poison := poison })) fs))

/-- XST, R282: lanes store in rising order. -/
def execXst (m : BitVec 2) (z : Bool) (d : BitVec 7) (a : BitVec 7) (b : BitVec 7) (x : Bool) (y : Bool) (s : State) : Out :=
  let n := if z then 4 else 1
  let srcs : List Src := [srcV a x]
  .next (s.issue (fun t =>
    { role := .vector, illegal := t.badV d n || t.badV a 1, lanes := true, reads := srcs ++ [t.srcS b y] ++ dataV d n })
    (fun s =>
      if s.scratchWaits then .stay s
      else
        let t := s.th
        let g := s.tm
        let q := t.cleanLanes srcs
        let fs := q.2.foldl (fun l i => insertFail l (i, 0x10, 1, 0))
          (q.1.filterMap (fun l => g.scratchFault l (4 * n) (t.scratchAddr a b l)))
        let good := q.1.filter (fun l => (g.scratchFault l (4 * n) (t.scratchAddr a b l)).isNone)
        let write (g : Team) (l : Nat) : Team :=
          g.storeScratch m.toNat (t.scratchAddr a b l).toNat (toBytes (t.regs.lanesValue d.toNat l n (4 * n)) (4 * n))
            (t.regs.lanesBad d.toNat l n (4 * n))
        failRes (s.mapTeam t.ident.team (fun g => good.foldl write g)) fs))

/-! ## Landing (R150) -/

/-- Can a producer land: its values are there, and no parked lane of its word is left? -/
def Thread.lands (t : Thread) (p : Producer) : Bool :=
  p.left == 0 && p.await == .none && (match t.park with
    | some k => k.prod != p.id || k.fetch
    | none => true)

/-- R309: the pages of a record's first eight tiles are translated into the core's walk-ahead TLB; a fault is discarded. -/
def State.walkAhead (s : State) (t : Thread) (r : TRec) : State :=
  let x : Space := engineSpace t.ident.core t.xltRoot (bitsAt t.xltAsid 0 16) t.priv
  ((upto (min 8 r.tileCount)).flatMap (fun n => r.pages (r.tileAt n))).foldl (fun (s : State) va =>
    (s.lookNow x .read (BitVec.ofNat 64 va) 1).2) s

/-- The record that a landed TRECLD puts into its slot (R309). -/
def State.landRecord (s : State) (t : Thread) (p : Producer) : State :=
  let ws := p.vals.filterMap (fun v => match v.1 with
    | .slot k _ => some (k, v.2)
    | _ => none)
  match ws with
  | [] => s
  | (k, _) :: _ =>
    let w := ws.map (·.2)
    (s.mapTeam t.ident.team (fun g => { g with recSlots := g.recSlots.put k w })).walkAhead t (TRec.ofWords w)

/-- The trap of a word's failed lanes (R384): cause and reason of the lowest, the lanes with that cause, and `MORE`. -/
def failLater (fs : List (Nat × Nat × Nat × Nat)) (hdr rsm : Option Word) : Option Later :=
  match fs with
  | [] => none
  | (_, c, r, va) :: _ =>
    let same := fs.filter (fun f => f.2.1 == c)
    some ⟨c, r, 0, maskOf (same.map (·.1)), faultVa c va, same.length != fs.length, hdr, rsm⟩

/-- LONG_LATENCY_LANDING, R150, R271, R283, R384: the destinations become full together; an acquire makes its action; lanes that
failed are named in one trap, which resumes at the word after theirs (R386). -/
def execLongLatencyLanding (agent id : Nat) (s : State) : Out :=
  .next (match (s.thread agent).findProducer id with
    | none => s
    | some p =>
      let t := s.thread agent
      if !(t.lands p) || (p.order.acq && !(s.acquireReady agent p.order.scope)) then s
      else
        let s := (s.mapThread agent (fun t => t.landProducer p)).landRecord t p
        let s := if p.order.acq then s.acquireNow agent p.order.scope else s
        match failLater (p.failed.foldl insertFail []) (some p.hdr) p.rsm with
        | none => s
        | some l => s.defer agent l)

end Sys2Proof.Machine
end

