-- ==== Sys2Proof/Machine/Sparse.lean ====
section
/-! DEFINITION. Sparse regions (spec/03_sparse_regions.md, R56 to R76, R79): registration, the B-link tree in memory, operations on
coordinates, cursors and sweeps. -/

namespace Sys2Proof.Machine

/-! ## Requests of a tree engine -/

/-- The outcome of a tree engine's work: a new state and a result; a failure, which leaves the region as it was but perhaps marked
broken (R66); or it waits, for a line that its home is serving or for its requests to be admitted (R98). -/
inductive Zr (α : Type) where
  | ok (s : State) (a : α)
  | fail (cause reason : Nat) (broken : Bool)
  | busy (asks : List Msg)

/-- Go on with a result. -/
def Zr.andThen {α β : Type} (z : Zr α) (f : State → α → Zr β) : Zr β :=
  match z with
  | .ok s a => f s a
  | .fail c r b => .fail c r b
  | .busy q => .busy q

/-- Go on once homes have admitted the engine's requests. A lost request is cause 0x10 with reason 3 (R101). -/
def Visit.tree {α : Type} (v : Visit) (s : State) (f : State → Zr α) : Zr α :=
  match v with
  | .go s => f s
  | .wait w => .busy (w.sentAfter s)
  | .lost _ => .fail 0x10 3 false

/-- R79: the engine reads bytes at a home for a master. -/
def State.zfetch (s : State) (mid a : Nat) (pa : Word) (n : Nat) : Zr (List (Nat × Bool)) :=
  let p := s.steer a (keyOf pa)
  if (linesOf p.1 n).any s.lineBusy then .busy []
  else (s.visitRange mid p.2 p.1 n).tree s (fun s =>
    .ok (s.readAt a (keyOf pa) n mid) ((s.peek a (keyOf pa) n).zip ((upto n).map (fun i => s.peekPoison (a + i) 1))))

/-- R79: the engine reads bytes for a master; poison fails with a reason of cause 0x10. -/
def State.zread (s : State) (mid : Nat) (pa : Word) (n reason : Nat) : Zr (List Nat) :=
  match s.vet mid .read pa with
  | .error r => .fail 0x09 r false
  | .ok a => (s.zfetch mid a pa n).andThen (fun s l =>
    if l.any (·.2) then .fail 0x10 reason (reason == 2) else .ok s (l.map (·.1)))

/-- R79, R36: the engine writes bytes for a master, as a tree-engine update. -/
def State.zwrite (s : State) (mid : Nat) (pa : Word) (bs : List Nat) : Zr Unit :=
  match s.vet mid .atomic pa with
  | .error r => .fail 0x09 r false
  | .ok a =>
    let p := s.steer a (keyOf pa)
    if s.pokeReady a bs.length then (s.visitRange mid p.2 p.1 bs.length).tree s (fun s => .ok (s.poke a (keyOf pa) bs mid) ())
    else .busy []

/-! ## Regions -/

/-- Bytes of a value (Table 3.1). -/
def Region.vsize (r : Region) : Nat := 4 * 2 ^ r.vsz

/-- Bits of a key (R62). -/
def Region.keyBits (r : Region) : Nat := r.widths.foldl (· + ·) 0

/-- Write a region-table entry. -/
def State.putRegion (s : State) (i : Nat) (r : Region) : State :=
  { s with svc := { s.svc with regions := s.svc.regions.put i r } }

/-- A region's entry. -/
def State.region? (s : State) (i : Nat) : Option Region := s.svc.regions.find i

/-- The region of an address space that begins at an address (R61). -/
def State.regionAt (s : State) (asid : Nat) (base : Word) : Option (Nat × Region) :=
  s.svc.regions.find? (fun p => p.2.asid == asid && BitVec.ofNat 64 p.2.base == base)

/-- R56: the serving slice, the home of the descriptor's first line. -/
def State.servingSlice (s : State) (r : Region) : Nat :=
  match s.home r.desc with
  | some a => s.sliceOf a
  | none => 0

/-- The physical address word of a node. -/
def Region.nodeAt (r : Region) (i : Nat) : Word := r.npool + BitVec.ofNat 64 (512 * i)

/-- The physical address word of a value slot. -/
def Region.slotAt (r : Region) (j : Nat) : Word := r.vpool + BitVec.ofNat 64 (j * r.vsize)

/-! ## Nodes (R63 to R66) -/

/-- A leaf entry (Table 3.6). -/
structure Entry where
  key : Nat
  vslot : Nat
  birth : Nat
  death : Nat
  deriving DecidableEq, Repr

/-- No sibling; an entry that lives. -/
def none32 : Nat := 2 ^ 32 - 1

/-- A node: a leaf's entries, or an interior node's keys and children. -/
structure Node where
  self : Nat
  level : Nat
  high : Nat
  hinf : Bool
  right : Nat
  entries : List Entry
  keys : List Nat
  kids : List Nat
  deriving DecidableEq, Repr

/-- A little-endian field of a list of bytes. -/
def field (bs : List Nat) (i n : Nat) : Nat := ofBytes ((bs.drop i).take n)

/-- The entries of a leaf's bytes. -/
def leafEntries (bs : List Nat) (n : Nat) : List Entry :=
  (upto n).map (fun e =>
    let o := 32 + 24 * e
    ⟨field bs o 8, field bs (o + 8) 4, field bs (o + 12) 4, field bs (o + 16) 4⟩)

/-- Strictly ascending numbers. -/
def ascending : List Nat → Bool
  | a :: b :: r => decide (a < b) && ascending (b :: r)
  | _ => true

/-- The order of leaf entries: key, then birth. -/
def Entry.rank (e : Entry) : Nat := e.key * 2 ^ 32 + e.birth

/-- R66: a node's bytes, checked; none where a check fails. -/
def Region.parse (r : Region) (i level : Nat) (bs : List Nat) : Option Node :=
  let count := field bs 12 2
  let right := field bs 8 4
  let flags := field bs 15 1
  let head := field bs 16 4 = i && field bs 14 1 = level && flags < 2 && field bs 20 12 = 0
    && (right = none32 || right < r.ncnt)
  let nd : Node := ⟨i, level, field bs 0 8, flags == 1, right, [], [], []⟩
  if !head then Option.none
  else if level = 0 then
    let es := leafEntries bs (min count 20)
    if count ≤ 20 && ascending (es.map Entry.rank) && es.all (fun e => e.vslot < r.vcnt)
        && (upto count).all (fun e => field bs (32 + 24 * e + 20) 4 == 0)
        && field bs (32 + 24 * count) (480 - 24 * count) = 0 then
      some { nd with entries := es }
    else Option.none
  else
    let ks := (upto (min count 30)).map (fun k => field bs (32 + 8 * k) 8)
    let cs := (upto (min count 30 + 1)).map (fun k => field bs (272 + 4 * k) 4)
    if 1 ≤ count && count ≤ 30 && ascending ks && cs.all (fun c => c < r.ncnt) && field bs 396 116 = 0 then
      some { nd with keys := ks, kids := cs }
    else Option.none

/-- Zero bytes. -/
def zeros (n : Nat) : List Nat := List.replicate n 0

/-- Bytes padded with zeros to a length. -/
def padTo (n : Nat) (l : List Nat) : List Nat := l ++ zeros (n - l.length)

/-- The bytes of a node (Tables 3.5 and 3.6). -/
def Node.bytes (nd : Node) : List Nat :=
  let count := if nd.level = 0 then nd.entries.length else nd.keys.length
  let head := toBytes nd.high 8 ++ toBytes nd.right 4 ++ toBytes count 2 ++ [nd.level, bit nd.hinf] ++ toBytes nd.self 4 ++ zeros 12
  if nd.level = 0 then
    padTo 512 (head ++ nd.entries.flatMap (fun e =>
      toBytes e.key 8 ++ toBytes e.vslot 4 ++ toBytes e.birth 4 ++ toBytes e.death 4 ++ zeros 4))
  else padTo 512 (padTo 272 (head ++ nd.keys.flatMap (fun k => toBytes k 8)) ++ nd.kids.flatMap (fun c => toBytes c 4))

/-- Read and check a node. -/
def State.readNode (s : State) (mid : Nat) (r : Region) (i level : Nat) : Zr Node :=
  if r.ncnt ≤ i then .fail 0x10 2 true
  else (s.zread mid (r.nodeAt i) 512 2).andThen (fun s bs =>
    match r.parse i level bs with
    | some nd => .ok s nd
    | none => .fail 0x10 2 true)

/-- R76: the reclaim bound. -/
def State.bound (s : State) (i : Nat) (r : Region) : Nat :=
  let pins := (s.svc.cursors.filter (fun c => c.2.region == i)).map (fun c => c.2.gen) ++ r.pins.map (·.2)
  pins.foldl min r.lwm

/-- R76: is an entry reclaimable at a bound? -/
def Entry.reclaimable (e : Entry) (p : Nat) : Bool := e.death ≤ p || e.birth == e.death

/-- Write a node. A leaf loses its reclaimable entries, whose value slots return to the free list (R71, R76). -/
def State.writeNode (s : State) (mid i : Nat) (r : Region) (nd : Node) : Zr Region :=
  let p := s.bound i r
  let gone := nd.entries.filter (fun e => e.reclaimable p)
  let nd := { nd with entries := nd.entries.filter (fun e => !(e.reclaimable p)) }
  let r := { r with vfree := gone.foldl (fun l e => insertNat l e.vslot) r.vfree }
  (s.zwrite mid (r.nodeAt nd.self) nd.bytes).andThen (fun s _ => .ok s r)

/-! ## Descents (R73) -/

/-- The child of an interior node that covers a key. -/
def Node.childFor (nd : Node) (k : Nat) : Nat := nth nd.kids ((nd.keys.filter (fun q => q ≤ k)).length) 0

/-- Descend to the leaf that covers a key, with the interior nodes passed, lowest first. A tree of `ncnt` nodes is descended in
at most `ncnt` and its height in moves. -/
def State.descend (s : State) (mid : Nat) (r : Region) (k : Nat) : Nat → Nat → Nat → List Node → Zr (Node × List Node)
  | 0, _, _, _ => .fail 0x10 2 true
  | n + 1, i, level, path =>
    (s.readNode mid r i level).andThen (fun s nd =>
      if !nd.hinf && nd.high ≤ k then s.descend mid r k n nd.right level path
      else if level = 0 then .ok s (nd, path)
      else s.descend mid r k n (nd.childFor k) (level - 1) (nd :: path))

/-- Descend from the root. -/
def State.leafFor (s : State) (mid : Nat) (r : Region) (k : Nat) : Zr (Node × List Node) :=
  s.descend mid r k (r.ncnt + r.hgt + 1) r.root r.hgt []

/-- The live entry of a key (R67). -/
def Node.live (nd : Node) (k : Nat) : Option Entry := nd.entries.find? (fun e => e.key == k && e.death == none32)

/-- The value in a slot. -/
def State.slotValue (s : State) (mid : Nat) (r : Region) (j : Nat) : Zr (List Nat) := s.zread mid (r.slotAt j) r.vsize 1

/-! ## Insertion and splits (R71, R72) -/

/-- Insert an entry in order. -/
def insertEntry (e : Entry) : List Entry → List Entry
  | [] => [e]
  | f :: r => if e.rank < f.rank then e :: f :: r else f :: insertEntry e r

/-- R72: the split key of a full leaf. -/
def splitKey (es : List Entry) : Option Nat :=
  let k0 := match es with
    | e :: _ => e.key
    | [] => 0
  let k10 := (nth es 10 ⟨k0, 0, 0, 0⟩).key
  if k10 ≠ k0 then some k10 else (es.find? (fun e => k0 < e.key)).map (·.key)

/-- Insert a key and a child to the right of a child's place. -/
def Node.addChild (nd : Node) (old k new : Nat) : Option Node :=
  (placeOf (fun c => c == old) nd.kids 0).map (fun p =>
    { nd with keys := nd.keys.take p ++ k :: nd.keys.drop p, kids := nd.kids.take (p + 1) ++ new :: nd.kids.drop (p + 1) })

/-- R72, step 5: the parents learn of a split, splitting in turn; at the root's split a new root is made. -/
def State.linkParent (s : State) (mid i : Nat) (r : Region) (level old k new : Nat) : List Node → Zr Region
  | [] =>
    let root : Node := ⟨r.nnext, level, 0, true, none32, [], [k], [old, new]⟩
    (s.writeNode mid i { r with nnext := r.nnext + 1 } root).andThen (fun s r =>
      .ok s { r with root := root.self, hgt := level })
  | p :: ps =>
    if p.keys.length < 30 then
      match p.addChild old k new with
      | some p => s.writeNode mid i r p
      | none => .fail 0x10 2 true
    else
      let up := nth p.keys 15 0
      let n := r.nnext
      let rest : Node := { p with self := n, keys := p.keys.drop 16, kids := p.kids.drop 16 }
      let here : Node := { p with keys := p.keys.take 15, kids := p.kids.take 16, high := up, hinf := false, right := n }
      let pair := if here.kids.contains old then (here.addChild old k new, some rest) else (some here, rest.addChild old k new)
      match pair with
      | (some here, some rest) =>
        (s.writeNode mid i { r with nnext := n + 1 } rest).andThen (fun s r =>
          (s.writeNode mid i r here).andThen (fun s r => s.linkParent mid i r (level + 1) p.self up n ps))
      | _ => .fail 0x10 2 true

/-- The value slot that comes next (R71: lowest index first, the free list before the allocator). -/
def Region.takeSlot (r : Region) : Option (Nat × Region) :=
  match r.vfree with
  | j :: rest => some (j, { r with vfree := rest })
  | [] => if r.vnext < r.vcnt then some (r.vnext, { r with vnext := r.vnext + 1 }) else Option.none

/-- R70 to R72: insert an entry of a key into its leaf, whose live entry has been killed in `nd`. -/
def State.insert (s : State) (mid i : Nat) (r : Region) (nd : Node) (path : List Node) (k : Nat) (v : List Nat) : Zr Region :=
  match r.takeSlot with
  | none => .fail 0x0A 2 false
  | some (j, r1) =>
    if r.ncnt < r.nnext + r.hgt + 2 then .fail 0x0A 1 false
    else
      let e : Entry := ⟨k, j, r.cur, none32⟩
      let p := s.bound i r
      let kept := nd.entries.filter (fun e => !(e.reclaimable p))
      (s.zwrite mid (r.slotAt j) v).andThen (fun s _ =>
        if kept.length < 20 then s.writeNode mid i r1 { nd with entries := insertEntry e nd.entries }
        else match splitKey kept with
          | none => .fail 0x0A 3 false
          | some ks =>
            let n := r1.nnext
            let low := kept.filter (fun e => e.key < ks)
            let hi := kept.filter (fun e => ks ≤ e.key)
            let rest : Node := { nd with self := n, entries := if ks ≤ k then insertEntry e hi else hi }
            let here : Node := { nd with
              entries := if ks ≤ k then low else insertEntry e low, high := ks, hinf := false, right := n }
            (s.writeNode mid i { r1 with nnext := n + 1 } rest).andThen (fun s r =>
              (s.writeNode mid i r here).andThen (fun s r => s.linkParent mid i r 1 nd.self ks n path)))

/-- R70: kill the live entry of a key at the current generation. -/
def Node.kill (nd : Node) (k cur : Nat) : Node :=
  { nd with entries := nd.entries.map (fun e => if e.key = k && e.death = none32 then { e with death := cur } else e) }

/-- R70: store a value under a key. -/
def State.zstore (s : State) (mid i : Nat) (r : Region) (nd : Node) (path : List Node) (k : Nat) (v : List Nat) : Zr Region :=
  let live := nd.live k
  if v.all (fun b => b == 0) then
    match live with
    | some _ => s.writeNode mid i r (nd.kill k r.cur)
    | none => .ok s r
  else
    match live with
    | some e =>
      if e.birth = r.cur then (s.zwrite mid (r.slotAt e.vslot) v).andThen (fun s _ => .ok s r)
      else s.insert mid i r (nd.kill k r.cur) path k v
    | none => s.insert mid i r nd path k v

/-- R294: the operations of ZATOM on values of 4 or 8 bytes. -/
def zatomOp (op : Nat) (n : Nat) (md : Mode) (old v : Nat) : Nat :=
  let lt (a b : Nat) : Bool := decide (signedOf n a < signedOf n b)
  match op with
  | 0 => (old + v) % 2 ^ n
  | 1 => fadd (if n = 64 then .f64 else .f32) md old v
  | 2 => if lt v old then v else old
  | 3 => if lt old v then v else old
  | 4 => min old v
  | 5 => max old v
  | 6 => old ||| v
  | _ => old ^^^ v

/-- A coordinate operation of one lane. -/
inductive ZOp where
  | read
  | store (v : List Nat)
  | atomic (op : Nat) (md : Mode) (v : Nat)

/-- R69 to R72: one operation on one key, atomically: the value read, and the region after. -/
def State.zop (s : State) (mid i : Nat) (r : Region) (k : Nat) (o : ZOp) : Zr (Region × List Nat) :=
  (s.leafFor mid r k).andThen (fun s p =>
    let old (s : State) : Zr (List Nat) := match p.1.live k with
      | some e => s.slotValue mid r e.vslot
      | none => .ok s (zeros r.vsize)
    match o with
    | .read => (old s).andThen (fun s v => .ok s (r, v))
    | .store v => (s.zstore mid i r p.1 p.2 k v).andThen (fun s r => .ok s (r, []))
    | .atomic op md v => (old s).andThen (fun s bs =>
      let new := zatomOp op (8 * r.vsize) md (ofBytes bs) v
      (s.zstore mid i r p.1 p.2 k (toBytes new r.vsize)).andThen (fun s r => .ok s (r, bs))))

/-! ## Cursors (R74, R75) -/

/-- The lowest entry of the leaves from one on that a generation sees at or above a key. -/
def State.scan (s : State) (mid : Nat) (r : Region) (k g : Nat) : Nat → Node → Zr (Option Entry)
  | 0, _ => .fail 0x10 2 true
  | n + 1, nd =>
    match nd.entries.find? (fun e => k ≤ e.key && e.birth ≤ g && g < e.death) with
    | some e => .ok s (some e)
    | none =>
      if nd.hinf || nd.right = none32 then .ok s Option.none
      else (s.readNode mid r nd.right 0).andThen (fun s nd => s.scan mid r k g n nd)

/-- R75: the entry a generation sees with the smallest key at or above a bound, with its value. -/
def State.zstep (s : State) (mid : Nat) (r : Region) (k g : Nat) : Zr (Option (Nat × List Nat)) :=
  (s.leafFor mid r k).andThen (fun s p =>
    (s.scan mid r k g (r.ncnt + 1) p.1).andThen (fun s e =>
      match e with
      | some e => (s.slotValue mid r e.vslot).andThen (fun s v => .ok s (some (e.key, v)))
      | none => .ok s Option.none))

/-- The value that a generation sees of one key, each byte with its poison, zero where the key is absent; generation 0 is the live one
(R77). None where the home denies the value: copying poison consumes nothing (R115). -/
def State.zvalueAt (s : State) (mid : Nat) (r : Region) (k g : Nat) : Zr (Option (List (Nat × Bool))) :=
  (s.leafFor mid r k).andThen (fun s p =>
    match p.1.entries.find? (fun e => e.key == k && (if g = 0 then e.death == none32 else e.birth ≤ g && g < e.death)) with
    | some e => (match s.vet mid .read (r.slotAt e.vslot) with
      | .error _ => .ok s Option.none
      | .ok a => (s.zfetch mid a (r.slotAt e.vslot) r.vsize).andThen (fun s v => .ok s (some v)))
    | none => .ok s (some ((zeros r.vsize).map (fun b => (b, false)))))

/-- The region of a cursor handle and the cursor's key, where the handle names an open cursor of a launch (R74, Table 13.4). -/
def State.cursorOf (s : State) (h : Word) (lnum : Nat) : Option (Nat × Region × Nat) :=
  let i := bitsAt h 48 8
  match s.region? i with
  | none => Option.none
  | some r =>
    let key := 64 * s.servingSlice r + bitsAt h 40 6
    match s.svc.cursors.find key with
    | some c => if c.region = i && c.gen = bitsAt h 0 32 && c.lnum = lnum then some (key, r, c.gen) else Option.none
    | none => Option.none

/-- Close a cursor. -/
def State.closeCursor (s : State) (key : Nat) : State :=
  { s with svc := { s.svc with cursors := s.svc.cursors.del key } }

/-! ## Registration (R57 to R60) -/

/-- Is a range of home class 5 covered by enabled windows (R411)? There are sixteen. -/
def State.windowsCover (s : State) : Nat → Nat → Nat → Bool
  | 0, a, e => decide (e ≤ a)
  | n + 1, a, e =>
    if e ≤ a then true
    else match s.cxlWindow a with
      | some w =>
        let v := s.pkg.cxlWin.getD w 0
        s.windowsCover n ((bitsAt v 30 16 + bitsAt v 14 16) * 2 ^ 30) e
      | none => false

/-- Is every byte of a range of home class 4 backed (R25)? Each of the four sets holds its installed modules from its first byte on. -/
def State.modulesCover (s : State) (a e : Nat) : Bool :=
  let size := 384 * 2 ^ 30
  decide (e ≤ 4 * size) && (upto 4).all (fun k =>
    let last := min e ((k + 1) * size)
    decide (last ≤ max a (k * size)) || s.lpddrBacked (last - 1))

/-- R59: may a range of a pool or descriptor serve: homed in this package, class 0 to 5, and backed from end to end? -/
def State.homedRange (s : State) (pa : Word) (n : Nat) : Bool :=
  let a := bitsAt pa 0 46
  bitsAt pa 46 3 < 6 && (s.home pa).isSome && (match bitsAt pa 46 3 with
    | 4 => s.modulesCover a (a + n)
    | 5 => s.windowsCover 17 a (a + n)
    | _ => decide (a + n ≤ dieBytes))

/-- R59: is a descriptor malformed? -/
def State.descBad (s : State) (desc : Word) (w : List Word) : Bool :=
  let g (i : Nat) : Word := nth w i 0
  let ndim := bitsAt (g 0) 58 2 + 1
  let widths := (upto 4).map (fun k => bitsAt (g 1) (8 * k) 8)
  let used := widths.take ndim
  let ncnt := bitsAt (g 5) 0 32
  let vcnt := bitsAt (g 5) 32 32
  let vsize := 4 * 2 ^ bitsAt (g 0) 60 4
  6 < bitsAt (g 0) 60 4 || bitsAt (g 0) 56 2 ≠ 0 || bitsAt (g 0) 0 12 ≠ 0 || bitsAt (g 1) 32 16 ≠ 0
    || bitsAt (g 2) 56 8 ≠ 0 || bitsAt (g 2) 0 56 = 0 || bitsAt (g 2) 0 12 ≠ 0
    || bitsAt (g 3) 0 9 ≠ 0 || bitsAt (g 4) 0 8 ≠ 0
    || ncnt = 0 || ncnt = none32 || vcnt = 0 || g 6 != 0 || g 7 != 0
    || 64 < used.foldl (· + ·) 0 || used.any (fun x => x == 0 || decide (64 < x)) || (widths.drop ndim).any (fun x => x != 0)
    || 2 ^ 56 < bitsAt (g 0) 0 56 + bitsAt (g 2) 0 56
    || !(s.homedRange desc 64) || !(s.homedRange (g 3) (512 * ncnt)) || !(s.homedRange (g 4) (vsize * vcnt))

/-- The home ranges that a region's descriptor and pools occupy. -/
def Region.spans (r : Region) : List (Nat × Nat) :=
  [(bitsAt r.desc 0 52, 64), (bitsAt r.npool 0 52, 512 * r.ncnt), (bitsAt r.vpool 0 52, r.vsize * r.vcnt)]

/-- R59: does a new region overlap a registered one? -/
def Region.overlaps (a b : Region) : Bool :=
  (a.asid == b.asid && a.base < b.base + b.len && b.base < a.base + a.len)
    || a.spans.any (fun x => b.spans.any (fun y => x.1 < y.1 + y.2 && y.1 < x.1 + x.2))

/-- The region that a descriptor describes, as registration makes it (R59). -/
def Region.ofWords (desc : Word) (w : List Word) : Region :=
  let g (i : Nat) : Word := nth w i 0
  { desc := desc, base := bitsAt (g 0) 0 56, len := bitsAt (g 2) 0 56, asid := bitsAt (g 1) 48 16, vsz := bitsAt (g 0) 60 4,
    widths := ((upto 4).map (fun k => bitsAt (g 1) (8 * k) 8)).take (bitsAt (g 0) 58 2 + 1),
    npool := g 3, vpool := g 4, ncnt := bitsAt (g 5) 0 32, vcnt := bitsAt (g 5) 32 32, cur := 1, lwm := 1, root := 0,
    hgt := 0, nnext := 1, vnext := 0, vfree := [], broken := false, pins := [], sweep := Option.none }

/-- The little-endian 64-bit words of bytes. -/
def wordsOf (bs : List Nat) (n : Nat) : List Word := (upto n).map (fun i => BitVec.ofNat 64 (field bs (8 * i) 8))

/-- R59: register the region of a descriptor for a master: `ST` and the table index. -/
def State.zregister (s : State) (mid : Nat) (desc : Word) : Zr (Nat × Nat) :=
  if !(s.homedRange desc 64) then .ok s (2, 0)
  else (s.zread mid desc 64 1).andThen (fun s bs =>
    let w := wordsOf bs 8
    let r := Region.ofWords desc w
    let i := s.svc.regions.free 0 256
    if s.descBad desc w then .ok s (2, 0)
    else if s.svc.regions.any (fun p => r.overlaps p.2) then .ok s (3, 0)
    else if 256 ≤ i then .ok s (1, 0)
    else
      let leaf : Node := ⟨0, 0, 0, true, none32, [], [], []⟩
      (s.zwrite mid (r.nodeAt 0) leaf.bytes).andThen (fun s _ => .ok (s.putRegion i r) (0, i)))

/-- R60: unregister the region of a descriptor. -/
def State.zunregister (s : State) (mid : Nat) (desc : Word) : Zr (Nat × Nat) :=
  match s.svc.regions.find? (fun p => p.2.desc == desc) with
  | none => .ok s (5, 0)
  | some (i, r) =>
    let densify (c : Cmd) : Bool := c.q < 4 && bitsAt (nth c.words 0 0) 56 8 == 0x30 && c.asid == r.asid
      && nth c.words 1 0 == BitVec.ofNat 64 r.base
    if s.svc.cursors.any (fun c => c.2.region == i) || !r.pins.isEmpty || s.svc.cmds.any densify then .ok s (4, 0)
    else
      let w6 := r.cur * 2 ^ 32 + r.lwm
      let w7 := r.root * 2 ^ 32 + r.hgt * 2 ^ 24
      (s.zwrite mid (desc + 48) (toBytes w6 8 ++ toBytes w7 8)).andThen (fun s _ =>
        .ok { s with svc := { s.svc with regions := s.svc.regions.del i } } (0, i))

/-- R58: a write of `ZRG.REG` for the current thread: `ZRG.STAT` receives the result; a denied access raises its trap. The word
waits while a line it needs is being served. -/
def State.writeZrg (s : State) (v : Word) : Res :=
  let mid := s.th.mid
  let desc := BitVec.ofNat 64 (bitsAt v 6 56 * 64)
  let z := match bitsAt v 62 2 with
    | 0 => s.zregister mid desc
    | 1 => s.zunregister mid desc
    | _ => .ok s (2, 0)
  match z with
  | .busy q => .stay (s.await q)
  | .fail c r _ => .moved (s.trapHere c r)
  | .ok s (st, i) => .done (s.mapTh (fun t => { t with res := { t.res with
      zrgStat := BitVec.ofNat 64 (st * 2 ^ 60 + (if st = 0 then i else 0)) } }))

/-! ## Sweeps (R76) -/

/-- One leaf of a sweep: the region after, with the leaf that comes next. -/
def State.sweepLeaf (s : State) (i : Nat) (r : Region) (mid : Nat) (at_ : Option Nat) : Zr Region :=
  let leaf := match at_ with
    | some n => s.readNode mid r n 0
    | none => (s.leafFor mid r 0).andThen (fun s p => .ok s p.1)
  leaf.andThen (fun s nd =>
    let next : Option (Nat × Option Nat) :=
      if nd.hinf || nd.right = none32 then Option.none else some (mid, some nd.right)
    if nd.entries.any (fun e => e.reclaimable (s.bound i r)) then
      (s.writeNode mid i r nd).andThen (fun s r => .ok s { r with sweep := next })
    else .ok s { r with sweep := next })

/-- RECLAIM_SWEEP, R76: the background sweep visits its next leaf. -/
def execReclaimSweep (region : Nat) (s : State) : Out :=
  .next (match s.region? region with
    | none => s
    | some r =>
      match r.sweep with
      | none => s
      | some (mid, at_) =>
        if r.broken then s.putRegion region { r with sweep := Option.none }
        else match s.sweepLeaf region r mid at_ with
          | .ok s r => s.putRegion region r
          | .busy q => s.await q
          | .fail _ _ b => s.putRegion region { r with sweep := Option.none, broken := b })

/-! ## Coordinate instructions (R292 to R297) -/

/-- What a coordinate lane's operation left: values for lanes, and failures. -/
structure ZLanes where
  vals : List (Nat × List Nat)
  fails : List (Nat × Nat × Nat × Nat)
  deriving DecidableEq, Repr

/-- The lanes of a coordinate word that names the address `va`, in rising order (R69). -/
def State.zlanes (s : State) (mid i va : Nat) (op : Nat → ZOp) (key : Nat → Nat) : List Nat → ZLanes → Zr ZLanes
  | [], z => .ok s z
  | l :: ls, z =>
    match s.region? i with
    | none => .ok s z
    | some r =>
      let fail (s : State) (c e : Nat) : Zr ZLanes :=
        s.zlanes mid i va op key ls { z with fails := z.fails ++ [(l, c, e, va)] }
      if r.broken then fail s 0x10 2
      else if 2 ^ r.keyBits ≤ key l then fail s 0x07 8
      else match s.zop mid i r (key l) (op l) with
        | .busy q => .busy q
        | .fail c e b => fail (if b then s.putRegion i { r with broken := true } else s) c e
        | .ok s (r, v) => (s.putRegion i r).zlanes mid i va op key ls { z with vals := z.vals ++ [(l, v)] }

/-- A lane's key (R292). -/
def Thread.laneKey (t : Thread) (a : BitVec 7) (l : Nat) : Nat := (t.regs.v64 a.toNat l).toNat

/-- R384, R386: every lane of a coordinate word fails alike; `va` is the address it names, which an address fault reports (log entry 46). -/
def State.zfails (s : State) (c e : Nat) (va : Word) : Res := .lanes s c e s.th.active (faultVa c va.toNat) false

/-- R292: a vector coordinate word: its region by `sb`, the operation of each lane, the registers of a value. `nv` registers of
`d` receive the values of the lanes performed. -/
def State.zword (s : State) (d a b : BitVec 7) (srcs : List Src) (loads : Bool) (legal : Region → Bool) (op : Nat → ZOp) : Res :=
  let t := s.th
  if t.acqPending then .stay s
  else match s.regionAt (bitsAt t.xltAsid 0 16) (t.valS b) with
    | none => s.zfails 0x07 7 (t.valS b)
    | some (i, r) =>
      let n := r.vsize / 4
      if !(legal r) || (if loads then t.badDest d n (n ≠ 1) else t.badV d n (n ≠ 1)) then .moved (s.trapHere 0x01 0)
      else if (groupV d n false).any t.empty then .stay s
      else
        let q := t.cleanLanes srcs
        match s.zlanes t.mid i (t.valS b).toNat op (t.laneKey a) q.1 ⟨[], []⟩ with
        | .busy w => .stay (s.await w)
        | .fail c e _ => s.zfails c e (t.valS b)
        | .ok s z =>
          let form : Form := ⟨false, d.toNat, n, r.vsize, false⟩
          let s := if loads && !z.vals.isEmpty then
              s.produceValues form [] (destsV d n) (z.vals.map (fun p => (p.1, ofBytes p.2)))
            else s
          failRes s (q.2.foldl (fun l i => insertFail l (i, 0x10, 1, 0)) z.fails)

/-- ZLD, R293. -/
def execZld (d : BitVec 7) (a : BitVec 7) (b : BitVec 7) (x : Bool) (y : Bool) (s : State) : Out :=
  let srcs := groupV a 2 x
  .next (s.issue (fun t =>
    { role := .vector, illegal := t.badDest d 1 || t.badV a 2 true, lanes := true, aborts := true, reads := srcs ++ [t.srcS b y],
      vdests := [d.toNat] })
    (fun s => s.zword d a b srcs true (fun _ => true) (fun _ => .read)))

/-- ZST, R70, R293: a value of zero deletes. A poisoned value is consumed (R272). -/
def execZst (d : BitVec 7) (a : BitVec 7) (b : BitVec 7) (x : Bool) (y : Bool) (s : State) : Out :=
  let srcs := groupV a 2 x
  .next (s.issue (fun t =>
    { role := .vector, illegal := t.badV d 1 || t.badV a 2 true, lanes := true, aborts := true, ends := true,
      reads := srcs ++ [t.srcS b y] ++ dataV d 1 })
    (fun s =>
      let t := s.th
      let n := match s.regionAt (bitsAt t.xltAsid 0 16) (t.valS b) with
        | some (_, r) => r.vsize / 4
        | none => 1
      s.zword d a b (srcs ++ groupV d n false) false (fun _ => true)
        (fun l => .store (toBytes (t.regs.lanesValue d.toNat l n (4 * n)) (4 * n)))))

/-- ZATOM, R70, R294: values of 4 or 8 bytes alone. -/
def execZatom (o : BitVec 3) (d : BitVec 7) (a : BitVec 7) (b : BitVec 7) (x : Bool) (y : Bool) (s : State) : Out :=
  let srcs := groupV a 2 x ++ groupV d 1 false
  .next (s.issue (fun t =>
    { role := .vector, illegal := t.badDest d 1 || t.badV a 2 true, lanes := true, aborts := true, ends := true,
      reads := srcs ++ [t.srcS b y], vdests := [d.toNat] })
    (fun s =>
      let t := s.th
      let n := match s.regionAt (bitsAt t.xltAsid 0 16) (t.valS b) with
        | some (_, r) => if r.vsz = 1 then 2 else 1
        | none => 1
      s.zword d a b (groupV a 2 x ++ groupV d n false) true (fun r => r.vsz ≤ 1)
        (fun l => .atomic o.toNat (Mode.ofCode t.rm) (t.regs.lanesValue d.toNat l n (4 * n)))))

/-- A scalar producer that has all its values. -/
def State.produceS (s : State) (vs : List (Nat × Word)) : State :=
  s.mapTh (fun t => t.produce { t.producer Form.none (vs.map (·.1)) [] with vals := vs.map (fun p => (Dest.s p.1, p.2)) })

/-- Table 13.4. -/
def cursorHandle (st i slot gen : Nat) : Word := BitVec.ofNat 64 (st * 2 ^ 60 + i * 2 ^ 48 + slot * 2 ^ 40 + gen)

/-- ZCUR_OPEN, R74, R295: a cursor opens at a sealed generation at or above the low-water one, in the lowest free slot of the
serving slice. -/
def execZcurOpen (d : BitVec 7) (a : BitVec 7) (b : BitVec 7) (x : Bool) (y : Bool) (s : State) : Out :=
  .next (s.issue (fun t => { role := .vector, aborts := true, ends := true, reads := [t.srcS a x, t.srcS b y], sdests := [t.abs d] })
    (fun s =>
      let t := s.th
      if t.acqPending then .stay s
      else match s.regionAt (bitsAt t.xltAsid 0 16) (t.valS a) with
        | none => s.zfails 0x07 7 (t.valS a)
        | some (i, r) =>
          let g := (t.valS b).toNat
          let base := 64 * s.servingSlice r
          let key := s.svc.cursors.free base 64
          if r.broken then s.zfails 0x10 2 (t.valS a)
          else if r.cur ≤ g || g < r.lwm || base + 64 ≤ key then .done (s.produceS [(t.abs d, cursorHandle 2 0 0 0)])
          else
            let s := { s with svc := { s.svc with cursors := s.svc.cursors.put key ⟨i, g, t.ident.lnum⟩ } }
            .done (s.produceS [(t.abs d, cursorHandle 0 i (key - base) g)])))

/-- ZCUR_CLOSE, R74, R295. -/
def execZcurClose (d : BitVec 7) (a : BitVec 7) (x : Bool) (s : State) : Out :=
  .next (s.issue (fun t => { role := .vector, aborts := true, ends := true, reads := [t.srcS a x], sdests := [t.abs d] })
    (fun s =>
      let t := s.th
      if t.acqPending then .stay s
      else match s.cursorOf (t.valS a) t.ident.lnum with
        | some (key, _, g) =>
          .done ((s.closeCursor key).produceS [(t.abs d, cursorHandle 0 (bitsAt (t.valS a) 48 8) (bitsAt (t.valS a) 40 6) g)])
        | none => .done (s.produceS [(t.abs d, cursorHandle 3 0 0 0)])))

/-- R296: the registers of a step: status, key, and the words of the value. -/
def stepRegs (d : Nat) (st : Nat) (key : Nat) (v : List Nat) (ns : Nat) : List (Nat × Word) :=
  (d, BitVec.ofNat 64 (st * 2 ^ 60)) :: (d + 1, BitVec.ofNat 64 key)
    :: (upto ns).map (fun j => (d + 2 + j, BitVec.ofNat 64 (field v (8 * j) 8)))

/-- ZNEXT, R75, R296: `after` steps past the bound. -/
def execZnext (k : Bool) (d : BitVec 7) (a : BitVec 7) (b : BitVec 7) (x : Bool) (y : Bool) (s : State) : Out :=
  .next (s.issue (fun t => { role := .vector, aborts := true, reads := [t.srcS a x, t.srcS b y], sdests := [t.abs d] })
    (fun s =>
      let t := s.th
      let i := bitsAt (t.valS a) 48 8
      let ours := match s.region? i with
        | some r => if r.asid = bitsAt t.xltAsid 0 16 then some r else Option.none
        | none => Option.none
      let ns := match ours with
        | some r => max 1 (r.vsize / 8)
        | none => 1
      let put (s : State) (st key : Nat) (v : List Nat) : Res := .done (s.produceS (stepRegs (t.abs d) st key v ns))
      if t.acqPending then .stay s
      else if badS d (2 + ns) then .moved (s.trapHere 0x01 0)
      else if (t.srcGroupS d (2 + ns)).any t.empty then .stay s
      else match ours, s.cursorOf (t.valS a) t.ident.lnum with
        | some _, some (key, r, g) =>
          let bound := (t.valS b).toNat + bit k
          if r.broken then s.zfails 0x10 2 (t.valS a)
          else if 2 ^ 64 ≤ bound then put (s.closeCursor key) 1 0 []
          else (match s.zstep t.mid r bound g with
            | .busy q => .stay (s.await q)
            | .fail c e br => (if br then s.putRegion i { r with broken := true } else s).zfails c e (t.valS a)
            | .ok s none => put (s.closeCursor key) 1 0 []
            | .ok s (some (kk, v)) => put s 0 kk v)
        | _, _ => put s 3 0 []))

/-- ZGEN, R68, R297: the current generation is sealed, and descriptor word 6 is written as a release at package scope (Table 15.3). -/
def execZgen (d : BitVec 7) (a : BitVec 7) (b : BitVec 7) (x : Bool) (y : Bool) (s : State) : Out :=
  .next (s.issue (fun t =>
    { role := .vector, aborts := true, ends := true, reads := [t.srcS a x, t.srcS b y], sdests := [t.abs d] })
    (fun s =>
      let t := s.th
      if t.acqPending then .stay s
      else match s.regionAt (bitsAt t.xltAsid 0 16) (t.valS a) with
        | none => s.zfails 0x07 7 (t.valS a)
        | some (i, r) =>
          if r.broken then s.zfails 0x10 2 (t.valS a)
          else if r.cur = 2 ^ 32 - 2 then .done (s.produceS [(t.abs d, 0)])
          else s.afterRelease 2 (fun s =>
            let l := (t.valS b).toNat
            let raise := r.lwm < l && l ≤ r.cur
            let r' := { r with
              cur := r.cur + 1, lwm := if raise then l else r.lwm,
              sweep := if raise then some (t.mid, Option.none) else r.sweep }
            match s.zwrite t.mid (r.desc + 48) (toBytes (r'.cur * 2 ^ 32 + r'.lwm) 8) with
            | .busy q => .stay (s.await q)
            | .fail c e _ => s.zfails c e (t.valS a)
            | .ok s _ => .done ((s.putRegion i r').produceS [(t.abs d, BitVec.ofNat 64 r.cur)]))))

end Sys2Proof.Machine
end

