-- ==== Sys2Proof/Machine/Sync.lean ====
section
/-! DEFINITION. Barriers and stage rings (spec/07_execution_model.md, R155 to R159; spec/14_engine_sync_system_instructions.md,
R310 to R313). -/

namespace Sys2Proof.Machine

/-! ## Barriers -/

/-- A barrier of a team: numbers 0 to 15 are b0 to b15, 16 to 19 its view of cb0 to cb3. E(b0) is fixed at the team's groups
(R157). -/
def Team.bar (t : Team) (b : Nat) : Bar :=
  let x := t.bars.getD b ⟨0, 0, false, 0⟩
  if b = 0 then { x with expect := t.groups } else x

/-- The completion of a phase where the count has reached what is expected (R157). -/
def Bar.complete (x : Bar) : Bool := max x.expect 1 ≤ x.count

/-- The barrier after its phase completes. -/
def Bar.next (x : Bar) : Bar := { x with count := 0, phase := !x.phase, scope := 0 }

/-- The scope of an arrival of a group, and of the acquire that ends a wait (R159). -/
def barScope (b : Nat) : Nat := if 16 ≤ b then 1 else 0

/-- A wait, or the record of one, that a completed phase ends (R311). -/
def Thread.endWait (t : Thread) (b : Nat) (phase : Bool) (scope : Nat) : Thread :=
  { t with
    wait := match t.wait with
      | .barrier c p none => if c = b && p = phase then .barrier c p (some scope) else .barrier c p none
      | w => w
    barRec := t.barRec.map (fun r => if r.1 = b && r.2.1 = phase && r.2.2.isNone then (r.1, (phase, some scope)) else r) }

/-- Store a team's barrier; where its phase completes, the waits of the team's groups end, those of saved ones too (R157, R311,
R396). -/
def State.settleBar (s : State) (team b : Nat) (x : Bar) : State :=
  if x.complete then
    let s := s.mapTeam team (fun t => { t with bars := t.bars.put b x.next })
    let tell (t : Thread) : Thread :=
      if t.kind = .group && t.ident.team = team then t.endWait b x.phase (max (barScope b) x.scope) else t
    { s with work := { s.work with
        threads := s.work.threads.map (fun p => (p.1, tell p.2)),
        saved := s.work.saved.map (fun p => (p.1, { p.2 with thread := tell p.2.thread })) } }
  else s.mapTeam team (fun t => { t with bars := t.bars.put b x })

/-- `arrive(b)` of R157 on one team's barrier, as a release at a scope. -/
def State.arriveBar (s : State) (team b scope : Nat) : State :=
  let x := (s.team team).bar b
  s.settleBar team b { x with count := x.count + 1, scope := max x.scope scope }

/-- The teams of a team's cluster, itself among them (R143). -/
def State.clusterOf (s : State) (team : Nat) : List Nat :=
  let t := s.team team
  (s.work.teams.filter (fun p => p.2.lnum == t.lnum && p.2.block == t.block)).map (·.1)

/-- R158: a group's arrival: on its team's barrier, or on the view of every core of its cluster. -/
def State.arriveGroup (s : State) (team b : Nat) : State :=
  if 16 ≤ b then (s.clusterOf team).foldl (fun s k => s.arriveBar k b 1) s else s.arriveBar team b 0

/-- Clear the current group's record of a barrier (R312). -/
def State.clearRec (s : State) (b : Nat) : State := s.mapTh (fun t => { t with barRec := t.barRec.del b })

/-- The need of a barrier word. -/
def barNeed (b : BitVec 5) (ends : Bool) : Need := { illegal := decide (20 ≤ b.toNat), aborts := true, ends := ends }

/-- BARINIT, R157, R158, R310: b0 raises cause 0x01. -/
def execBarinit (a : BitVec 7) (b : BitVec 5) (x : Bool) (s : State) : Out :=
  .next (s.issue (fun t => { barNeed b true with reads := [t.srcS a x] })
    (fun s =>
      let team := s.th.ident.team
      if b = 0 then .moved (s.trapHere 0x01 0)
      else .done (s.settleBar team b.toNat { s.tm.bar b.toNat with expect := bitsAt (s.th.valS a) 0 10 })))

/-- BARARV, R157 to R159. -/
def execBararv (b : BitVec 5) (s : State) : Out :=
  .next (s.issue (fun _ => barNeed b true)
    (fun s => s.afterRelease (barScope b.toNat)
      (fun s => .done ((s.clearRec b.toNat).arriveGroup s.th.ident.team b.toNat))))

/-- The end of a barrier wait: an acquire at the scope of its arrivals (R159). -/
def State.endBarrier (s : State) (b : Nat) : Res :=
  match s.th.wait with
  | .barrier _ _ (some scope) =>
    if s.acquireReady s.work.cur scope then
      .done (((s.mapTh (fun t => { t with wait := .none })).clearRec b).acquireNow s.work.cur scope)
    else .stay s
  | _ => .stay s

/-- A wait begins against a phase, and is recorded (R312). -/
def State.beginBarrier (s : State) (b : Nat) (phase : Bool) (ahead : Option Nat) : State :=
  s.mapTh (fun t => { t with wait := .barrier b phase ahead, barRec := t.barRec.put b (phase, ahead) })

/-- Does the current group wait at a barrier already? -/
def Thread.atBarrier (t : Thread) : Bool :=
  match t.wait with
  | .barrier _ _ _ => true
  | _ => false

/-- BARARW, R157 to R159, R311. -/
def execBararw (b : BitVec 5) (s : State) : Out :=
  .next (s.issue (fun _ => barNeed b true)
    (fun s =>
      let n := b.toNat
      if s.th.atBarrier then s.endBarrier n
      else s.afterRelease (barScope n) (fun s =>
        ((((s.clearRec n).beginBarrier n (s.tm.bar n).phase Option.none).mapTh (fun t => t.endRegion true)).arriveGroup
          s.th.ident.team n).endBarrier n)))

/-- BARW, R157, R311: a record of an unfinished wait gives the phase it waits against (R312). -/
def execBarw (b : BitVec 5) (s : State) : Out :=
  .next (s.issue (fun _ => barNeed b false)
    (fun s =>
      let n := b.toNat
      if s.th.atBarrier then s.endBarrier n
      else match s.th.barRec.find n with
        | some (p, ahead) => (s.beginBarrier n p ahead).endBarrier n
        | none => .stay (s.beginBarrier n (s.tm.bar n).phase Option.none)))

/-! ## Stage rings -/

/-- A ring of a team: unconfigured until it is written. -/
def Team.ring (t : Team) (k : Nat) : Ring := t.rings.getD k ⟨0, false, false, [], 0, 0⟩

/-- Change a ring. -/
def State.mapRing (s : State) (team k : Nat) (f : Ring → Ring) : State :=
  s.mapTeam team (fun t => { t with rings := t.rings.put k (f (t.ring k)) })

/-- Fields of `TEAM.RING[k]` (Table 7.4): slots, bytes of a slot, base, swizzle mode. -/
def Ring.slots (r : Ring) : Nat := bitsAt r.cfg 56 4 + 1
def Ring.slotSize (r : Ring) : Nat := bitsAt r.cfg 32 10 * 128
def Ring.base (r : Ring) : Nat := bitsAt r.cfg 0 19
def Ring.swz (r : Ring) : Nat := bitsAt r.cfg 60 2

/-- The register as it reads. -/
def Ring.word (r : Ring) : Word := setBits (setBits r.cfg 31 1 (bit r.pme)) 30 1 (bit r.rej)

/-- The logical address of a slot. -/
def Ring.slotAt (r : Ring) (i : Nat) : Nat := r.base + i * r.slotSize

/-- The writable bits of `TEAM.RING[k]`. -/
def ringMask : Word := 0x3F0003FF0007FFFF

/-- R155: a write of `TEAM.RING[k]`: rejected while a PME share holds the ring, or where its slots do not fit. -/
def Team.writeRing (t : Team) (k : Nat) (v : Word) : Team :=
  let r := t.ring k
  let n : Ring := ⟨v &&& ringMask, false, false, [], 0, 0⟩
  let bad := r.pme || (n.slotSize ≠ 0
    && (n.base % 128 ≠ 0 || 512 * 128 < n.slotSize || t.alloc < n.base + n.slots * n.slotSize))
  { t with rings := t.rings.put k (if bad then { r with rej := true } else n) }

/-- The result of a ring operation: status and slot address (R156). -/
def ringResult (st addr : Nat) : Word := BitVec.ofNat 64 (st * 2 ^ 60 + addr)

/-- What every ring word needs. -/
def ringNeed (t : Thread) (d : BitVec 7) (ends : Bool) : Need := { aborts := true, ends := ends, sdests := [t.abs d] }

/-- RINGPUT claim, R156: it waits while the producer's slot is full. -/
def execRingputClaim (d : BitVec 7) (r : BitVec 3) (s : State) : Out :=
  .next (s.issue (fun t => ringNeed t d false)
    (fun s =>
      let g := s.tm.ring r.toNat
      if g.slotSize = 0 then .done (s.setS d (ringResult 1 0))
      else if g.pme then .done (s.setS d (ringResult 2 0))
      else if g.full.has g.prod then .stay s
      else .done ((s.setS d (ringResult 0 (g.slotAt g.prod))).acquireNow s.work.cur 0)))

/-- RINGPUT publish, R156: a release at team scope. -/
def execRingputPub (d : BitVec 7) (r : BitVec 3) (s : State) : Out :=
  .next (s.issue (fun t => ringNeed t d true)
    (fun s =>
      let g := s.tm.ring r.toNat
      if g.slotSize = 0 then .done (s.setS d (ringResult 1 0))
      else if g.pme then .done (s.setS d (ringResult 2 0))
      else if g.full.has g.prod then .stay s
      else s.afterRelease 0 (fun s =>
        .done ((s.mapRing s.th.ident.team r.toNat (fun g =>
          { g with full := g.full.put g.prod 0, prod := (g.prod + 1) % g.slots })).setS d
            (ringResult 0 (g.slotAt g.prod))))))

/-- RINGGET take, R156: an acquire at the scope of the slot's producer. -/
def execRinggetTake (d : BitVec 7) (r : BitVec 3) (s : State) : Out :=
  .next (s.issue (fun t => ringNeed t d false)
    (fun s =>
      let g := s.tm.ring r.toNat
      if g.slotSize = 0 then .done (s.setS d (ringResult 1 0))
      else match g.full.find g.cons with
        | none => .stay s
        | some scope =>
          if s.acquireReady s.work.cur scope then
            .done ((s.setS d (ringResult 0 (g.slotAt g.cons))).acquireNow s.work.cur scope)
          else .stay s))

/-- RINGGET free, R156: a release at team scope. -/
def execRinggetFree (d : BitVec 7) (r : BitVec 3) (s : State) : Out :=
  .next (s.issue (fun t => ringNeed t d true)
    (fun s =>
      let g := s.tm.ring r.toNat
      if g.slotSize = 0 then .done (s.setS d (ringResult 1 0))
      else if !(g.full.has g.cons) then .done (s.setS d (ringResult 3 0))
      else s.afterRelease 0 (fun s =>
        .done ((s.mapRing s.th.ident.team r.toNat (fun g =>
          { g with full := g.full.del g.cons, cons := (g.cons + 1) % g.slots })).setS d
            (ringResult 0 (g.slotAt g.cons))))))

end Sys2Proof.Machine
end

