-- ==== Sys2Proof/Machine/Engine.lean ====
section
/-! DEFINITION. What every engine does alike (spec/14_engine_sync_system_instructions.md, R300 to R305, R440;
spec/18_faults_preemption.md, R389): the fields of a command, its accesses to memory in its issuer's address space, its status
word, its signal, and its end. -/

namespace Sys2Proof.Machine

/-! ## Fields -/

/-- A word of a command. -/
def Cmd.w (c : Cmd) (i : Nat) : Word := nth c.words i 0

/-- Table 14.2. -/
def Cmd.code (c : Cmd) : Nat := bitsAt (c.w 0) 56 8
def Cmd.sigt (c : Cmd) : Nat := bitsAt (c.w 0) 52 4
def Cmd.sigx (c : Cmd) : Nat := bitsAt (c.w 0) 44 8

/-- The die of the issuing core; 4 for a distaff core. -/
def Cmd.die (c : Cmd) : Nat := if c.mid < 192 then dieOf c.mid else 4

/-- Whose q0 to q9 a command stands in: one team's, or one distaff thread's. -/
def Cmd.sameIssuer (c d : Cmd) : Bool :=
  if isGroupKey c.agent then isGroupKey d.agent && c.team == d.team else c.agent == d.agent

/-- The command of a number. -/
def State.cmd? (s : State) (id : Nat) : Option Cmd := s.svc.cmds.find? (fun c => c.id == id)

/-- Change a command. -/
def State.mapCmd (s : State) (id : Nat) (f : Cmd → Cmd) : State :=
  { s with svc := { s.svc with cmds := s.svc.cmds.map (fun c => if c.id = id then f c else c) } }

/-- Write a command back. -/
def State.putCmd (s : State) (c : Cmd) : State := s.mapCmd c.id (fun _ => c)

/-- Remove a command. -/
def State.dropCmd (s : State) (id : Nat) : State :=
  { s with svc := { s.svc with cmds := s.svc.cmds.filter (fun c => c.id != id) } }

/-- The Ethernet ports of a partition, in ascending order. -/
def State.portsOf (s : State) (p : Nat) : List Nat := (upto 8).filter (fun e => (s.pkg.nbnd.getD p 0).getLsbD (48 + e))

/-- R413: the port on which a SEND leaves. -/
def State.sendPort (s : State) (c : Cmd) : Option Nat :=
  let ps := s.portsOf c.part
  if ps.isEmpty then none else some (nth ps (bitsAt (c.w 1) 16 10 % ps.length) 0)

/-- Table 1.8: the master that performs a command. -/
def State.engineMid (s : State) (c : Cmd) : Nat :=
  if c.q < 4 then 256 + c.mid
  else if c.q = 4 then 448 + c.mid
  else if c.q = 5 then 640 + c.die
  else if c.q = 6 then 646
  else if c.q = 7 then 648 + (s.sendPort c).getD 0
  else if c.q = 8 then 644
  else 645

/-- The issuer's address space as the engine translates in it: the tensor walker's structures, the core's for the request
collector, the PME's, and none for the engines of the host die (Table 2.7, R42). -/
def Cmd.space (c : Cmd) : Space :=
  if c.q < 4 then engineSpace c.mid c.root c.asid c.priv
  else if c.q = 4 then ⟨c.root, c.asid, c.priv, simtChain c.mid, c.die, 640 + c.die⟩
  else if c.q = 5 then pmeSpace c.die c.root c.asid c.priv
  else if c.mid < 192 then ⟨c.root, c.asid, c.priv, [], c.die, 640 + c.die⟩
  else ⟨c.root, c.asid, c.priv, [], 4, c.mid⟩

/-- Table 14.3: the scope of a command's completion signal. -/
def Cmd.signalScope (c : Cmd) : Nat := if c.sigt = 4 then 2 else if c.q ≤ 4 then 1 else 2

/-! ## Accesses -/

/-- What an engine's access comes to: a result; a fault of translation or permission, or another failure, at an address; or it waits, for a
line that its home is serving, or for the requests that it sends to be admitted (R98). -/
inductive Eng (α : Type) where
  | ok (s : State) (a : α)
  | fault (s : State) (cause reason va : Nat)
  | busy (asks : List Msg)

/-- Go on once homes have admitted an access (R98). A lost request is cause 0x10 with reason 3 (R101). -/
def Visit.eng {α : Type} (v : Visit) (s : State) (va : Nat) (f : State → Eng α) : Eng α :=
  match v with
  | .go s => f s
  | .wait w => .busy (w.sentAfter s)
  | .lost s => .fault s 0x10 3 va

/-- Go on with a result. -/
def Eng.andThen {α β : Type} (e : Eng α) (f : State → α → Eng β) : Eng β :=
  match e with
  | .ok s a => f s a
  | .fault s c r va => .fault s c r va
  | .busy q => .busy q

/-- The pieces of a byte range, each within one 4 KiB page: address and length. -/
def pieces (va n : Nat) : List (Nat × Nat) :=
  (pagesOf va n).map (fun p => (max va p, min (va + n) (p + 4096) - max va p))

/-- Read bytes within one page at a physical address word for a master, each with its poison; none where the target refuses (R37). -/
def State.engFetch (s : State) (mid : Nat) (pa : Word) (va n : Nat) : Eng (List (Option (Nat × Bool))) :=
  match s.vet mid .read pa with
  | .error _ => .ok s (List.replicate n none)
  | .ok a =>
    let p := s.steer a (keyOf pa)
    if (linesOf p.1 n).any s.lineBusy || s.windowHeld pa then .busy []
    else (s.visitRange mid p.2 p.1 n).eng s va (fun s =>
      let bs := (s.peek a (keyOf pa) n).zip ((upto n).map (fun i => s.peekPoison (a + i) 1))
      .ok (s.readAt a (keyOf pa) n mid) (bs.map some))

/-- Read bytes within one page for a master. -/
def State.engPiece (s : State) (x : Space) (mid : Nat) (va n : Nat) : Eng (List (Option (Nat × Bool))) :=
  match s.lookNow x .read (BitVec.ofNat 64 va) 1 with
  | (.ok pa _, s) => s.engFetch mid pa va n
  | (.fail c r _, s) => .fault s c r va
  | (.miss, w) => .busy (w.sentAfter s)

/-- Read bytes, page by page. -/
def State.engRead (s : State) (x : Space) (mid va n : Nat) : Eng (List (Option (Nat × Bool))) :=
  (pieces va n).foldl (fun (e : Eng (List (Option (Nat × Bool)))) p =>
    e.andThen (fun s l => (s.engPiece x mid p.1 p.2).andThen (fun s m => .ok s (l ++ m)))) (.ok s [])

/-- Was anything refused? -/
def refused (l : List (Option (Nat × Bool))) : Bool := l.any (fun b => b.isNone)

/-- Is anything poisoned? -/
def poisonedIn (l : List (Option (Nat × Bool))) : Bool := l.any (fun b => match b with
  | some (_, p) => p
  | none => false)

/-- The bytes, zero where refused. -/
def plainBytes (l : List (Option (Nat × Bool))) : List Nat := l.map (fun b => match b with
  | some (v, _) => v
  | none => 0)

/-- Write the bytes that are there at a home address (R359, R83): tracked copies are recalled, transactions on the line abort,
units covered completely lose their poison, and units that receive a poisoned byte are poisoned. -/
def State.pokeMasked (s : State) (a key : Nat) (bs : List (Option (Nat × Bool))) (mid : Nat) : State :=
  let p := s.steer a key
  let n := bs.length
  let s := (linesOf p.1 n).foldl (fun (s : State) l => (s.settle l).hitSigs l) s
  let s := (bs.zip (upto n)).foldl (fun (s : State) b => match b.1 with
    | some (v, _) => s.setByte p.2 (p.1 + b.2) (BitVec.ofNat 8 v)
    | none => s) s
  let written (u : Nat) : Bool := (upto 8).all (fun i =>
    p.1 ≤ 8 * u + i && ((bs.getD (8 * u + i - p.1) none).isSome))
  let bad := (bs.zip (upto n)).filterMap (fun b => match b.1 with
    | some (_, true) => some ((p.1 + b.2) / 8)
    | _ => none)
  let s := (s.setPoison ((unitsOf p.1 n).filter written) false).setPoison bad true
  let s := (bs.zip (upto n)).foldl (fun (s : State) b =>
    if b.1.isSome then s.dirtyHome p.2 ((p.1 + b.2) / 128) [(p.1 + b.2) % 128 / 8] else s) s
  (linesOf p.1 n).foldl (fun (s : State) l => s.count (128 * l) true mid) s

/-- Translate an address. -/
def State.engWhere (s : State) (x : Space) (k : ReqKind) (va : Nat) : Eng (Word × Option TlbEntry) :=
  match s.lookNow x k (BitVec.ofNat 64 va) 1 with
  | (.ok pa via, s) => if s.windowHeld pa then .busy [] else .ok s (pa, via.map (·.1))
  | (.fail c r _, s) => .fault s c r va
  | (.miss, w) => .busy (w.sentAfter s)

/-- Write bytes at a home address for a master, once the home admits it. -/
def State.engPoke (s : State) (mid va a key : Nat) (bs : List Nat) : Eng Unit :=
  let p := s.steer a key
  if s.pokeReady a bs.length then
    (s.visitRange mid p.2 p.1 bs.length).eng s va (fun s => .ok (s.poke a key bs mid) ())
  else .busy []

/-- Write the bytes that are there at a home address for a master, once the home admits it. -/
def State.engPut (s : State) (mid va a key : Nat) (bs : List (Option (Nat × Bool))) : Eng Unit :=
  let p := s.steer a key
  if s.pokeReady a bs.length then
    (s.visitRange mid p.2 p.1 bs.length).eng s va (fun s => .ok (s.pokeMasked a key bs mid) ())
  else .busy []

/-- Write bytes within one page in an issuer's address space for a master: at their home, or in a register of home class 6 (R437). -/
def State.engWrite (s : State) (x : Space) (mid va : Nat) (bs : List Nat) : Eng Unit :=
  (s.engWhere x .write va).andThen (fun s p =>
    if isMmio p.1 then
      (match s.mmioAdmit mid .write p.1 bs.length with
      | .error r => .fault s 0x09 r va
      | .ok r => .ok (s.mregWrite r (ofBytes bs)) ())
    else match s.vet mid .write p.1 with
      | .error r => .fault s 0x09 r va
      | .ok a => s.engPoke mid va a (keyOf p.1) bs)

/-- Add 1 to a 64-bit word, as a far atomic of package scope (R301). -/
def State.engIncrement (s : State) (x : Space) (mid va : Nat) : Eng Unit :=
  if va % 8 ≠ 0 then .fault s 0x06 0 va
  else (s.engWhere x .atomic va).andThen (fun s p =>
    match s.vet mid .atomic p.1 with
    | .error r => .fault s 0x09 r va
    | .ok a =>
      if s.pokeReady a 8 && s.peekPoison a 8 then .fault s 0x10 1 va
      else s.engPoke mid va a (keyOf p.1) (toBytes (ofBytes (s.peek a (keyOf p.1) 8) + 1) 8))

/-! ## Records -/

/-- Is it a command that asks for a launch (R364)? -/
def Cmd.isLaunch (c : Cmd) : Bool := c.q == 6 && c.code == 0x50

/-- R389: what a record of an engine's fault says. A launch command's names the launch it asks for (log entry 47). -/
def State.cmdReport (s : State) (c : Cmd) (kind cause reason acc va bit8 : Nat) : Report :=
  ⟨kind, cause, reason, s.engineMid c, 0, acc, c.asid, BitVec.ofNat 64 va, 0, if c.isLaunch then c.seq else c.lnum,
    BitVec.ofNat 64 (c.q * 2 ^ 60 + bit8 * 256 + c.seq % 256), 0, 0⟩

/-- R115, R391: a command stops at a fault, with a record of kind 3. -/
def State.parkCmd (s : State) (c : Cmd) (cause reason acc va : Nat) : State :=
  if s.recordRoom c.die 1 then
    let s := s.report c.part c.die (s.cmdReport c 3 cause reason acc va 0) (.engine c.id)
    s.putCmd { c with st := .faulted (s.lastToken c.part) }
  else s

/-! ## Completion -/

/-- Where a command's status word or record lies (R126, R29, R365, R405, R413): none for the commands that have none. A release of a
migrated page has no `STA` field, its word 4 being reserved zero, and Table 1.7 gives it a status: the model writes that at virtual
address 0, as word 4 says (log entry 36). -/
def Cmd.sta (c : Cmd) : Option Nat :=
  let at_ (i : Nat) : Option Nat := some (c.w i).toNat
  match c.q, c.code with
  | _, 0x0F => none
  | 5, 0x40 => at_ 3
  | 5, 0x41 => at_ 5
  | 5, _ => at_ 2
  | 6, 0x50 => at_ 6
  | 7, _ => at_ 4
  | 8, _ => at_ 4
  | 9, _ => at_ 5
  | _, _ => none

/-- The word that a type 4 signal increments (R301). -/
def Cmd.siga (c : Cmd) : Nat :=
  match c.sta with
  | some a => (a + 8) % 2 ^ 64
  | none => (c.w 7).toNat

/-- The resident group of a team's group number. -/
def State.findGroup (s : State) (team gnum : Nat) : Option Nat :=
  (s.work.threads.find? (fun p => p.2.kind = .group && p.2.ident.team == team && p.2.ident.gnum == gnum
    && p.2.status ≠ .vacant && p.2.status ≠ .ended)).map (·.1)

/-- The pushing thread as it runs now: a distaff thread, or a group where it is resident. -/
def State.pusher (s : State) (c : Cmd) : Option Nat := if isGroupKey c.agent then s.findGroup c.team c.gnum else some c.agent

/-- One decrement of a wait counter, and the scope of its release (R160, R307). -/
def Thread.countDown (t : Thread) (k scope : Nat) : Thread :=
  { t with wc := t.wc.putD 0 k (t.wc.getD k 0 - 1), wcScope := t.wcScope.put k (max (t.wcScope.getD k 0) scope) }

/-- Change a group of a saved block (R396). -/
def State.mapSaved (s : State) (team gnum : Nat) (f : Thread → Thread) : State :=
  { s with work := { s.work with saved := s.work.saved.map (fun p =>
      if p.2.thread.ident.team = team && p.2.thread.ident.gnum = gnum then (p.1, { p.2 with thread := f p.2.thread }) else p) } }

/-- R301: the signal of types 1 to 3. A signal to a group or a team that has ended is discarded (R217). -/
def State.signal (s : State) (c : Cmd) : State :=
  if isGroupKey c.agent && !(s.work.teams.has c.team) then s
  else match c.sigt with
  | 1 => (match s.pusher c with
    | some k => s.mapThread k (fun t => t.countDown c.sigx c.signalScope)
    | none => s.mapSaved c.team c.gnum (fun t => t.countDown c.sigx c.signalScope))
  | 2 => s.arriveBar c.team c.sigx c.signalScope
  | 3 =>
    if c.q < 4 && c.code = 0x11 then
      ((s.clusterOf c.team).filter (fun k => (bitsAt (c.w 6) 0 12).testBit (s.team k).rank && !(c.reached.contains k))).foldl
        (fun s k => s.arriveBar k (16 + c.sigx) 1) s
    else s.arriveBar c.team (16 + c.sigx) c.signalScope
  | _ => s

/-- Table 5.5: a failing command of a channel or of the collector. -/
def Team.fail (t : Team) (q seq st : Nat) : Team :=
  let w := t.err.getD q 0
  let n := min (bitsAt w 32 16 + 1) 0xFFFF
  let first := if w.getLsbD 0 then w else BitVec.ofNat 64 (seq % 256 * 2 ^ 56 + st % 16 * 2 ^ 52 + 1)
  { t with err := t.err.put q (setBits first 32 16 n) }

/-- R115: a failure of a copy-engine channel or of the collector is counted. -/
def State.countFail (s : State) (c : Cmd) (st : Nat) : State :=
  if c.q ≤ 4 && st ≠ 0 then s.mapTeam c.team (fun t => t.fail c.q c.seq st) else s

/-- A write that cannot be made and waits for no answer (R440): a record of kind 6. -/
def State.lost (s : State) (c : Cmd) (cause reason acc va bit8 : Nat) : Option State :=
  if s.recordRoom c.die 1 then some (s.report c.part c.die (s.cmdReport c 6 cause reason acc va bit8) (.engine c.id)) else none

/-- The command is over: its write pointer and error register (R110, R115), the generation it pinned (R78), and the migration context
that it releases (R32). -/
def State.retireCmd (s : State) (c : Cmd) : State :=
  let s := s.countFail c c.status
  let s := if c.q < 4 then
      s.mapTeam c.team (fun t => { t with wp := t.wp.put c.q (BitVec.ofNat 64 ((c.seq + 1) % 256 * 2 ^ 56)) })
    else s
  let s := { s with mem := { s.mem with migr := s.mem.migr.filter (fun p => p.2.ending != some c.id) } }
  { s.dropCmd c.id with svc := { (s.dropCmd c.id).svc with
      regions := s.svc.regions.map (fun p => (p.1, { p.2 with pins := p.2.pins.filter (fun x => x.1 != c.id) })) } }

/-- R405: bit 1 of `DTR.IRQ` of every partition that a partition-manager command affects. -/
def State.doneInterrupts (s : State) (c : Cmd) : State := if c.q = 9 then c.reached.foldl (fun s dc => s.interruptCore dc 1) s else s

/-- An increment that is dropped counts as a failure with status 1 (R440). -/
def Cmd.dropIncrement (c : Cmd) : Cmd := { c with signalDone := true, status := if c.status = 0 then 1 else c.status }

/-- The signal is sent, and the command is over (R301, R440). -/
def State.finishCmd (s : State) (c : Cmd) : State :=
  if c.sigt = 4 && !c.signalDone then
    match s.engIncrement c.space (s.engineMid c) c.siga with
    | .ok s _ => s.retireCmd c
    | .busy q => (s.putCmd c).await q
    | .fault s cause reason va =>
      if parks cause reason then s.parkCmd c cause reason 2 va
      else match s.lost c cause reason 2 va 1 with
        | some s => s.retireCmd c.dropIncrement
        | none => s.putCmd c
  else (s.signal c).retireCmd c

/-- The status word is written, the interrupts of a partition-manager command are raised, and the signal is sent (R301, R440,
R405). It waits where a line is being served, and stops where the address cannot be translated. -/
def State.completeCmd (s : State) (c : Cmd) : State :=
  if c.statusDone then s.finishCmd c
  else match c.sta with
    | none => s.finishCmd { c with statusDone := true }
    | some va =>
      (match s.engWrite c.space (s.engineMid c) va (c.out.flatMap (fun w => toBytes w.toNat 8)) with
      | .ok s _ => (s.doneInterrupts c).finishCmd { c with statusDone := true }
      | .busy q => s.await q
      | .fault s cause reason va =>
        if parks cause reason then s.parkCmd c cause reason 1 va
        else match s.lost c cause reason 1 va 0 with
          | some s => (s.doneInterrupts c).finishCmd { c with statusDone := true }
          | none => s)

/-- COMMAND_COMPLETE, R301: a command that has done its work completes. -/
def execCommandComplete (cmd : Nat) (s : State) : Out :=
  .next (match s.cmd? cmd with
    | some c => if c.st = .finishing then s.completeCmd c else s
    | none => s)

end Sys2Proof.Machine
end

