-- ==== Sys2Proof/Machine/Push.lean ====
section
/-! DEFINITION. PUSH and its checks, LAUNCH, ARML, and the waits on engines (spec/14_engine_sync_system_instructions.md, R302, R303,
R306 to R309, R327, R328; the checks of R108, R112, R113, R121, R126, R128, R29, R78, R364, R366, R405, R413). -/

namespace Sys2Proof.Machine

/-! ## Checks at PUSH -/

/-- Table 14.2: is a header malformed for its issuer? -/
def headerBad (distaff : Bool) (w0 : Word) : Bool :=
  let x := bitsAt w0 44 8
  match bitsAt w0 52 4 with
  | 0 => x != 0
  | 1 => 5 < x
  | 2 => distaff || 15 < x
  | 3 => distaff || 3 < x
  | 4 => x != 0
  | _ => true

/-- Are words from `i` on zero? -/
def restZero (w : List Word) (i : Nat) : Bool := (w.drop i).all (fun x => x == 0)

/-- R108: the address of the signal word of a command that carries `SIGA`. -/
def sigaBad (w : List Word) : Bool :=
  if bitsAt (nth w 0 0) 52 4 = 4 then (nth w 7 0).toNat % 8 ≠ 0 else nth w 7 0 != 0

/-- R106, R108, R112: is a copy or multicast copy malformed? -/
def copyBad (t : Team) (multi : Bool) (w : List Word) : Bool :=
  let g (i : Nat) : Word := nth w i 0
  let dir := bitsAt (g 0) 36 3
  let srcMem := dir = 0 || dir = 3
  let dstMem := dir = 1 || dir = 3
  let len := (g 6).toNat
  let mask := bitsAt (g 6) 0 12
  3 < dir || bitsAt (g 0) 0 32 ≠ 0
    || (srcMem && bitsAt (g 0) 34 2 ≠ 0) || (dstMem && bitsAt (g 0) 32 2 ≠ 0)
    || (if srcMem then (g 1).toNat % 64 ≠ 0 else bitsAt (g 1) 19 45 ≠ 0)
    || (if dstMem then (g 2).toNat % 64 ≠ 0 else bitsAt (g 2) 19 45 ≠ 0)
    || (if dir = 2 then g 3 != 0 || g 4 != 0 || g 5 != 0
        else bitsAt (g 5) 16 16 ≠ 0 || bitsAt (g 5) 0 16 = 0 || (dstMem && bitsAt (g 5) 0 16 ≠ 1))
    || (if multi then bitsAt (g 6) 12 52 ≠ 0 || dir ≠ 0 || mask = 0 || 2 ^ t.cluster ≤ mask || bitsAt (g 0) 52 4 ≠ 3
        else if dir = 2 then
          len = 0 || len % 32 ≠ 0 || (g 1).toNat % 32 ≠ 0 || (g 2).toNat % 32 ≠ 0
            || t.alloc < (g 1).toNat + len || t.alloc < (g 2).toNat + len
        else len ≠ 0)
    || sigaBad w

/-- R113: is a QFENCE malformed? It carries no address for a type 4 signal. -/
def qfenceBad (w : List Word) : Bool :=
  bitsAt (nth w 0 0) 0 39 ≠ 0 || bitsAt (nth w 1 0) 10 54 ≠ 0 || !(restZero w 2) || bitsAt (nth w 0 0) 52 4 = 4

/-- R120, R121: is a gather malformed? -/
def gatherBad (t : Team) (w : List Word) : Bool :=
  let g (i : Nat) : Word := nth w i 0
  let ix := 4 * 2 ^ bitsAt (g 0) 37 2
  let rb := bitsAt (g 2) 48 16
  let n := bitsAt (g 4) 0 32
  let ixa := (g 3).toNat
  1 < bitsAt (g 0) 37 2 || bitsAt (g 0) 0 34 ≠ 0 || (g 1).toNat % 32 ≠ 0
    || rb < 32 || 4096 < rb || rb % 32 ≠ 0 || bitsAt (g 2) 0 48 % 32 ≠ 0 || ixa % ix ≠ 0
    || (g 0).getLsbD 36 && (bitsAt (g 3) 19 45 ≠ 0 || t.alloc < ixa + n * ix)
    || bitsAt (g 4) 32 32 ≠ 0 || n = 0 || 65535 < n || bitsAt (g 5) 19 45 ≠ 0 || (g 5).toNat % 32 ≠ 0
    || t.alloc < (g 5).toNat + n * rb || sigaBad w

/-- The coordinates of a packed key, dimension 0 most significant (R62). -/
def unpackKey (widths : List Nat) (k : Nat) : List Nat :=
  (widths.foldr (fun wd (q : List Nat × Nat) => (q.2 % 2 ^ wd :: q.1, q.2 / 2 ^ wd)) ([], k)).1

/-- The packed key of coordinates. -/
def packKey (widths cs : List Nat) : Nat := (widths.zip cs).foldl (fun k p => k * 2 ^ p.1 + p.2) 0

/-- The extents and byte strides of a densify command, dimension 0 first (Table 3.8). -/
def densifyExt (w : List Word) : List Nat := (upto 4).map (fun i => bitsAt (nth w 3 0) (16 * i) 16)
def densifyStride (w : List Word) : List Nat :=
  [bitsAt (nth w 5 0) 0 32, bitsAt (nth w 5 0) 32 32, bitsAt (nth w 6 0) 0 32, bitsAt (nth w 6 0) 32 32]

/-- R78: is a densify command malformed? -/
def State.densifyBad (s : State) (asid : Nat) (w : List Word) : Bool :=
  match s.regionAt asid (nth w 1 0) with
  | none => true
  | some (_, r) =>
    let n := r.widths.length
    let ext := densifyExt w
    let ds := densifyStride w
    let org := (nth w 2 0).toNat
    let gen := bitsAt (nth w 7 0) 0 32
    bitsAt (nth w 0 0) 0 39 ≠ 0 || bitsAt (nth w 7 0) 32 32 ≠ 0 || bitsAt (nth w 0 0) 52 4 = 4
      || (ext.take n).any (· == 0) || (ext.drop n).any (· != 0)
      || 2 ^ r.keyBits ≤ org
      || ((r.widths.zip (unpackKey r.widths org)).zip ext).any (fun p => 2 ^ p.1.1 < p.1.2 + p.2)
      || (nth w 4 0).toNat % r.vsize ≠ 0 || nth ds (n - 1) 0 ≠ r.vsize
      || (upto (n - 1)).any (fun k => decide (nth ds k 0 < nth ds (k + 1) 0 * nth ext (k + 1) 0))
      || (gen ≠ 0 && (r.cur ≤ gen || gen < r.lwm))

/-- Table 6.1: bytes of a page image. -/
def imageBytes (d : Nat) (b16 : Bool) : Nat := if b16 then 256 * d else 128 * d + 4096

/-- *D* of a subscription's code. -/
def headDim (hd : Nat) : Nat := 64 * 2 ^ hd

/-- R126, R128: is a command of q5 malformed? -/
def pmeBad (t : Team) (w : List Word) : Bool :=
  let g (i : Nat) : Word := nth w i 0
  match bitsAt (g 0) 56 8 with
  | 0x40 =>
    bitsAt (g 0) 0 38 ≠ 0 || (g 1).toNat % 128 ≠ 0 || bitsAt (g 2) 20 44 ≠ 0 || bitsAt (g 2) 0 20 = 0
      || (g 3).toNat % 8 ≠ 0 || !(restZero w 4)
  | 0x41 =>
    let hd := bitsAt (g 1) 33 2
    bitsAt (g 0) 0 30 ≠ 0 || bitsAt (g 1) 42 3 < bitsAt (g 1) 45 3 || 95 < bitsAt (g 1) 35 7 || hd = 3
      || (g 2).toNat % 4 ≠ 0 || bitsAt (g 3) 13 51 ≠ 0 || bitsAt (g 3) 0 13 = 0 || 4096 < bitsAt (g 3) 0 13
      || bitsAt (g 4) 19 45 ≠ 0 || (g 4).toNat % 128 ≠ 0 || (g 5).toNat % 8 ≠ 0 || bitsAt (g 6) 5 59 ≠ 0
      || ((g 6).getLsbD 4 && 3 < bitsAt (g 6) 0 4) || g 7 != 0
      || t.alloc < (g 4).toNat + (bitsAt (g 0) 30 4 + 1) * imageBytes (headDim hd) ((g 1).getLsbD 32)
  | 0x42 => bitsAt (g 0) 0 39 ≠ 0 || bitsAt (g 1) 16 48 ≠ 0 || (g 2).toNat % 8 ≠ 0 || !(restZero w 3)
  | 0x43 => bitsAt (g 0) 0 39 ≠ 0 || bitsAt (g 1) 16 48 ≠ 0 || (g 2).toNat % 8 ≠ 0 || !(restZero w 3)
  | _ => true

/-- R364: is a launch command malformed, from an issuer whose `XLT.ROOT` is `root`? -/
def launchBad (root : Word) (w : List Word) : Bool :=
  let g (i : Nat) : Word := nth w i 0
  let wc := bitsAt (g 0) 19 2
  let cl := bitsAt (g 0) 6 4
  (g 0).getLsbD 33 || [1, 2, 4, 5, 6].any (fun i => bitsAt (g i) 56 8 != 0)
    || (g 1).toNat % 128 ≠ 0 || (g 2).toNat % 8 ≠ 0 || (g 4).toNat % 8 ≠ 0 || (g 5).toNat % 64 ≠ 0 || (g 6).toNat % 16 ≠ 0
    || wc = 3 || bitsAt (g 0) 15 4 = 0 || cl = 0 || 12 < cl || 2560 < bitsAt (g 0) 21 12 || bitsAt (g 7) 32 32 = 0
    || g 6 == 0 || (g 3).toNat / 2 ^ (2 * (bitsAt (g 0) 10 5 + 1)) ≠ 0 || 16 * 2 ^ wc ≤ bitsAt (g 0) 0 6
    || !(root.getLsbD 0)

/-- R364: does a launch command ask for a privilege? -/
def launchPriv (w : List Word) : Bool :=
  bitsAt (nth w 0 0) 56 8 = 0x50 && ((nth w 0 0).getLsbD 34 || bitsAt (nth w 0 0) 37 2 = 3)

/-- R366: is a SETDET malformed? -/
def setdetBad (w : List Word) : Bool :=
  let w0 := nth w 0 0
  bitsAt w0 35 2 = 3 || bitsAt w0 37 2 ≠ 0 || bitsAt w0 0 35 ≠ 0 || !(restZero w 1) || bitsAt w0 52 4 = 4

/-- R413: is a SEND malformed? -/
def sendBad (w : List Word) : Bool :=
  let g (i : Nat) : Word := nth w i 0
  bitsAt (g 0) 56 8 ≠ 0x70 || bitsAt (g 0) 0 39 ≠ 0 || bitsAt (g 1) 26 6 ≠ 0 || bitsAt (g 1) 3 13 ≠ 0 || (g 2).toNat % 64 ≠ 0
    || (g 3).toNat = 0 || 4032 < (g 3).toNat || (g 4).toNat % 8 ≠ 0 || !(restZero w 5)

/-- The page size of a migration command. -/
def migrSize (w : List Word) : Nat := 2 ^ (12 + 9 * bitsAt (nth w 3 0) 62 2)

/-- R29: is a page of a migration outside the issuing package, or in class 6 or 7? -/
def State.migrOutside (s : State) (pa : Word) : Bool :=
  bitsAt pa 62 2 ≠ 0 || bitsAt pa 49 3 ≠ s.ownPkg || 6 ≤ bitsAt pa 46 3

/-- R28, R29: is a migration command malformed? R29 names neither a release's misaligned `SRC` nor bits [63:62] of an address word:
the model rejects both as malformed (log entry 35). -/
def State.migrBad (s : State) (w : List Word) : Bool :=
  let g (i : Nat) : Word := nth w i 0
  let n := migrSize w
  let src := bitsAt (g 1) 0 52
  let dst := bitsAt (g 2) 0 52
  match bitsAt (g 0) 56 8 with
  | 0x01 =>
    bitsAt (g 0) 0 39 ≠ 0 || bitsAt (g 3) 0 62 ≠ 0 || bitsAt (g 3) 62 2 = 3 || src % n ≠ 0 || dst % n ≠ 0
      || (src < dst + n && dst < src + n) || s.migrOutside (g 1) || s.migrOutside (g 2)
      || (g 4).toNat % 8 ≠ 0 || !(restZero w 5)
  | 0x02 => bitsAt (g 0) 0 39 ≠ 0 || src % 4096 ≠ 0 || s.migrOutside (g 1) || !(restZero w 2)
  | _ => true

/-- R405: is a partition-manager command malformed? -/
def managerBad (w : List Word) : Bool :=
  let g (i : Nat) : Word := nth w i 0
  let code := bitsAt (g 0) 56 8
  code < 0x60 || 0x64 < code || bitsAt (g 0) 0 39 ≠ 0 || (g 5).toNat % 8 ≠ 0 || !(restZero w 6)
    || (match code with
      | 0x60 => bitsAt (g 1) 4 60 ≠ 0 || g 2 != 0 || bitsAt (g 3) 2 62 ≠ 0 || bitsAt (g 3) 0 2 = 3
          || bitsAt (g 4) 32 32 ≠ 0 || g 4 == 0
      | 0x61 => bitsAt (g 1) 4 60 ≠ 0 || bitsAt (g 3) 48 16 ≠ 0 || bitsAt (g 3) 2 30 ≠ 0 || bitsAt (g 3) 0 2 = 3
          || bitsAt (g 4) 32 32 ≠ 0 || g 4 == 0
      | 0x62 => bitsAt (g 1) 2 62 ≠ 0 || g 2 != 0 || g 3 != 0 || g 4 != 0
      | 0x63 => bitsAt (g 1) 16 48 ≠ 0 || bitsAt (g 1) 0 8 ≠ 0 || g 2 != 0 || g 3 != 0 || g 4 != 0
      | _ => bitsAt (g 1) 17 47 ≠ 0 || bitsAt (g 1) 10 6 ≠ 0 || bitsAt (g 1) 6 2 ≠ 0 || g 3 != 0 || g 4 != 0)

/-- R302: the check of a queue's engine on a command: the cause of its trap, 0 for none. -/
def State.cmdCause (s : State) (t : Thread) (q : Nat) (w : List Word) : Nat :=
  let w0 := nth w 0 0
  let code := bitsAt w0 56 8
  let m := s.team t.ident.team
  let bad := headerBad (t.kind = .distaff) w0 ||
    (if code = 0x0F then qfenceBad w
    else if q < 4 then
      (if code = 0x10 then copyBad m false w
      else if code = 0x11 then copyBad m true w
      else code ≠ 0x30 || s.densifyBad (bitsAt t.xltAsid 0 16) w)
    else if q = 4 then code ≠ 0x20 || gatherBad m w
    else if q = 5 then pmeBad m w
    else if q = 6 then (if code = 0x50 then launchBad t.xltRoot w else code ≠ 0x51 || setdetBad w)
    else if q = 7 then sendBad w
    else if q = 8 then s.migrBad w
    else managerBad w)
  if bad then 0x11 else if q = 6 && launchPriv w && !t.priv then 0x0F else 0

/-! ## Acceptance -/

/-- The command that a thread pushes, with `RM` and `DLV` written (R302). -/
def State.newCmd (s : State) (k q : Nat) (w : List Word) : Cmd :=
  let t := s.thread k
  let w0 := setBits (setBits (nth w 0 0) 41 3 t.rm) 39 2 (s.level t)
  { id := s.svc.cmdNext, q := q, agent := k, team := t.ident.team, gnum := t.ident.gnum, lnum := t.ident.lnum,
    part := s.ownerPart t, words := w0 :: w.drop 1, root := t.xltRoot, asid := bitsAt t.xltAsid 0 16, priv := t.priv,
    mid := t.mid, seq := 0, st := .queued, started := false, ended := false, status := 0, prog := 0, total := 0, recs := [],
    sectors := [], hold := none, via := [], out := [], statusDone := false, signalDone := false, reached := [], got := [], ahead := [] }

/-- R366: has the dispatcher still to take a command of q6? A launch that an arm has fired stands in no queue (R368). -/
def State.untaken (s : State) (c : Cmd) : Bool :=
  c.q == 6 && !c.ended && c.recs.isEmpty && !(c.code = 0x50 && (s.launch? c.seq).isSome)

/-- R302, R105, R116, R126, R366, R405: has a queue room for a command? -/
def State.queueRoom (s : State) (c : Cmd) : Bool :=
  let mine := (s.svc.cmds.filter (fun d => d.q == c.q && c.sameIssuer d)).length
  if c.q < 4 then mine < 16
  else if c.q ≤ 5 then mine < 32
  else if c.q = 6 then
    (s.svc.cmds.filter (fun d => c.sameIssuer d && s.untaken d)).length < 16
      && (s.svc.cmds.filter s.untaken).length < 4096
  else if c.q = 9 then (s.svc.cmds.filter (fun d => d.q == 9)).length < 64
  else true

/-- The next launch number: numbers wrap to 1 (Table 14.7). -/
def nextLaunch (n : Nat) : Nat := if 2 ^ 32 - 1 ≤ n then 1 else n + 1

/-- Place a command at the tail of its queue (R302): its number on its channel, or its launch number, is given, a generation it
names is pinned (R78), and its wait counter rises. -/
def State.acceptCmd (s : State) (c : Cmd) : State × Nat :=
  let launch := c.q = 6 && c.code = 0x50
  let seq := if launch then s.work.lnumNext else (s.team c.team).nseq.getD c.q 0
  let s := if launch then { s with work := { s.work with lnumNext := nextLaunch seq } }
    else if isGroupKey c.agent then s.mapTeam c.team (fun t => { t with nseq := t.nseq.put c.q (seq + 1) })
    else s
  let pin (s : State) : State :=
    if c.q < 4 && c.code = 0x30 && bitsAt (c.w 7) 0 32 ≠ 0 then
      match s.regionAt c.asid (c.w 1) with
      | some (i, r) => s.putRegion i { r with pins := r.pins ++ [(c.id, bitsAt (c.w 7) 0 32)] }
      | none => s
    else s
  let s := { pin s with svc := { (pin s).svc with cmds := (pin s).svc.cmds ++ [{ c with seq := seq }], cmdNext := c.id + 1 } }
  let up (t : Thread) : Thread := { t with wc := t.wc.put c.sigx (t.wc.getD c.sigx 0 + 1) }
  let s := if c.sigt ≠ 1 then s
    else match s.pusher c with
      | some k => s.mapThread k up
      | none => s.mapSaved c.team c.gnum up
  (s, if launch then seq else 0)

/-- Table 14.3: the scope of the release that a PUSH performs. -/
def pushScope (q : Nat) : Nat := if q = 4 then 0 else if q = 7 then 3 else 2

/-- The release of a PUSH; it makes an immediate flush too (R378). -/
def State.afterPush (s : State) (q : Nat) (f : State → Res) : Res :=
  s.afterRelease (pushScope q) (fun s => if q = 4 then s.afterFlush f else f s)

/-- The eight command words from a scalar field. -/
def Thread.cmdWords (t : Thread) (a : BitVec 7) : List Word := (upto 8).map (fun i => t.regs.s (t.abs a + i))

/-- R302: check a command, release, and accept it where its queue has room; `f` makes the result of what was accepted. -/
def State.pushCmd (s : State) (d a : BitVec 7) (q : Nat) (f : Option Nat → Word) : Res :=
  let t := s.th
  let w := t.cmdWords a
  match s.cmdCause t q w with
  | 0 => s.afterPush q (fun s =>
      let c := s.newCmd s.work.cur q w
      if !(s.queueRoom c) || (c.sigt = 1 && 1023 ≤ t.wc.getD c.sigx 0) then .done (s.setS d (f none))
      else
        let p := s.acceptCmd c
        .done (p.1.setS d (f (some p.2))))
  | c => .moved (s.trapHere c 0)

/-- PUSH, R302, R306. -/
def execPush (d a : BitVec 7) (q : BitVec 4) (s : State) : Out :=
  let n := q.toNat
  .next (s.issue (fun t =>
    { distaff := true, illegal := badS a 8 || decide (10 ≤ n) || (t.kind = .distaff && decide (n < 6)),
      priv := n = 8 || n = 9, role := .copy, aborts := true, ends := true, reads := t.srcGroupS a 8, sdests := [t.abs d] })
    (fun s => s.pushCmd d a n (fun r => bitW r.isNone)))

/-- LAUNCH, R327: Table 14.7. -/
def execLaunch (d a : BitVec 7) (s : State) : Out :=
  .next (s.issue (fun t =>
    { distaff := true, illegal := badS a 8, aborts := true, ends := true, reads := t.srcGroupS a 8, sdests := [t.abs d] })
    (fun s => s.pushCmd d a 6 (fun r => match r with
      | some n => BitVec.ofNat 64 n
      | none => BitVec.ofNat 64 (2 ^ 60))))

/-! ## Arming (R328) -/

/-- The result of ARML. -/
def armResult (st num : Nat) : Word := BitVec.ofNat 64 (st * 2 ^ 60 + num)

/-- R328: cancel the arm of a tag that the issuer may cancel. -/
def State.cancelArm (s : State) (part tag : Nat) : State × Nat :=
  let t := s.th
  let mine (a : Arm) : Bool := a.part == part && a.tag == tag && (t.priv || a.cmd.asid == bitsAt t.xltAsid 0 16)
  match placeOf mine s.svc.arms 0 with
  | some i => ({ s with svc := { s.svc with arms := dropNth s.svc.arms i } }, 0)
  | none => (s, 4)

/-- R328: arm a command under a tag. -/
def State.arm (s : State) (part tag : Nat) (w : List Word) : State × Word :=
  if s.svc.arms.any (fun a => a.part == part && a.tag == tag) then (s, armResult 2 0)
  else if 256 ≤ s.svc.arms.length then (s, armResult 1 0)
  else
    let n := s.svc.armNext
    ({ s with svc := { s.svc with arms := s.svc.arms ++ [⟨tag, part, n, s.newCmd s.work.cur 6 w⟩], armNext := nextLaunch n } },
      armResult 0 n)

/-- ARML, R328: a command of code 0 cancels. `FA` governs the first command register, and the others block (R150). -/
def execArml (d a b : BitVec 7) (x y : Bool) (s : State) : Out :=
  .next (s.issue (fun t =>
    { distaff := true, illegal := badS a 8, aborts := true, ends := true,
      reads := t.srcS a x :: (t.srcGroupS a 8 ++ [t.srcS b y]), sdests := [t.abs d] })
    (fun s =>
      let t := s.th
      let w := t.cmdWords a
      let code := bitsAt (nth w 0 0) 56 8
      let part := (s.partOfThread t).getD 4
      let tag := t.valS b
      if code = 0 then
        if 2 ^ 32 ≤ tag.toNat then .done (s.setS d (armResult 3 0))
        else
          let p := s.cancelArm part tag.toNat
          .done (p.1.setS d (armResult p.2 0))
      else
        match (if code = 0x50 then s.cmdCause t 6 w else 0x11) with
        | 0 => s.afterPush 6 (fun s =>
            if 2 ^ 32 ≤ tag.toNat then .done (s.setS d (armResult 3 0))
            else
              let p := s.arm part tag.toNat w
              .done (p.1.setS d p.2))
        | c => .moved (s.trapHere c 0)))

/-! ## Waiting on engines -/

/-- The counters that a mask selects. -/
def maskCounters (m : Nat) : List Nat := (upto 6).filter (fun k => m.testBit k)

/-- Are the selected counters zero (R307)? -/
def Thread.countersZero (t : Thread) (m : Nat) : Bool := (maskCounters m).all (fun k => t.wc.getD k 0 == 0)

/-- The scope of the acquire that ends a wait on the selected counters (R160, R307). -/
def Thread.counterScope (t : Thread) (m : Nat) : Nat := (maskCounters m).foldl (fun n k => max n (t.wcScope.getD k 0)) 0

/-- The selected counters' releases have been acquired. -/
def Thread.clearScopes (t : Thread) (m : Nat) : Thread :=
  { t with wcScope := (maskCounters m).foldl (fun w k => w.del k) t.wcScope }

/-- The end of a wait on the counters of a mask; none while it has to wait. -/
def State.waitCounters (s : State) (m : Nat) : Option State :=
  let scope := s.th.counterScope m
  if s.th.countersZero m && s.acquireReady s.work.cur scope then
    some ((s.mapTh (fun t => t.clearScopes m)).acquireNow s.work.cur scope)
  else none

/-- WAITC, R307: a mask of zero waits for nothing. -/
def execWaitc (m : BitVec 6) (s : State) : Out :=
  .next (s.issue (fun _ => { distaff := true })
    (fun s => match s.waitCounters m.toNat with
      | some s => .done s
      | none => .stay s))

/-- SGETWP, R308, R110: an acquire at team scope. -/
def execSgetwp (d : BitVec 7) (c : BitVec 2) (s : State) : Out :=
  .next (s.issue (fun t => { sdests := [t.abs d] })
    (fun s => .done ((s.setS d (s.tm.wp.getD c.toNat 0)).acquireNow s.work.cur 0)))

/-- TRECLD, R309: a long-latency load of 64 bytes; its landing writes the tile count and the record slot. A misaligned address traps before
anything is read. -/
def execTrecld (d : BitVec 7) (a : BitVec 7) (k : BitVec 3) (x : Bool) (s : State) : Out :=
  .next (s.issue (fun t => { role := .walker, reads := [t.srcS a x], sdests := [t.abs d] })
    (fun s =>
      let t := s.th
      if (t.valS a).toNat % 64 ≠ 0 then .moved (s.trapHere 0x06 0 (t.valS a))
      else s.memWord (loadWord ⟨true, t.abs d, k.toNat + 1, 64, false⟩ [t.abs d] [] [] [laneReq t.scalarLane (t.valS a) .load 64])))

end Sys2Proof.Machine
end

