-- ==== Sys2Proof/WellFormed.lean ====
section
/-! DEFINITION. The combinations that the notes under Tables 9.3 to 9.7 exclude (R193, R211, R235 to R243, R258, R281, R283,
R288, R291, R302, R310, R317): a word of one of them raises trap cause 0x01 when it issues. What depends on the thread (its
NVR, its window, its kind) is checked at issue by Machine/Operands.lean. -/

namespace Sys2Proof

/-- Why a decoded word is malformed. -/
inductive IllFormed where
  /-- A code above those that its table gives: a condition of SSET or VCMP, an operation of MLOG, a subgroup of VSHUF, a format of MMA
  or MMAS, a form of VLD, VST or VLDS (Tables 9.3 to 9.6). -/
  | reservedCode
  /-- SFCVT with equal codes or two integer codes (R211). -/
  | scalarConversion
  /-- MLOG `.not` with a second source (R221). -/
  | maskOperand
  /-- VUNPK of a format that is not one of the eight, or of an element its format does not have (R237). -/
  | unpackFormat
  /-- VPACK of four sources with a nonzero VB or FB (R236). -/
  | packOperand
  /-- VCVT with equal codes, or with code 14 or 15 (R235). -/
  | vectorConversion
  /-- VRED or VSCAN with an operation, type or combination that does not exist (R243). -/
  | reduction
  /-- MMA or MMAS with a BSEL where the format has no scales (R258). -/
  | scaleSelect
  /-- A type code that the memory instruction does not accept (R281, R283). -/
  | memoryType
  /-- An order that the memory instruction does not accept. -/
  | memoryOrder
  /-- An atomic type that does not exist, or a bitwise operation on a float (R288). -/
  | atomicType
  /-- FENCE with the relaxed order (R291). -/
  | fenceOrder
  /-- PUSH to a reserved queue (R11). -/
  | reservedQueue
  /-- A first of eight command registers above 120 (R302). -/
  | commandRegisters
  /-- A barrier above cb3, or BARINIT of b0 (R157, R310). -/
  | barrier
  /-- TXBEGIN with a retry count of 0 (R317). -/
  | retryCount
  deriving DecidableEq, Repr

/-- `some e` when the check fails. -/
def failWhen (b : Bool) (e : IllFormed) : Option IllFormed := if b then some e else none

/-- Table 9.7: the conversion codes of SFCVT. -/
def sfcvtBad (p q : Nat) : Bool := p == q || (2 ≤ p && 2 ≤ q)

/-- The formats VUNPK accepts (R237). -/
def unpackBad (f j : Nat) : Bool :=
  !(f == 0 || f == 1 || f == 2 || f == 3 || f == 8 || f == 9 || f == 12 || f == 13)
    || ((f == 2 || f == 3 || f == 8 || f == 9) && 2 ≤ j)

/-- The reductions that exist (R243). -/
def reductionBad (o t : Nat) : Bool := 5 < o || 5 < t || (3 ≤ o && 4 ≤ t)

/-- The first failing check of an instruction. An event has no encoding and no check. -/
def illFormed : Instr → Option IllFormed
  | .sfcvt p q _ _ _ => failWhen (sfcvtBad p.toNat q.toNat) .scalarConversion
  | .sset c _ _ _ _ _ => failWhen (5 < c.toNat) .reservedCode
  | .vcmp _ c _ _ _ _ _ => failWhen (5 < c.toNat) .reservedCode
  | .vshuf w _ _ _ _ _ => failWhen (4 < w.toNat) .reservedCode
  | .vld f _ _ _ _ _ => failWhen (6 < f.toNat) .reservedCode
  | .vst f _ _ _ _ _ => failWhen (4 < f.toNat) .reservedCode
  | .vlds f _ _ _ _ _ => failWhen (f.toNat < 5 || 6 < f.toNat) .reservedCode
  | .mmas f _ _ _ _ _ _ _ _ => failWhen (2 < f.toNat) .reservedCode
  | .mlog o _ _ b => if 5 < o.toNat then some .reservedCode else failWhen (o == 5 && b != 0) .maskOperand
  | .vunpk _ _ f j => failWhen (unpackBad f.toNat j.toNat) .unpackFormat
  | .vpack f _ _ b _ y => failWhen (4 ≤ f.toNat && (b != 0 || y)) .packOperand
  | .vcvt p q _ _ _ => failWhen (p == q || 14 ≤ p.toNat || 14 ≤ q.toNat) .vectorConversion
  | .vred o t _ _ _ => failWhen (reductionBad o.toNat t.toNat) .reduction
  | .vscan o t _ _ _ => failWhen (reductionBad o.toNat t.toNat) .reduction
  | .mma f _ _ _ _ e _ _ => if 4 < f.toNat then some .reservedCode else failWhen (3 ≤ f.toNat && e != 0) .scaleSelect
  | .vldo _ _ _ _ t o _ => if 2 < t.toNat then some .memoryType else failWhen (2 ≤ o.toNat) .memoryOrder
  | .sldo _ _ _ _ t o _ => if 2 < t.toNat then some .memoryType else failWhen (2 ≤ o.toNat) .memoryOrder
  | .vsto _ _ _ t o _ => if t != 0 && t != 2 then some .memoryType else failWhen (o != 0 && o != 2) .memoryOrder
  | .ssto _ _ _ t o _ => if t != 0 && t != 2 then some .memoryType else failWhen (o != 0 && o != 2) .memoryOrder
  | .swaitge _ _ _ _ t o _ => if t != 0 && t != 2 then some .memoryType else failWhen (2 ≤ o.toNat) .memoryOrder
  | .sld _ _ _ t => failWhen (2 < t.toNat) .memoryType
  | .sst _ _ _ t => failWhen (t != 0 && t != 2) .memoryType
  | .vatom o _ _ _ t _ _ => failWhen (5 < t.toNat || (3 ≤ o.toNat && o.toNat ≤ 5 && 4 ≤ t.toNat)) .atomicType
  | .satom o _ _ _ t _ _ => failWhen (5 < t.toNat || (3 ≤ o.toNat && o.toNat ≤ 5 && 4 ≤ t.toNat)) .atomicType
  | .fence o _ => failWhen (o == 0) .fenceOrder
  | .push _ a q => if 10 ≤ q.toNat then some .reservedQueue else failWhen (120 < a.toNat) .commandRegisters
  | .launch _ a => failWhen (120 < a.toNat) .commandRegisters
  | .arml _ a _ _ _ => failWhen (120 < a.toNat) .commandRegisters
  | .barinit _ b _ => failWhen (b == 0 || 19 < b.toNat) .barrier
  | .bararv b => failWhen (19 < b.toNat) .barrier
  | .bararw b => failWhen (19 < b.toNat) .barrier
  | .barw b => failWhen (19 < b.toNat) .barrier
  | .txbegin _ n => failWhen (n == 0) .retryCount
  | _ => none

/-- An instruction that no static check of R193 refuses. -/
def WellFormed (i : Instr) : Prop := illFormed i = none

end Sys2Proof
end

