-- ==== Sys2Proof/Machine/Clause.lean ====
section
/-! DEFINITION. Clauses (spec/09_encoding_assembly.md, R183 to R187, R193, R439): their fetch through the instruction cache, the
check of the whole clause, the wait of its header, and the illegal word. -/

namespace Sys2Proof.Machine

/-! ## The check of a clause (R186) -/

/-- The instruction of a word; none where no row or no legal combination has its encoding (R193). -/
def wordInstr (w : Lane) : Option Instr :=
  match decode w with
  | .ok i => if illFormed i = none then some i else none
  | .error _ => none

/-- The class of an extended opcode (Table 9.7), as `CLS` codes it; none where it is unassigned. -/
def xopClass (x : Nat) : Option Nat :=
  if x < 16 then some 0
  else if x = 0x010 then some 3
  else if (0x040 ≤ x && x < 0x054) || (0x080 ≤ x && x < 0x0A0) || (0x100 ≤ x && x < 0x280) then some 1
  else if 0x3C0 ≤ x && x ≤ 0x3C2 then some 5
  else none

/-- R185: the class of a word by its major or extended opcode; none where that is unassigned. -/
def wordClass (w : Lane) : Option Nat :=
  let m := bits w 26 6
  if m = 0x3F then xopClass (bits w 16 10)
  else if 0x01 ≤ m && m ≤ 0x12 then (if m = 0x06 || m = 0x07 then none else some 0)
  else if 0x14 ≤ m && m ≤ 0x27 then (if 0x21 ≤ m && m ≤ 0x23 then none else some 1)
  else if 0x28 ≤ m && m ≤ 0x2A then some 2
  else if 0x2C ≤ m && m ≤ 0x35 then some 3
  else if m = 0x36 || (0x38 ≤ m && m ≤ 0x3A) then some 4
  else if 0x3C ≤ m && m ≤ 0x3E then some 5
  else none

/-- Is an instruction a control transfer (R186)? -/
def isTransfer (i : Instr) : Bool :=
  match i with
  | .br _ => true
  | .brz _ _ => true
  | .brnz _ _ => true
  | .brany _ _ => true
  | .brall _ _ => true
  | .call _ _ => true
  | .ret _ _ => true
  | .jmpi _ _ => true
  | .haltg => true
  | _ => false

/-- Is an instruction REGION? -/
def isRegion (i : Instr) : Bool :=
  match i with
  | .region _ => true
  | _ => false

/-- Table 9.1: the fields of a header. -/
def hdrCnt (h : Lane) : Nat := bits h 24 4
def hdrCls (h : Lane) : Nat := bits h 21 3
def hdrWin (h : Lane) : Nat := bits h 18 3
def hdrWait (h : Lane) : Nat := bits h 12 6
def hdrYld (h : Lane) : Bool := flag h 11

/-- R186: is a header malformed? -/
def hdrBad (h : Lane) (distaff : Bool) : Bool :=
  bits h 28 4 ≠ 12 || hdrCnt h = 0 || 6 ≤ hdrCls h || bits h 0 11 ≠ 0 || (distaff && hdrWin h ≠ 0)

/-- R185, R186: is word `i` of a clause of `n` words out of its class or its place? -/
def wordMisplaced (cls n i : Nat) (w : Lane) : Bool :=
  (match wordClass w with
    | some 0 => false
    | some c => c != cls
    | none => false)
  || (match wordInstr w with
    | some x => (isTransfer x && i != n) || (isRegion x && i != 1)
    | none => false)

/-- R186: does a fetched clause, header first, break the format? -/
def clauseBad (ws : List Lane) : Bool :=
  match ws with
  | [] => true
  | h :: r => ((upto r.length).zip r).any (fun p => wordMisplaced (hdrCls h) r.length (p.1 + 1) p.2)

/-! ## Fetching (R439) -/

/-- What a fetch of words comes to. -/
inductive Fetching where
  | ok (s : State) (ws : List Lane)
  | fault (s : State) (cause reason : Nat)
  | busy (s : State)

/-- Go on with the words fetched. -/
def Fetching.andThen (r : Fetching) (f : State → List Lane → Fetching) : Fetching :=
  match r with
  | .ok s ws => f s ws
  | .fault s c e => .fault s c e
  | .busy s => .busy s

/-- A word of memory at package scope, past masked and speculative bytes, through the instruction cache. -/
def State.codeWord (s : State) (k : Nat) (pa : Word) : Fetching :=
  let t := s.thread k
  match (s.core t.icache).icache.find pa.toNat with
  | some w => .ok s [w]
  | none => match s.vet t.mid .fetch pa with
    | .error r => .fault s 0x09 r
    | .ok a =>
      let p := s.steer a (keyOf pa)
      if s.lineBusy (p.1 / 128) || s.windowHeld pa then .busy s
      else match s.visit t.mid p.2 (p.1 / 128) with
        | .wait s => .busy s
        | .lost s => .fault s 0x10 3
        | .go s =>
          if s.peekPoison a 4 then .fault s 0x10 1
          else
            let w : Lane := BitVec.ofNat 32 (ofBytes (s.peek a (keyOf pa) 4))
            .ok ((s.mapCore t.icache (fun c => { c with icache := c.icache.put pa.toNat w })).readAt a (keyOf pa) 4 t.mid) [w]

/-- One word of code at a virtual address. -/
def State.fetchWord (s : State) (k : Nat) (va : Word) : Fetching :=
  let x := (s.thread k).space
  let l := s.look x .fetch va 4
  match l with
  | .miss => (match s.walkFault k x.asid va.toNat with
    | some f => .fault (s.dropFaults k) f.cause f.reason
    | none => .busy (s.startWalk k x va.toNat))
  | .fail c r _ => .fault (l.settle x s) c r
  | .ok pa _ => (l.settle x s).codeWord k pa

/-- The words of a clause after its header. -/
def State.fetchWords (s : State) (k : Nat) (va : Word) : Nat → Fetching
  | 0 => .ok s []
  | n + 1 => (s.fetchWord k va).andThen (fun s w =>
      (s.fetchWords k (va + 4) n).andThen (fun s ws => .ok s (w ++ ws)))

/-! ## The fetch of a clause -/

/-- A trap at the header of a clause (R386): a clause-format fault resumes at the header, a fault of the fetch where the thread was to
go on. -/
def State.headerTrap (s : State) (cause reason : Nat) (va : Word) : State :=
  s.trap s.work.cur ⟨cause, reason, 0, s.th.active, va, false, if cause = 0x02 then rsmWord 0 s.th.fetch.hdr else s.th.here⟩

/-- A fault of a fetch: it parks a group with a record of kind 1, and traps on a distaff thread and where the cause does not park
(Table 18.1, R362). -/
def State.fetchFault (s : State) (cause reason : Nat) : State :=
  let t := s.th
  let h := t.fetch.hdr
  if t.kind = .group && parks cause reason then
    if !(s.recordRoom t.die 1) then s
    else
      let part := s.ownerPart t
      let s := s.report part t.die
        ⟨1, cause, reason, t.mid, t.ident.slot, 3, bitsAt t.xltAsid 0 16, h, t.active, t.ident.lnum, 0, h, 0⟩ (.word s.work.cur)
      s.mapTh (fun t => { t with
        status := .parked, park := some ⟨[], 0, true, [(s.lastToken part, t.active)], false⟩ })
  else s.headerTrap cause reason (if 7 ≤ cause && cause ≤ 9 then h else 0)

/-- The header's `WAIT` is met: the clause temporaries read zero, and its first word comes next (R145, R184, R186). -/
def State.startClause (s : State) : State :=
  match s.th.fetch.words with
  | [] => s
  | h :: _ =>
    match s.waitCounters (hdrWait h) with
    | none => s
    | some s => s.mapTh (fun t => { t with
        fetch := { t.fetch with wix := 1 }, regs := match t.kind with
          | .group => t.regs.clearTemps
          | .distaff => t.regs })

/-- A clause has been fetched and checked. A thread that resumes inside it goes to its word, or to the next header past the last
(R386). -/
def State.enterClause (s : State) (ws : List Lane) : State :=
  let s := s.mapTh (fun t => { t with fetch := { t.fetch with words := ws } })
  if s.th.fetch.wix = 0 then s.startClause
  else if s.th.cnt < s.th.fetch.wix then s.mapTh (fun t => t.goto t.nextHdr)
  else s

/-- Has the matrix engine an operation of the thread that is not finished? Its traps come before the next clause (R262). -/
def State.matrixOut (s : State) : Bool :=
  s.th.kind = .group && (s.core s.th.ident.core).mxq.any (fun j => j.members.contains s.work.cur)

/-- R183 to R186: fetch the clause at the thread's header. -/
def State.fetchClause (s : State) : State :=
  let k := s.work.cur
  let t := s.th
  let h := t.fetch.hdr
  if s.matrixOut then s
  else if h.toNat % 4 ≠ 0 then s.headerTrap 0x06 0 h
  else match s.fetchWord k h with
    | .busy s => s
    | .fault s c r => s.fetchFault c r
    | .ok s ws =>
      let w := nth ws 0 0
      if hdrBad w (t.kind = .distaff) then s.headerTrap 0x02 0 0
      else match s.fetchWords k (h + 4) (hdrCnt w) with
        | .busy s => s
        | .fault s c r => s.fetchFault c r
        | .ok s r => if clauseBad (w :: r) then s.headerTrap 0x02 0 0 else s.enterClause (w :: r)

/-- CLAUSE_FETCH, R183 to R186, R439: the thread's next clause is fetched and checked; once it has been, its wait is tested. -/
def execClauseFetch (agent : Nat) (s : State) : Out :=
  .next (
    let t := s.thread agent
    let s := s.setCur agent
    if !t.issues then s
    else if t.fetch.words.isEmpty then s.fetchClause
    else if t.fetch.wix = 0 then s.startClause
    else s)

/-! ## Illegal words -/

/-- The word at a thread's position. -/
def Thread.word (t : Thread) : Lane := nth t.fetch.words t.fetch.wix 0

/-- The instruction at a thread's position. -/
def Thread.instr (t : Thread) : Option Instr := wordInstr t.word

/-- ILLEGAL_INSTRUCTION, R193: a word that no row encodes, or of a combination that does not exist, raises cause 0x01 when it
issues. -/
def execIllegalInstruction (agent : Nat) (s : State) : Out :=
  .next (
    let t := s.thread agent
    let s := s.setCur agent
    if t.issues && !t.fetch.words.isEmpty && t.fetch.wix ≠ 0 && t.instr.isNone then s.trapHere 0x01 0 else s)

/-- R317: the clause to which a transaction returns has to begin with REGION. -/
def Thread.badRestart (t : Thread) : Bool :=
  t.tx.live && t.fetch.wix = 1 && t.fetch.hdr = t.tx.rh && (match t.instr with
    | some i => !(isRegion i)
    | none => true)

/-- R317: such a clause ends the transaction with cause 5, and cause 0x01 is raised at its first word. -/
def State.restartTrap (s : State) : State :=
  let p := s.th.here
  let s := s.final s.work.cur 5
  s.trap s.work.cur ⟨0x01, 0, 0, s.th.active, 0, false, p⟩

end Sys2Proof.Machine
end

