-- ==== Sys2Proof/Machine/Collector.lean ====
section
/-! DEFINITION. The request collector (spec/05_copy_engine_scratchpad.md, R116 to R119) and VGATH (R280). -/

namespace Sys2Proof.Machine

/-! ## Windows -/

/-- `RQC.CTL.LMAX` (Table 5.6). -/
def Core.lmax (c : Core) : Nat := bitsAt c.rqcCtl 9 7

/-- The windows in flight. -/
def Core.flights (c : Core) : Nat := (c.windows.filter (fun w => w.issued)).length

/-- Close the open window: its line reads are issued (R117). -/
def Core.closeWindow (c : Core) : Core :=
  { c with windows := c.windows.map (fun w => { w with issued := true }), stale := [] }

/-- Close the open window once it holds `LMAX` lines. -/
def Core.closeFull (c : Core) : Core :=
  if c.windows.any (fun w => !w.issued && decide (c.lmax ≤ w.lines.length)) then c.closeWindow else c

/-- A request joins the open window, or opens one; with four in flight it waits (R117). -/
def Core.joinWindow (c : Core) (a : Access) : Core :=
  let key := (a.pa / 128, a.key)
  if c.windows.any (fun w => !w.issued) then
    Core.closeFull { c with windows := c.windows.map (fun w =>
        if w.issued then w
        else { w with lines := if w.lines.contains key then w.lines else w.lines ++ [key], reqs := w.reqs ++ [a] }) }
  else if c.flights < 4 then Core.closeFull { c with windows := c.windows ++ [⟨[key], [a], false⟩], stale := [] }
  else { c with rqcWait := c.rqcWait ++ [a] }

/-- R118: a request whose group has acquired since the window opened closes it first. -/
def Core.request (c : Core) (slot : Nat) (a : Access) : Core :=
  if !c.rqcWait.isEmpty then { c with rqcWait := c.rqcWait ++ [a] }
  else (if c.stale.contains slot then c.closeWindow else c).joinWindow a

/-- The agent of the accesses of a gather command: above every thread's key. -/
def cmdAgent (id : Nat) : Nat := 2 ^ 20 + id

/-- The slot by which a request is told stale (R118): a command's group acquires nothing for it. -/
def State.slotOf (s : State) (a : Access) : Nat := if a.agent < 2 ^ 20 then (s.thread a.agent).ident.slot else 32

/-- The requests that waited try again, oldest first. -/
def State.pumpCollector (s : State) (core : Nat) : State :=
  (s.core core).rqcWait.foldl (fun (s : State) a =>
    s.mapCore core (fun c => c.request (s.slotOf a) a))
    (s.mapCore core (fun c => { c with rqcWait := [] }))

/-- A request misses the L1: the miss is scored (R376), and joins a window. -/
def State.collectMiss (s : State) (core : Nat) (a : Access) : State :=
  (s.scoreMiss core (a.pa / 128)).mapCore core (fun c => c.request (s.slotOf a) a)

/-- R116: a lane's request looks up the L1; a miss joins a window. -/
def State.collect (s : State) (core : Nat) (a : Access) : State :=
  match s.freshCopy core (a.pa / 128) with
  | some l => if l.key = a.key then s.performAt core a l else s.collectMiss core a
  | none => s.collectMiss core a

/-! ## Line reads -/

/-- How a line read stands: it has been made, it waits, or its request has been lost (R101). -/
inductive LineRead where
  | ok (s : State) (data : BitVec 1024) (poison : BitVec 16)
  | wait (s : State)
  | lost (s : State)

/-- May a core read this line untracked now: no service of it at its home, no write of the core to it on the way? -/
def State.readReady (s : State) (core line : Nat) : Bool := !(s.lineBusy line) && !(s.coreBusy core line)

/-- The home reads a line for a core (R90): an untracked read for a core of its die, which copies an owner's data (FwdD), else a GetS of the
core's remote-data cache, which gets the line in S. The line is then resident at its home. -/
def State.homeLineRead (s : State) (core line key mid : Nat) : LineRead :=
  let near := onDie core line
  let s := s.settleKey line key
  let s := (if near then s.snoopLine line key else s.demote line).count (128 * line) false mid
  let h := match s.dirtyCopy line with
    | some l => (l.data, l.poison)
    | none => (s.homeLine key line, s.homePoison line)
  let d := s.dirOf line
  let d := { d with resident := true, key := key, dirty := if d.resident && d.key = key then d.dirty else [] }
  if near then .ok (s.putDir line (d.addCsv (core % 48))) h.1 h.2
  else
    .ok ((s.putDir line { d.addSharer (48 + core / 48) with st := if d.st = .I then .S else d.st }).putLine (rdcOf core) line
      (CLine.clean h.1 key .S h.2)) h.1 h.2

/-- R116, R87: an untracked read of a line for a core: in the remote-data cache of its die, or at its home, which admits the request (R98)
and where both have a way for the line (R80). -/
def State.lineRead (s : State) (core line key mid agent : Nat) : LineRead :=
  let hit := if onDie core line then none else match s.cached (rdcOf core) line with
    | some l => if l.key = key then some l else none
    | none => none
  match hit with
  | some l => .ok s l.data l.poison
  | none =>
    match (if onDie core line then some s else s.makeRoom (rdcOf core) line agent) with
    | none => .wait s
    | some s =>
      let s := s.makeL2Room line
      if !(s.l2Room line) || s.lineBusy line then .wait s
      else match s.visit mid key line with
        | .wait s => .wait s
        | .lost s => .lost s
        | .go s => s.homeLineRead core line key mid

/-- A line's bytes for a request of a gather command. -/
def State.gatherArrive (s : State) (a : Access) (bs : List (Option (Nat × Bool))) : State :=
  { s with svc := { s.svc with cmds := s.svc.cmds.map (fun c =>
      if cmdAgent c.id = a.agent then { c with got := c.got ++ [((a.va, a.size), bs)] } else c) } }

/-- The bytes of an access in its line, with their poison. -/
def Access.bytesIn (a : Access) (d : BitVec 1024) (poison : BitVec 16) : List (Option (Nat × Bool)) :=
  (upto a.size).map (fun i => some (lineByte d (a.pa % 128 + i), poison.getLsbD ((a.pa % 128 + i) / 8)))

/-- A request merged into a line read observes its value (R118). -/
def State.collected (s : State) (a : Access) (d : BitVec 1024) (poison : BitVec 16) : State :=
  if a.agent < 2 ^ 20 then s.performRead a d poison else s.gatherArrive a (a.bytesIn d poison)

/-- A request whose line read has been lost fails (R101). -/
def State.collectLost (s : State) (a : Access) : State :=
  if a.agent < 2 ^ 20 then s.failAcc a 0x10 3 else s.gatherArrive a []

/-! ## Events -/

/-- RQC_WINDOW_TIMEOUT, R117: the open window closes after `WIN` clocks and issues its reads. -/
def execRqcWindowTimeout (core : Nat) (s : State) : Out := .next (s.mapCore core Core.closeWindow)

/-- The first request for a line in the windows in flight. -/
def Core.wanted (c : Core) (line : Nat) : Option (Nat × Nat) :=
  c.windows.findSome? (fun w => if w.issued then w.lines.find? (fun l => l.1 == line) else none)

/-- Take the requests for a line and key out of the oldest window in flight that reads it. -/
def takeLine (key : Nat × Nat) : List Window → List Window × List Access
  | [] => ([], [])
  | w :: r =>
    if w.issued && w.lines.contains key then
      let mine (a : Access) : Bool := (a.pa / 128, a.key) == key
      let w' := { w with lines := w.lines.filter (fun l => l != key), reqs := w.reqs.filter (fun a => !(mine a)) }
      (if w'.lines.isEmpty then r else w' :: r, w.reqs.filter mine)
    else
      let p := takeLine key r
      (w :: p.1, p.2)

/-- The requests of a line leave their window. -/
def State.closeLine (s : State) (core : Nat) (ws : List Window) : State := s.mapCore core (fun c => { c with windows := ws })

/-- RQC_LINE_RETURN, R117 to R119: one line's read is performed, and every request merged into it observes its value. -/
def execRqcLineReturn (core line : Nat) (s : State) : Out :=
  .next (match (s.core core).wanted line with
    | none => s
    | some key =>
      let p := s.steer (128 * key.1) key.2
      if !(s.readReady core (p.1 / 128)) then s
      else
        let (ws, reqs) := takeLine key (s.core core).windows
        match s.lineRead core (p.1 / 128) p.2 core ((reqs.head?.map (·.agent)).getD 0) with
        | .wait s => s
        | .lost s => (reqs.foldl (fun (s : State) a => s.collectLost a) (s.closeLine core ws)).pumpCollector core
        | .ok s data poison =>
          (reqs.foldl (fun (s : State) a => s.collected a data poison) (s.closeLine core ws)).pumpCollector core)

/-! ## VGATH -/

/-- The good lanes of a VGATH enter the collector. R36 and Table 1.8 leave open under which master such a lane is checked, its core's or its
request collector's: the model checks it as the core's, as every lane (log entry 34). -/
def State.collectLanes (s : State) (k prod : Nat) (rs : List Resolved) : State :=
  rs.foldl (fun (s : State) r =>
    match r.fate with
    | .good (.mem a key) => s.collect (s.thread k).ident.core (r.access k prod (s.thread k).mid a key 0)
    | .good (.reg m) => s.sendReg (r.access k prod (s.thread k).mid 0 0 0) m
    | _ => s) s

/-- A lane has to wait behind accesses of its core that wait for the same line. -/
def State.behindLine (s : State) (core : Nat) (r : Resolved) : Bool :=
  match r.fate with
  | .good (.mem a _) => !(s.waiting core (a / 128)).isEmpty
  | _ => false

/-- The lanes of a VGATH: as a load's, but for where the good ones go (log entry 34 on their master). -/
def State.collectWord (s : State) (w : MemWord) : Res :=
  let k := s.work.cur
  let t := s.th
  let rs := s.resolveAll k w.reqs
  let parked := rs.filter Resolved.isParked
  let good := rs.filter Resolved.isGood
  if rs.any Resolved.waits then .stay (s.startWalks k rs)
  else if rs.any (fun r => s.replayHolds k r.req.va || s.behindOwn k r || s.behindLine t.ident.core r) then .stay s
  else if !(s.recordRoom t.die (recordsOf parked)) || !(s.core t.ident.core).rqcWait.isEmpty then .stay s
  else if good.isEmpty && parked.isEmpty then failRes (s.settleLooks k rs) (w.failures rs)
  else
    let fails := w.failures rs
    let p := { t.producer w.form w.sd w.vd with
      left := good.length + parked.length, failed := fails, holds := !fails.isEmpty }
    let s := ((s.settleLooks k rs).mapTh (fun t => t.produce p)).collectLanes k p.id good
    if parked.isEmpty then .done s
    else
      let (s, answers) := s.reportPages k 1 t.fetch.hdr parked (.word k)
      .moved (s.mapTh (fun t => { t with
        status := .parked, park := some ⟨parked.map (·.req), p.id, false, answers, false⟩ }))

/-- VGATH, R280, R116: inside a transaction its lanes are transactional loads. -/
def execVgath (w : Bool) (d : BitVec 7) (a : BitVec 7) (b : BitVec 7) (x : Bool) (y : Bool) (s : State) : Out :=
  let n := if w then 2 else 1
  let srcs : List Src := [srcV a x]
  .next (s.issue (fun t =>
    { role := .vector, illegal := t.badDest d n w || t.badV a 1, lanes := true, reads := srcs ++ [t.srcS b y], vdests := destsV d n })
    (fun s =>
      let t := s.th
      let p := t.cleanLanes srcs
      let m := loadWord ⟨false, d.toNat, n, 4 * n, false⟩ [] (destsV d n) p.2
        (p.1.map (fun l => laneReq l (t.elementAddr a b l (4 * n)) .load (4 * n)))
      if t.acqPending then .stay s
      else if t.tx.live then s.memWord m
      else s.collectWord m))

end Sys2Proof.Machine
end

