-- ==== Sys2Proof/Machine/Copy.lean ====
section
/-! DEFINITION. The copy engine's channels and gathers (spec/05_copy_engine_scratchpad.md, R105 to R116, R120, R121;
spec/03_sparse_regions.md, R77, R78): commands are begun, fetched unit by unit (a tile, a row of a box, a gathered row), and
delivered sector by sector. -/

namespace Sys2Proof.Machine

/-! ## Sectors -/

/-- Cut bytes at an address into aligned sectors of 32 bytes. -/
def cutSectors (addr : Nat) (bs : List (Option (Nat × Bool))) : List (Nat × List (Option (Nat × Bool))) :=
  if bs.isEmpty then []
  else (upto ((addr + bs.length - 1) / 32 - addr / 32 + 1)).map (fun k =>
    let b := (addr / 32 + k) * 32
    let lo := max addr b
    let seg := (bs.drop (lo - addr)).take (b + 32 - lo)
    (b, List.replicate (lo - b) none ++ seg ++ List.replicate (32 - (lo - b) - seg.length) none))

/-- Add a sector in ascending address order; bytes for one sector come together. -/
def insertSector (x : Sector) : List Sector → List Sector
  | [] => [x]
  | y :: r =>
    if x.addr < y.addr then x :: y :: r
    else if x.addr = y.addr && x.team = y.team then
      { y with bytes := (y.bytes.zip x.bytes).map (fun p => if p.2.isSome then p.2 else p.1) } :: r
    else y :: insertSector x r

/-- Where a logical sector lies (R103): a swizzle moves chunks of 16 bytes, so the two halves of a sector stay in one sector and change
places where bit 4 of the address is flipped. -/
def placeSector (m : Nat) (p : Nat × List (Option (Nat × Bool))) : Nat × List (Option (Nat × Bool)) :=
  if (swz m p.1).testBit 4 then (swz m p.1 - 16, p.2.drop 16 ++ p.2.take 16) else (swz m p.1, p.2)

/-- The sectors of bytes at a logical scratchpad address, for each of some teams (R103, R109). -/
def scratchSectors (teams : List Nat) (m addr : Nat) (bs : List (Option (Nat × Bool))) : List Sector :=
  ((cutSectors addr bs).map (placeSector m)).flatMap (fun p => teams.map (fun t => ⟨t, true, p.1, 0, p.2⟩))

/-- The sectors of bytes at a virtual address, whose pages are translated. -/
def memSectors (maps : List (Nat × Word)) (addr : Nat) (bs : List (Option (Nat × Bool))) : List Sector :=
  (cutSectors addr bs).map (fun p =>
    let page := match maps.find? (fun q => q.1 == p.1 / 4096) with
      | some q => q.2
      | none => 0
    ⟨0, false, p.1, page + BitVec.ofNat 64 (p.1 % 4096), p.2⟩)

/-- Bytes of a scratchpad with their poison. -/
def Team.sread (t : Team) (m a n : Nat) : List (Option (Nat × Bool)) :=
  (upto n).map (fun i => some (t.sbyte m (a + i), t.spoisoned m (a + i) 1))

/-- Write a sector at a physical scratchpad address (R109, R83). -/
def Team.putSector (t : Team) (a : Nat) (bs : List (Option (Nat × Bool))) : Team :=
  let t := (bs.zip (upto 32)).foldl (fun (t : Team) b => match b.1 with
    | some (v, _) => t.setSbyte 0 (a + b.2) v
    | Option.none => t) t
  let whole := (upto 4).filter (fun u => ((bs.drop (8 * u)).take 8).all (fun b => b.isSome))
  let bad := (upto 4).filter (fun u => poisonedIn ((bs.drop (8 * u)).take 8))
  (t.markUnits (whole.map (fun u => a / 8 + u)) false).markUnits (bad.map (fun u => a / 8 + u)) true

/-! ## Ends of a command's own work -/

/-- Is a command the one its channel or collector performs now (R105, R116)? -/
def State.heads (s : State) (c : Cmd) : Bool := !(s.svc.cmds.any (fun d => d.id < c.id && d.q == c.q && d.mid == c.mid))

/-- The status that a failure other than a park ends a command with (Table 5.4). -/
def failStatus (cause reason : Nat) : Nat :=
  if cause = 8 && reason = 5 then 7 else if cause = 0x10 then (if reason = 3 then 4 else 3) else 1

/-- A status of a command that goes on: denied bytes, or zero rows. The first is kept. -/
def Cmd.note (c : Cmd) (st : Nat) : Cmd := if c.status = 0 then { c with status := st } else c

/-- No unit is left: the command is over when its sectors are delivered. -/
def Cmd.close (c : Cmd) : Cmd :=
  let c := { c with total := c.prog, hold := none, got := [], ahead := [] }
  if c.sectors.isEmpty then { c with st := .finishing, ended := true, via := [] } else { c with st := .running }

/-- A command ends with a status after the units before it (R115). -/
def Cmd.stop (c : Cmd) (st : Nat) : Cmd := Cmd.close { c with status := st }

/-- A fault while a unit is fetched: it parks the command, or ends it after the units before it (R115). -/
def State.unitFault (s : State) (c : Cmd) (cause reason acc va : Nat) : State :=
  if parks cause reason then s.parkCmd c cause reason acc va else s.putCmd (c.stop (failStatus cause reason))

/-- R108: a command is found malformed when it is reached: nothing moves, and cause 0x11 is raised on the pushing group, or
reported where that has ended. -/
def State.malformed (s : State) (c : Cmd) : State :=
  let c := { c with status := 5, st := .finishing, ended := true, started := true }
  match s.pusher c with
  | some k => (s.defer k ⟨0x11, 0, 0, (s.thread k).active, 0, false, none, none⟩).putCmd c
  | none =>
    if s.recordRoom c.die 1 then
      (s.report c.part c.die ⟨4, 0x11, 0, c.mid, c.agent % 32, 0, c.asid, 0, 0, c.lnum,
        TrapInfo.tcs ⟨0x11, 0, 0, 0, 0, false, 0⟩, 0, 0⟩ (.engine c.id)).putCmd c
    else s

/-! ## Write pointers (R110) -/

/-- The teams whose delivery the write pointer follows: the pushing team, or the slowest of those named without it. -/
def Cmd.watched (c : Cmd) (x : Sector) : Bool := !x.scratch || x.team == c.team || c.code == 0x11

/-- Rows of 128 bytes count where the destination is swizzled. -/
def Cmd.grain (c : Cmd) : Nat :=
  if c.q < 4 && (c.code = 0x10 || c.code = 0x11) && bitsAt (c.w 0) 32 2 ≠ 0 then 128 else 1

/-- The write pointer as delivery proceeds: it never falls. -/
def State.advanceWp (s : State) (c : Cmd) (ownNamed : Bool) (past : Nat) : State :=
  if 4 ≤ c.q then s
  else
    let left := c.sectors.filter (fun x => c.watched x && (!ownNamed || !x.scratch || x.team == c.team))
    let at_ := match left with
      | x :: _ => x.addr / c.grain * c.grain
      | [] => past / c.grain * c.grain
    s.mapTeam c.team (fun t =>
      let old := t.wp.getD c.q 0
      { t with wp := t.wp.put c.q (setBits (setBits old 56 8 (c.seq % 256)) 0 56 (max (bitsAt old 0 56) at_)) })

/-- A command starts: `CSEQ` is its number, and `ADDR` its lowest destination. -/
def State.startWp (s : State) (c : Cmd) (lowest : Nat) : State :=
  if 4 ≤ c.q then s
  else s.mapTeam c.team (fun t =>
    { t with wp := t.wp.put c.q (BitVec.ofNat 64 (c.seq % 256 * 2 ^ 56 + lowest % 2 ^ 56)) })

/-! ## Translation of pages -/

/-- The pages of byte ranges, each by the first byte of it that they touch. -/
def firstBytes (ranges : List (Nat × Nat)) : List Nat :=
  (ranges.flatMap (fun p => (pieces p.1 p.2).map (·.1))).foldl
    (fun l va => if l.any (fun v => v / 4096 == va / 4096) then l else l ++ [va]) []

/-- Translate the pages of destination ranges. -/
def State.mapPages (s : State) (x : Space) (rows : List (Nat × Nat)) : Eng (List (Nat × Word) × List TlbEntry) :=
  (firstBytes rows).foldl
    (fun (e : Eng (List (Nat × Word) × List TlbEntry)) va =>
      e.andThen (fun s l => (s.engWhere x .write va).andThen (fun s p =>
        .ok s (l.1 ++ [(va / 4096, p.1 - BitVec.ofNat 64 (va % 4096))], match p.2 with
          | some t => l.2 ++ [t]
          | none => l.2))))
    (.ok s ([], []))

/-- What a command holds for a page (R51). -/
def Cmd.held (c : Cmd) (write : Bool) (va : Nat) : Option Ahead :=
  c.ahead.find? (fun h => h.page == va / 4096 && h.write == write)

/-- The translations that a command holds for writing: pages, and the entries they came through. -/
def Cmd.heldMaps (c : Cmd) (vas : List Nat) : List (Nat × Word) × List TlbEntry :=
  let hs := vas.filterMap (c.held true)
  (hs.map (fun h => (h.page, h.pa)), hs.filterMap (·.via))

/-- A command translates a page for a coming tile, and holds the outcome. -/
def State.holdPage (s : State) (c : Cmd) (va : Nat) (write : Bool) : State :=
  let keep (s : State) (pa : Word) (via : Option TlbEntry) (fault : Option (Nat × Nat)) : State :=
    s.putCmd { c with ahead := c.ahead ++ [⟨va / 4096, write, pa, via, fault⟩] }
  match s.engWhere c.space (if write then .write else .read) va with
  | .busy q => s.await q
  | .fault s cause reason _ => keep s 0 none (some (cause, reason))
  | .ok s p => keep s (p.1 - BitVec.ofNat 64 (va % 4096)) p.2 none

/-- Add a fetched unit's sectors to a command. The next unit's first sector or row waits for that unit where the two share it. -/
def State.addUnit (s : State) (c : Cmd) (xs : List Sector) (via : List TlbEntry) (next grain : Nat) : State :=
  let c := { c with prog := c.prog + 1, got := [], sectors := xs.foldl (fun l x => insertSector x l) c.sectors, via := c.via ++ via }
  s.putCmd (if c.prog = c.total then c.close
    else { c with hold := if next % grain = 0 then none else some (next / grain * grain) })

/-- May the next unit be fetched: everything left waits for it? -/
def Cmd.fetches (c : Cmd) : Bool :=
  c.st = .running && c.prog < c.total && (match c.hold with
    | none => c.sectors.isEmpty
    | some h => c.sectors.all (fun x => h ≤ x.addr))

/-! ## Copies (R106 to R108) -/

def Cmd.dir (c : Cmd) : Nat := bitsAt (c.w 0) 36 3
def Cmd.sswz (c : Cmd) : Nat := bitsAt (c.w 0) 34 2
def Cmd.dswz (c : Cmd) : Nat := bitsAt (c.w 0) 32 2
def Cmd.tidx (c : Cmd) : List Nat :=
  [bitsAt (c.w 3) 0 32, bitsAt (c.w 3) 32 32, bitsAt (c.w 4) 0 32, bitsAt (c.w 4) 32 32, bitsAt (c.w 5) 32 32]
def Cmd.nt (c : Cmd) : Nat := bitsAt (c.w 5) 0 16

/-- The source and the destination record, or the only one. -/
def Cmd.rec1 (c : Cmd) : TRec := TRec.ofWords (c.recs.take 8)
def Cmd.rec2 (c : Cmd) : TRec := TRec.ofWords (c.recs.drop 8)

/-- R108: are the tile indices and the number of tiles outside a record's tensor? -/
def Cmd.tilesBad (c : Cmd) (r : TRec) : Bool :=
  (c.tidx.zip (r.counts ++ [1, 1, 1, 1])).any (fun p => p.2 ≤ p.1) || r.tileCount < r.tileNumber c.tidx + c.nt

/-- R108: is a command whose records have been read malformed? -/
def Cmd.reachedBad (c : Cmd) (alloc : Nat) : Bool :=
  let r := c.rec1
  let q := c.rec2
  let src := (c.w 1).toNat
  let dst := (c.w 2).toNat
  match c.dir with
  | 0 => r.bad c.recs || c.tilesBad r || alloc < dst + c.nt * r.tb || dst % 32 ≠ 0
  | 1 => r.bad c.recs || c.tilesBad r || alloc < src + r.tb || src % 32 ≠ 0 || r.descends
  | 2 => false
  | _ => r.bad c.recs || q.bad (c.recs.drop 8) || c.tilesBad r || c.tilesBad q || r.fmt ≠ q.fmt || r.rank ≠ q.rank
      || r.tiles != q.tiles || q.descends

/-- The tile of a copy's unit, and of the one being transferred. -/
def Cmd.tileOf (c : Cmd) (r : TRec) (i : Nat) : List Nat := r.tileAt (r.tileNumber c.tidx + i)
def Cmd.tile (c : Cmd) (r : TRec) : List Nat := c.tileOf r c.prog

/-- The memory ranges of a tile. -/
def TRec.ranges (r : TRec) (t : List Nat) : List (Nat × Nat) := (upto r.rows).filterMap (fun n => r.memRow t n)

/-- The pages that a copy's unit touches, by the first byte of each, and whether it writes them. -/
def Cmd.unitPages (c : Cmd) (i : Nat) : List (Nat × Bool) :=
  let of (r : TRec) (write : Bool) : List (Nat × Bool) := (firstBytes (r.ranges (c.tileOf r i))).map (fun va => (va, write))
  match c.dir with
  | 0 => of c.rec1 false
  | 1 => of c.rec1 true
  | 2 => []
  | _ => of c.rec1 false ++ of c.rec2 true

/-- R51: the first page, up to eight tiles ahead of the one being transferred, that is not translated yet. -/
def Cmd.nextPage (c : Cmd) : Option (Nat × Bool) :=
  (upto (min 9 (c.total - c.prog))).findSome? (fun k =>
    (c.unitPages (c.prog + k)).find? (fun p => (c.held p.2 p.1).isNone))

/-- The held fault of the tile being transferred: the byte, whether it is written, cause and reason. -/
def Cmd.heldFault (c : Cmd) : Option (Nat × Bool × Nat × Nat) :=
  (c.unitPages c.prog).findSome? (fun p => match c.held p.2 p.1 with
    | some h => h.fault.map (fun f => (p.1, p.2, f.1, f.2))
    | none => none)

/-- A command forgets what it holds for pages that no coming tile touches. -/
def Cmd.prune (c : Cmd) : Cmd :=
  let need := (upto (min 9 (c.total - c.prog))).flatMap (fun k => c.unitPages (c.prog + k))
  { c with ahead := c.ahead.filter (fun h => need.any (fun p => p.1 / 4096 == h.page && p.2 == h.write)) }

/-- R54: the tile being transferred moves with the translations it has, draining ones among them; later tiles are translated again. -/
def Cmd.refresh (c : Cmd) : Cmd :=
  let now := c.unitPages c.prog
  { c with ahead := c.ahead.filter (fun h => (match h.via with
      | some e => !e.draining
      | none => true) || now.any (fun p => p.1 / 4096 == h.page && p.2 == h.write)) }

/-- The teams that receive: the pushing team, or the named ones of its cluster (R112). -/
def State.receivers (s : State) (c : Cmd) : List Nat :=
  if c.code = 0x11 then (s.clusterOf c.team).filter (fun k => (bitsAt (c.w 6) 0 12).testBit (s.team k).rank) else [c.team]

/-- The lowest destination address of a copy. -/
def Cmd.lowest (c : Cmd) : Nat :=
  match c.dir with
  | 1 => ((c.rec1.memRow (c.tile c.rec1) 0).map (·.1)).getD 0
  | 3 => ((c.rec2.memRow (c.tile c.rec2) 0).map (·.1)).getD 0
  | _ => (c.w 2).toNat

/-- A copy is begun: its records are read and checked. -/
def State.beginCopy (s : State) (c : Cmd) : State :=
  let x := c.space
  let mid := s.engineMid c
  let addrs := match c.dir with
    | 0 => [(c.w 1).toNat]
    | 1 => [(c.w 2).toNat]
    | 2 => []
    | _ => [(c.w 1).toNat, (c.w 2).toNat]
  let reads := addrs.foldl (fun (e : Eng (List (Option (Nat × Bool)))) va =>
    e.andThen (fun s l => (s.engRead x mid va 64).andThen (fun s m => .ok s (l ++ m)))) (.ok s [])
  match reads with
  | .busy q => s.await q
  | .fault s cause reason va => s.unitFault { c with started := true } cause reason 0 va
  | .ok s bs =>
    let c := { c with started := true, st := .running, recs := wordsOf (plainBytes bs) (8 * addrs.length) }
    if refused bs then s.putCmd (c.stop 1)
    else if poisonedIn bs then s.putCmd (c.stop 3)
    else if c.reachedBad (s.team c.team).alloc then s.malformed c
    else (s.putCmd { c with total := if c.dir = 0 then c.nt else 1 }).startWp c c.lowest

/-- Read a row through the translations that its command holds. -/
def State.readRow (s : State) (c : Cmd) (mid va n : Nat) : Eng (List (Option (Nat × Bool))) :=
  (pieces va n).foldl (fun (e : Eng (List (Option (Nat × Bool)))) p =>
    e.andThen (fun s l => match c.held false p.1 with
      | some h => (s.engFetch mid (h.pa + BitVec.ofNat 64 (p.1 % 4096)) p.1 p.2).andThen (fun s m => .ok s (l ++ m))
      | none => .busy [])) (.ok s [])

/-- The rows of a memory tile, each padded with zeros to `n` bytes (R50, R107). -/
def State.readTile (s : State) (c : Cmd) (mid : Nat) (r : TRec) (t : List Nat) (n : Nat) :
    Eng (List (List (Option (Nat × Bool)))) :=
  (upto r.rows).foldl (fun (e : Eng (List (List (Option (Nat × Bool))))) j =>
    e.andThen (fun s l =>
      match r.memRow t j with
      | none => .ok s (l ++ [List.replicate n (some (0, false))])
      | some p => (s.readRow c mid p.1 p.2).andThen (fun s bs =>
          .ok s (l ++ [bs ++ List.replicate (n - p.2) (some (0, false))]))))
    (.ok s [])

/-- The destination rows of a memory tile with the bytes they receive: elements outside the extents are not written (R50). -/
def TRec.scatter (r : TRec) (t : List Nat) (rows : List (List (Option (Nat × Bool)))) :
    List (Nat × List (Option (Nat × Bool))) :=
  (rows.zip (upto rows.length)).filterMap (fun p => (r.memRow t p.2).map (fun q => (q.1, p.1.take q.2)))

/-- Memory is the destination: the rows become sectors at translated pages. -/
def State.unitToMemory (s : State) (c : Cmd) (rows : List (Nat × List (Option (Nat × Bool)))) (m : List (Nat × Word) × List TlbEntry)
    (next grain : Nat) : State :=
  let c := if rows.any (fun p => refused p.2) then c.note 1 else c
  s.addUnit c (rows.flatMap (fun p => memSectors m.1 p.1 p.2)) m.2 next grain

/-- The tile being transferred is fetched: its pages are translated. -/
def State.fetchTile (s : State) (c : Cmd) : State :=
  let mid := s.engineMid c
  let src := (c.w 1).toNat
  let dst := (c.w 2).toNat
  let r := c.rec1
  let g := s.team c.team
  let maps (rows : List (Nat × List (Option (Nat × Bool)))) : List (Nat × Word) × List TlbEntry :=
    c.heldMaps (firstBytes (rows.map (fun p => (p.1, p.2.length))))
  match c.dir with
  | 0 =>
    (match s.readTile c mid r (c.tile r) r.rb with
    | .busy q => s.await q
    | .fault s cause reason va => s.unitFault c cause reason 0 va
    | .ok s rows =>
      let base := dst + c.prog * r.tb
      let c := if rows.any refused then c.note 1 else c
      s.addUnit c ((rows.zip (upto rows.length)).flatMap (fun p =>
        scratchSectors (s.receivers c) c.dswz (base + p.2 * r.rb) p.1)) [] (base + r.tb) (if c.dswz = 0 then 32 else 128))
  | 1 =>
    let rows := r.scatter (c.tile r) ((upto r.rows).map (fun j => g.sread c.sswz (src + j * r.rb) r.rb))
    s.unitToMemory c rows (maps rows) 0 32
  | 2 => s.addUnit c (scratchSectors [c.team] c.dswz dst (g.sread c.sswz src (c.w 6).toNat)) [] 0 32
  | _ =>
    (match s.readTile c mid r (c.tile r) (r.rowBytes (nth r.tiles 0 0)) with
    | .busy q => s.await q
    | .fault s cause reason va => s.unitFault c cause reason 0 va
    | .ok s rows =>
      let rows := c.rec2.scatter (c.tile c.rec2) rows
      s.unitToMemory c rows (maps rows) 0 32)

/-- A copy that is under way: the tile whose turn it is is transferred once its pages are translated, or its held fault is reported, upon
which the command holds nothing any more; else the next page ahead is translated (R51). -/
def State.copyOn (s : State) (c : Cmd) : State :=
  if c.fetches && (c.unitPages c.prog).all (fun p => (c.held p.2 p.1).isSome) then
    match c.heldFault with
    | some (va, write, cause, reason) => s.unitFault { c with ahead := [] } cause reason (bit write) va
    | none => s.fetchTile c.prune
  else match c.nextPage with
    | some (va, write) => s.holdPage c va write
    | none => s

/-- A copy's turn: it begins, or goes on. -/
def State.copyTurn (s : State) (c : Cmd) : State :=
  if !(s.heads c) then s
  else if c.st = .queued then s.beginCopy c
  else if c.st = .running then (s.putCmd c.refresh).copyOn c.refresh
  else s

/-- A command of one kind, where the number names one. -/
def State.onCmd (s : State) (cmd code : Nat) (qs : Cmd → Bool) (f : State → Cmd → State) : Out :=
  .next (match s.cmd? cmd with
    | some c => if c.code = code && qs c then f s c else s
    | none => s)

/-- COPY, R105 to R109. -/
def execCopy (cmd : Nat) (s : State) : Out := s.onCmd cmd 0x10 (fun c => c.q < 4) State.copyTurn

/-- MULTICAST_COPY, R112: the source is fetched once. -/
def execMulticastCopy (cmd : Nat) (s : State) : Out := s.onCmd cmd 0x11 (fun c => c.q < 4) State.copyTurn

/-! ## Densify (R77, R114) -/

/-- The coordinates of a row of the box: every dimension but the last, the last of them fastest. -/
def rowCoords (ext : List Nat) (n : Nat) : List Nat :=
  (ext.foldr (fun e (q : List Nat × Nat) => (q.2 % e :: q.1, q.2 / e)) ([], n)).1

/-- The address of a row of the box. -/
def Cmd.boxRow (c : Cmd) (n i : Nat) : Nat :=
  (c.w 4).toNat + (((rowCoords ((densifyExt c.words).take (n - 1)) i).zip (densifyStride c.words)).map
    (fun p => p.1 * p.2)).foldl (· + ·) 0

/-- The values of a row of the box: none of a value's bytes where a home denies it or a node on the way to it (R115). -/
def State.boxValues (s : State) (mid : Nat) (r : Region) (gen : Nat) (keys : List Nat) : Zr (List (Option (Nat × Bool))) :=
  let denied := List.replicate r.vsize none
  keys.foldl (fun (z : Zr (List (Option (Nat × Bool)))) k => z.andThen (fun s l =>
    match s.zvalueAt mid r k gen with
    | .ok s (some v) => .ok s (l ++ v.map some)
    | .ok s none => .ok s (l ++ denied)
    | .fail 0x09 _ _ => .ok s (l ++ denied)
    | .fail c e b => .fail c e b
    | .busy q => .busy q)) (.ok s [])

/-- A densify command's turn. -/
def State.densifyTurn (s : State) (c : Cmd) : State :=
  match s.regionAt c.asid (c.w 1) with
  | none => if s.heads c && c.st = .queued then s.malformed c else s
  | some (i, r) =>
    let n := r.widths.length
    let ext := (densifyExt c.words).take n
    if !(s.heads c) then s
    else if c.st = .queued then
      let c := { c with started := true, st := .running, total := (ext.take (n - 1)).foldl (· * ·) 1 }
      (s.putCmd c).startWp c (c.w 4).toNat
    else if !c.fetches then s
    else if r.broken then s.putCmd (c.stop 3)
    else
      let org := unpackKey r.widths (c.w 2).toNat
      let row := rowCoords (ext.take (n - 1)) c.prog
      let keys := (upto (nth ext (n - 1) 0)).map (fun j =>
        packKey r.widths ((org.zip (row ++ [j])).map (fun p => p.1 + p.2)))
      match s.boxValues (s.engineMid c) r (bitsAt (c.w 7) 0 32) keys with
      | .busy q => s.await q
      | .fail cause reason broken =>
        (if broken then s.putRegion i { r with broken := true } else s).putCmd (c.stop (failStatus cause reason))
      | .ok s bs =>
        match s.mapPages c.space [(c.boxRow n c.prog, bs.length)] with
        | .busy q => s.await q
        | .fault s cause reason va => s.unitFault c cause reason 1 va
        | .ok s m => s.unitToMemory c [(c.boxRow n c.prog, bs)] m (c.boxRow n (c.prog + 1)) 32

/-- DENSIFY, R77, R78, R114. -/
def execDensify (cmd : Nat) (s : State) : Out := s.onCmd cmd 0x30 (fun c => c.q < 4) State.densifyTurn

/-! ## Gathers (R116, R120, R121) -/

/-- The access of a piece of a gather, within one line. -/
def State.gatherAccess (s : State) (c : Cmd) (va n pa key : Nat) (via : Option TlbEntry) : Access :=
  { agent := cmdAgent c.id, prod := 0, lane := 0, op := .load, pa := pa, size := n, key := key, scope := 0, mid := s.engineMid c,
    via := via, sync := false, ticket := 0, va := va }

/-- Where a piece of a gather lies, translated and checked: the access, or nothing where its target denies it. -/
def State.gatherWhere (s : State) (c : Cmd) (va n : Nat) : Eng (Option Access) :=
  match s.lookNow c.space .read (BitVec.ofNat 64 va) 1 with
  | (.miss, w) => .busy (w.sentAfter s)
  | (.fail cause r _, s) => .fault s cause r va
  | (.ok pa via, s) =>
    (match s.vet (s.engineMid c) .read pa with
    | .error _ => .ok s none
    | .ok a =>
      if s.windowHeld pa then .busy []
      else
        let p := s.steer a (keyOf pa)
        .ok s (some (s.gatherAccess c va n p.1 p.2 (via.map (·.1)))))

/-- The bytes of an access that the L1 of a command's core holds under its key, with its block's staged bytes (R116). -/
def State.gatherHit (s : State) (c : Cmd) (a : Access) : Option (List (Option (Nat × Bool))) :=
  match s.freshCopy c.mid (a.pa / 128) with
  | some l =>
    if l.key = a.key then
      let d := match l.staged c.lnum (s.team c.team).block with
        | some g => overlay l.data g.data g.mask
        | none => l.data
      some (a.bytesIn d l.poison)
    else none
  | none => none

/-- Read bytes within one line through the collector: what a window has brought, or a hit in the L1. Otherwise it waits (R116). -/
def State.gatherPiece (s : State) (c : Cmd) (va n : Nat) : Eng (List (Option (Nat × Bool))) :=
  match c.got.find? (fun g => g.1 == (va, n)) with
  | some g => if g.2.isEmpty then .fault s 0x10 3 va else .ok s g.2
  | none => (s.gatherWhere c va n).andThen (fun s w => match w with
    | none => .ok s (List.replicate n none)
    | some a => match s.gatherHit c a with
      | some bs => .ok s bs
      | none => .busy [])

/-- The pieces of a range, each within one line. -/
def linePieces (va n : Nat) : List (Nat × Nat) :=
  (linesOf va n).map (fun l => (max va (128 * l), min (va + n) (128 * l + 128) - max va (128 * l)))

/-- Read a row, line by line. -/
def State.gatherRow (s : State) (c : Cmd) (va n : Nat) : Eng (List (Option (Nat × Bool))) :=
  (linePieces va n).foldl (fun (e : Eng (List (Option (Nat × Bool)))) p =>
    e.andThen (fun s bs => (s.gatherPiece c p.1 p.2).andThen (fun s m => .ok s (bs ++ m)))) (.ok s [])

/-- Does a request of a command for a piece stand in the collector? -/
def Core.collecting (x : Core) (c : Cmd) (va n : Nat) : Bool :=
  let mine (a : Access) : Bool := a.agent == cmdAgent c.id && a.va == va && a.size == n
  x.rqcWait.any mine || x.windows.any (fun w => w.reqs.any mine)

/-- The pieces of a row that miss the L1 join windows (R116), behind accesses of the core that wait for the same line; none while requests
before them wait (R117). -/
def State.gatherAsk (s : State) (c : Cmd) (va n : Nat) : State :=
  (linePieces va n).foldl (fun (s : State) p =>
    if c.got.any (fun g => g.1 == p) || (s.core c.mid).collecting c p.1 p.2 || !(s.core c.mid).rqcWait.isEmpty then s
    else match s.gatherWhere c p.1 p.2 with
      | .ok s (some a) =>
        if (s.gatherHit c a).isSome || !(s.waiting c.mid (a.pa / 128)).isEmpty then s else s.collectMiss c.mid a
      | _ => s) s

/-- Where an entry of the index list lies. -/
def Cmd.indexAt (c : Cmd) : Nat × Nat :=
  let n := 4 * 2 ^ bitsAt (c.w 0) 37 2
  ((c.w 3).toNat + c.prog * n, n)

/-- An entry of the index list. -/
def State.gatherIndex (s : State) (c : Cmd) : Eng (List (Option (Nat × Bool))) :=
  if (c.w 0).getLsbD 36 then .ok s ((s.team c.team).sread 0 c.indexAt.1 c.indexAt.2) else s.gatherRow c c.indexAt.1 c.indexAt.2

/-- A gather's turn: it begins, or its next row is read. -/
def State.gatherTurn (s : State) (c : Cmd) : State :=
  if !(s.heads c) then s
  else if c.st = .queued then s.putCmd { c with started := true, st := .running, total := bitsAt (c.w 4) 0 32 }
  else if !c.fetches then s
  else
    let rb := bitsAt (c.w 2) 48 16
    let dst := (c.w 5).toNat + c.prog * rb
    let m := bitsAt (c.w 0) 34 2
    let put (s : State) (c : Cmd) (bs : List (Option (Nat × Bool))) : State :=
      s.addUnit c (scratchSectors [c.team] m dst bs) [] (dst + rb) (if m = 0 then 32 else 128)
    match s.gatherIndex c with
    | .busy q => (s.await q).gatherAsk c c.indexAt.1 c.indexAt.2
    | .fault s cause reason va => s.unitFault c cause reason 0 va
    | .ok s ix =>
      if refused ix then put s (c.note 1) (List.replicate rb none)
      else if poisonedIn ix then s.putCmd (c.stop 3)
      else
        let idx := ofBytes (plainBytes ix)
        let lim := (c.w 6).toNat
        let row := (c.w 1).toNat + idx * bitsAt (c.w 2) 0 48
        if (lim ≠ 0 && lim ≤ idx) || 2 ^ 56 ≤ row then put s (c.note 6) (List.replicate rb (some (0, false)))
        else match s.gatherRow c row rb with
          | .busy q => (s.await q).gatherAsk c row rb
          | .fault s cause reason va => s.unitFault c cause reason 0 va
          | .ok s bs => put s (if refused bs then c.note 1 else c) bs

/-- GATHER, R116, R120, R121. -/
def execGather (cmd : Nat) (s : State) : Out := s.onCmd cmd 0x20 (fun c => c.q = 4) State.gatherTurn

/-! ## Delivery (R109, R110, R112) -/

/-- A sector is written: to its scratchpad, or at its home, where a refusal leaves its bytes and a lost request ends the command with
status 4 (Table 5.4). -/
def State.writeSector (s : State) (c : Cmd) (x : Sector) : Eng Cmd :=
  if x.scratch then .ok (s.mapTeam x.team (fun t => t.putSector x.addr x.bytes)) c
  else
    let mid := s.engineMid c
    match s.vet mid .write x.pa with
    | .error _ => .ok s (c.note 1)
    | .ok a =>
      if s.windowHeld x.pa then .busy []
      else match s.engPut mid x.addr a (keyOf x.pa) x.bytes with
        | .ok s _ => .ok s c
        | .busy q => .busy q
        | .fault s _ _ _ => .ok s { c with status := 4 }

/-- A multicast's arrival on a core that has received its last sector (R112). -/
def State.reach (s : State) (c : Cmd) (team : Nat) : State × Cmd :=
  if c.code = 0x11 && c.q < 4 && c.prog = c.total && !(c.sectors.any (fun x => x.team == team)) then
    (s.arriveBar team (16 + c.sigx) 1, { c with reached := insertNat c.reached team })
  else (s, c)

/-- SECTOR_DELIVERY, R109: the first sector of a command that no later unit shares is written whole. -/
def execSectorDelivery (cmd : Nat) (s : State) : Out :=
  .next (match s.cmd? cmd with
    | none => s
    | some c =>
      match c.sectors with
      | [] => s
      | x :: rest =>
        let free := match c.hold with
          | none => true
          | some h => x.addr < h
        if !(c.st = .running && c.q ≤ 4 && free) then s
        else match s.writeSector c x with
          | .busy q => s.await q
          | .fault s _ _ _ => s
          | .ok s c =>
            let c := { c with sectors := rest, via := if rest.isEmpty then [] else c.via }
            let (s, c) := s.reach c x.team
            let own := (s.receivers c).contains c.team
            let s := s.advanceWp c own (x.addr + 32)
            s.putCmd (if rest.isEmpty && c.prog = c.total then { c with st := .finishing, ended := true } else c))

/-! ## QFENCE (R113) -/

/-- Has a launch command been performed: its status record is written (R366)? Any other command is performed when it is over. -/
def Cmd.performed (c : Cmd) : Bool := c.code = 0x50 && c.statusDone

/-- Has every command before a QFENCE in its own queue been done with, and every earlier command of its issuer in a named one? A
launch in its own queue need only have been taken (R366). -/
def State.fencePasses (s : State) (c : Cmd) : Bool :=
  let mask := bitsAt (c.w 1) 0 10
  s.svc.cmds.all (fun d =>
    d.id ≥ c.id
      || (!(d.q == c.q && (if c.q ≤ 4 then d.mid == c.mid else if c.q = 9 then true else c.sameIssuer d)
              && !(c.q == 6 && !(s.untaken d)))
          && !(c.sameIssuer d && mask.testBit d.q && !(d.q == 6 && (!d.recs.isEmpty || d.performed)))))

/-- QFENCE, R113: performed, it sends its signal. -/
def execQfence (cmd : Nat) (s : State) : Out :=
  s.onCmd cmd 0x0F (fun _ => true) (fun s c =>
    if c.st = .queued && s.fencePasses c then s.putCmd { c with st := .finishing, started := true, ended := true } else s)

end Sys2Proof.Machine
end

