-- ==== Sys2Proof/Machine/Vector.lean ====
section
/-! DEFINITION. Lane-by-lane vector instructions (spec/11_vector_instructions.md, R223 to R238). -/

namespace Sys2Proof.Machine

/-- Vector registers that one operand of a width takes. -/
def regsOf (w : Nat) : Nat := if w = 64 then 2 else 1

/-- An operand of width `w` in a lane: a register, or an even pair (R12). -/
def Regs.elem (r : Regs) (w k l : Nat) : Nat := if w = 64 then (r.v64 k l).toNat else (r.v k l).toNat

/-- Write an operand of width `w` on lanes. -/
def Regs.mapE (r : Regs) (w d : Nat) (ls : List Nat) (f : Nat → Nat) : Regs :=
  if w = 64 then r.mapV64 d ls (fun l => BitVec.ofNat 64 (f l)) else r.mapV d ls (fun l => BitVec.ofNat 32 (f l))

/-- Apply a function to the packed elements of width `w` (R224), or to the pair when `w` is 64. -/
def onElems1 (w : Nat) (f : Nat → Nat) (a : Nat) : Nat :=
  if w = 64 then f a else (packed1 w f (BitVec.ofNat 32 a)).toNat

/-- The same on two operands. -/
def onElems2 (w : Nat) (f : Nat → Nat → Nat) (a b : Nat) : Nat :=
  if w = 64 then f a b else (packed2 w f (BitVec.ofNat 32 a) (BitVec.ofNat 32 b)).toNat

/-- The same on three operands. -/
def onElems3 (w : Nat) (f : Nat → Nat → Nat → Nat) (a b c : Nat) : Nat :=
  if w = 64 then f a b c else (packed3 w f (BitVec.ofNat 32 a) (BitVec.ofNat 32 b) (BitVec.ofNat 32 c)).toNat

/-- Is a register operand of width `w` illegal (R144, R223)? -/
def Thread.badE (t : Thread) (w : Nat) (r : BitVec 7) : Bool := t.badV r (regsOf w) (w == 64)

/-- A two-source vector word: elements of width `w`, computed by `f` under the sampled mode. -/
def State.vec2 (s : State) (w : Nat) (d a b : BitVec 7) (x y : Bool) (f : Mode → Nat → Nat → Nat) : State :=
  let srcs := groupV a (regsOf w) x ++ groupV b (regsOf w) y
  s.issue (fun t =>
      { role := .vector, lanes := true, illegal := t.badE w d || t.badE w a || t.badE w b,
        reads := srcs, vdests := destsV d (regsOf w)})
    (fun s =>
      let m := s.th.mode
      s.laneWord srcs (fun r ls => r.mapE w d.toNat ls (fun l =>
        onElems2 w (f m) (r.elem w a.toNat l) (r.elem w b.toNat l))))

/-- A vector word that reads its destination as a third source, which blocks. -/
def State.vec3 (s : State) (w : Nat) (d a b : BitVec 7) (x y : Bool) (f : Mode → Nat → Nat → Nat → Nat) : State :=
  let srcs := groupV a (regsOf w) x ++ groupV b (regsOf w) y ++ groupV d (regsOf w) false
  s.issue (fun t =>
      { role := .vector, lanes := true, illegal := t.badE w d || t.badE w a || t.badE w b,
        reads := srcs, vdests := destsV d (regsOf w)})
    (fun s =>
      let m := s.th.mode
      s.laneWord srcs (fun r ls => r.mapE w d.toNat ls (fun l =>
        onElems3 w (f m) (r.elem w d.toNat l) (r.elem w a.toNat l) (r.elem w b.toNat l))))

/-- A one-source vector word. -/
def State.vec1 (s : State) (w : Nat) (d a : BitVec 7) (x : Bool) (f : Mode → Nat → Nat) : State :=
  let srcs := groupV a (regsOf w) x
  s.issue (fun t =>
      { role := .vector, lanes := true, illegal := t.badE w d || t.badE w a,
        reads := srcs, vdests := destsV d (regsOf w)})
    (fun s =>
      let m := s.th.mode
      s.laneWord srcs (fun r ls => r.mapE w d.toNat ls (fun l => onElems1 w (f m) (r.elem w a.toNat l))))

/-- A 64-bit shift: the count is the 32-bit word of any register, modulo 64 (R225). -/
def State.shift64 (s : State) (d a b : BitVec 7) (x y : Bool) (f : Nat → Nat → Nat) : State :=
  let srcs := groupV a 2 x ++ groupV b 1 y
  s.issue (fun t =>
      { role := .vector, lanes := true, illegal := t.badE 64 d || t.badE 64 a || t.badE 32 b,
        reads := srcs, vdests := destsV d 2})
    (fun s => s.laneWord srcs (fun r ls => r.mapE 64 d.toNat ls (fun l => f (r.elem 64 a.toNat l) ((r.v b.toNat l).toNat % 64))))

/-- A comparison into a mask: bits of other lanes stay (R223, R227). -/
def State.vecCmp (s : State) (w : Nat) (k : BitVec 3) (a b : BitVec 7) (x y : Bool) (f : Nat → Nat → Bool) : State :=
  let srcs := groupV a (regsOf w) x ++ groupV b (regsOf w) y
  s.issue (fun t => { role := .vector, lanes := true, illegal := t.badE w a || t.badE w b, reads := srcs })
    (fun s => s.laneWord srcs (fun r ls => r.mapM k.toNat ls (fun l => f (r.elem w a.toNat l) (r.elem w b.toNat l))))

/-- A register filled from a scalar (R229). -/
def State.fill (s : State) (d b : BitVec 7) (y : Bool) (f : Word → Nat → Nat) : State :=
  s.issue (fun t => { role := .vector, lanes := true, illegal := t.badE 32 d, reads := [t.srcS b y], vdests := [d.toNat] })
    (fun s =>
      let v := s.th.valS b
      s.laneWord [] (fun r ls => r.mapE 32 d.toNat ls (f v)))

/-- The type of a vector floating-point word (R231). -/
def vfmt (t : BitVec 2) : Fmt :=
  match t.toNat with
  | 0 => .f16
  | 1 => .b16
  | 2 => .f32
  | _ => .f64

/-- VAND, R225, Table 11.1. -/
def execVand (d a b : BitVec 7) (x y : Bool) (s : State) : Out := .next (s.vec2 32 d a b x y (fun _ a b => a &&& b))

/-- VOR, R225, Table 11.1. -/
def execVor (d a b : BitVec 7) (x y : Bool) (s : State) : Out := .next (s.vec2 32 d a b x y (fun _ a b => a ||| b))

/-- VXOR, R225, Table 11.1. -/
def execVxor (d a b : BitVec 7) (x y : Bool) (s : State) : Out := .next (s.vec2 32 d a b x y (fun _ a b => a ^^^ b))

/-- VADD_32, R225, Table 11.1. -/
def execVadd32 (d a b : BitVec 7) (x y : Bool) (s : State) : Out := .next (s.vec2 32 d a b x y (fun _ a b => a + b))

/-- VSUB_32, R225, Table 11.1. -/
def execVsub32 (d a b : BitVec 7) (x y : Bool) (s : State) : Out := .next (s.vec2 32 d a b x y (fun _ a b => a + 2 ^ 32 - b))

/-- VMUL_32, R225, Table 11.1. -/
def execVmul32 (d a b : BitVec 7) (x y : Bool) (s : State) : Out := .next (s.vec2 32 d a b x y (fun _ a b => a * b))

/-- VMAD_32, R225: reads its destination. -/
def execVmad32 (d a b : BitVec 7) (x y : Bool) (s : State) : Out := .next (s.vec3 32 d a b x y (fun _ d a b => a * b + d))

/-- VSHL_32, R225, Table 11.1. -/
def execVshl32 (d a b : BitVec 7) (x y : Bool) (s : State) : Out := .next (s.vec2 32 d a b x y (fun _ a b => a * 2 ^ (b % 32)))

/-- VSHR_32, R225, Table 11.1. -/
def execVshr32 (d a b : BitVec 7) (x y : Bool) (s : State) : Out := .next (s.vec2 32 d a b x y (fun _ a b => a / 2 ^ (b % 32)))

/-- VSRA_32, R225, Table 11.1. -/
def execVsra32 (d a b : BitVec 7) (x y : Bool) (s : State) : Out := .next (s.vec2 32 d a b x y (fun _ a b => sraBits 32 a (b % 32)))

/-- VMULH_I32, R225, Table 11.1. -/
def execVmulhI32 (d a b : BitVec 7) (x y : Bool) (s : State) : Out := .next (s.vec2 32 d a b x y (fun _ a b => wrapInt 32 (signedOf 32 a * signedOf 32 b / (2 ^ 32 : Nat))))

/-- VMULH_N32, R225, Table 11.1. -/
def execVmulhN32 (d a b : BitVec 7) (x y : Bool) (s : State) : Out := .next (s.vec2 32 d a b x y (fun _ a b => a * b / 2 ^ 32))

/-- VMIN_I32, R225, Table 11.1. -/
def execVminI32 (d a b : BitVec 7) (x y : Bool) (s : State) : Out := .next (s.vec2 32 d a b x y (fun _ a b => if signedOf 32 b < signedOf 32 a then b else a))

/-- VMIN_N32, R225, Table 11.1. -/
def execVminN32 (d a b : BitVec 7) (x y : Bool) (s : State) : Out := .next (s.vec2 32 d a b x y (fun _ a b => min a b))

/-- VMAX_I32, R225, Table 11.1. -/
def execVmaxI32 (d a b : BitVec 7) (x y : Bool) (s : State) : Out := .next (s.vec2 32 d a b x y (fun _ a b => if signedOf 32 a < signedOf 32 b then b else a))

/-- VMAX_N32, R225, Table 11.1. -/
def execVmaxN32 (d a b : BitVec 7) (x y : Bool) (s : State) : Out := .next (s.vec2 32 d a b x y (fun _ a b => max a b))

/-- VSADD_I32, R225, Table 11.1. -/
def execVsaddI32 (d a b : BitVec 7) (x y : Bool) (s : State) : Out := .next (s.vec2 32 d a b x y (fun _ a b => satS 32 (signedOf 32 a + signedOf 32 b)))

/-- VSADD_N32, R225, Table 11.1. -/
def execVsaddN32 (d a b : BitVec 7) (x y : Bool) (s : State) : Out := .next (s.vec2 32 d a b x y (fun _ a b => satU 32 (a + b : Nat)))

/-- VSSUB_I32, R225, Table 11.1. -/
def execVssubI32 (d a b : BitVec 7) (x y : Bool) (s : State) : Out := .next (s.vec2 32 d a b x y (fun _ a b => satS 32 (signedOf 32 a - signedOf 32 b)))

/-- VSSUB_N32, R225: 0 when b exceeds a. -/
def execVssubN32 (d a b : BitVec 7) (x y : Bool) (s : State) : Out := .next (s.vec2 32 d a b x y (fun _ a b => a - b))

/-- VBFE_I32, R226. -/
def execVbfeI32 (d a b : BitVec 7) (x y : Bool) (s : State) : Out := .next (s.vec2 32 d a b x y (fun _ a b => bitField 32 a (b % 32) (b / 256 % 64) true))

/-- VBFE_N32, R226. -/
def execVbfeN32 (d a b : BitVec 7) (x y : Bool) (s : State) : Out := .next (s.vec2 32 d a b x y (fun _ a b => bitField 32 a (b % 32) (b / 256 % 64) false))

/-- VADD_64, R225, Table 11.1. -/
def execVadd64 (d a b : BitVec 7) (x y : Bool) (s : State) : Out := .next (s.vec2 64 d a b x y (fun _ a b => a + b))

/-- VSUB_64, R225, Table 11.1. -/
def execVsub64 (d a b : BitVec 7) (x y : Bool) (s : State) : Out := .next (s.vec2 64 d a b x y (fun _ a b => a + 2 ^ 64 - b))

/-- VSHL_64, R225. -/
def execVshl64 (d a b : BitVec 7) (x y : Bool) (s : State) : Out := .next (s.shift64 d a b x y (fun a c => a * 2 ^ c))

/-- VSHR_64, R225. -/
def execVshr64 (d a b : BitVec 7) (x y : Bool) (s : State) : Out := .next (s.shift64 d a b x y (fun a c => a / 2 ^ c))

/-- VSRA_64, R225. -/
def execVsra64 (d a b : BitVec 7) (x y : Bool) (s : State) : Out := .next (s.shift64 d a b x y (fun a c => sraBits 64 a c))

/-- VADD_16, R225, Table 11.1. -/
def execVadd16 (d a b : BitVec 7) (x y : Bool) (s : State) : Out := .next (s.vec2 16 d a b x y (fun _ a b => a + b))

/-- VSUB_16, R225, Table 11.1. -/
def execVsub16 (d a b : BitVec 7) (x y : Bool) (s : State) : Out := .next (s.vec2 16 d a b x y (fun _ a b => a + 2 ^ 16 - b))

/-- VSADD_I16, R225, Table 11.1. -/
def execVsaddI16 (d a b : BitVec 7) (x y : Bool) (s : State) : Out := .next (s.vec2 16 d a b x y (fun _ a b => satS 16 (signedOf 16 a + signedOf 16 b)))

/-- VSSUB_I16, R225, Table 11.1. -/
def execVssubI16 (d a b : BitVec 7) (x y : Bool) (s : State) : Out := .next (s.vec2 16 d a b x y (fun _ a b => satS 16 (signedOf 16 a - signedOf 16 b)))

/-- VADD_8, R225, Table 11.1. -/
def execVadd8 (d a b : BitVec 7) (x y : Bool) (s : State) : Out := .next (s.vec2 8 d a b x y (fun _ a b => a + b))

/-- VSUB_8, R225, Table 11.1. -/
def execVsub8 (d a b : BitVec 7) (x y : Bool) (s : State) : Out := .next (s.vec2 8 d a b x y (fun _ a b => a + 2 ^ 8 - b))

/-- VSADD_I8, R225, Table 11.1. -/
def execVsaddI8 (d a b : BitVec 7) (x y : Bool) (s : State) : Out := .next (s.vec2 8 d a b x y (fun _ a b => satS 8 (signedOf 8 a + signedOf 8 b)))

/-- VSSUB_I8, R225, Table 11.1. -/
def execVssubI8 (d a b : BitVec 7) (x y : Bool) (s : State) : Out := .next (s.vec2 8 d a b x y (fun _ a b => satS 8 (signedOf 8 a - signedOf 8 b)))

/-- VIOTA, R229. -/
def execViota (d b : BitVec 7) (y : Bool) (s : State) : Out := .next (s.fill d b y (fun v l => v.toNat + l))

/-- VMOVS, R229. -/
def execVmovs (d b : BitVec 7) (y : Bool) (s : State) : Out := .next (s.fill d b y (fun v _ => v.toNat))

/-- VSEL, R228: a lane depends on the poison of the source its mask bit chooses. -/
def execVsel (k : BitVec 3) (d a b : BitVec 7) (x y : Bool) (s : State) : Out :=
  .next (s.issue (fun t =>
      { role := .vector, lanes := true, illegal := t.badE 32 d || t.badE 32 a || t.badE 32 b,
        reads := [srcV a x, srcV b y], vdests := [d.toNat]})
    (fun s =>
      let t := s.th
      let pick (l : Nat) : BitVec 7 := if (t.regs.m k.toNat).getLsbD l then a else b
      let bad := t.lanes.filter (fun l => t.lanePoison [srcV (pick l) false] l)
      let good := t.lanes.filter (fun l => !(t.lanePoison [srcV (pick l) false] l))
      poisonRes (s.mapTh (fun t => t.mapRegs (fun r => r.mapV d.toNat good (fun l => r.v (pick l).toNat l)))) bad))

/-- VCMP, R227: `w` chooses 64 bits. -/
def execVcmp (w : Bool) (c m : BitVec 3) (a b : BitVec 7) (x y : Bool) (s : State) : Out :=
  let n := if w then 64 else 32
  .next (s.vecCmp n m a b x y (fun a b => vcmpCond n c.toNat a b))

/-- The element width that a width code gives (R230). -/
def widthOf (w : BitVec 2) : Nat := 8 * 2 ^ w.toNat

/-- VABS, R230: the minimum value gives itself. -/
def execVabs (w : BitVec 2) (d a : BitVec 7) (x : Bool) (s : State) : Out :=
  .next (s.vec1 (widthOf w) d a x (fun _ a => (signedOf (widthOf w) a).natAbs))

/-- VNEG, R230: wrapping. -/
def execVneg (w : BitVec 2) (d a : BitVec 7) (x : Bool) (s : State) : Out :=
  .next (s.vec1 (widthOf w) d a x (fun _ a => wrapInt (widthOf w) (-(signedOf (widthOf w) a))))

/-- VCLZ, R230. -/
def execVclz (w : BitVec 2) (d a : BitVec 7) (x : Bool) (s : State) : Out :=
  .next (s.vec1 (widthOf w) d a x (fun _ a => clz (widthOf w) a))

/-- VPOPC, R230. -/
def execVpopc (w : BitVec 2) (d a : BitVec 7) (x : Bool) (s : State) : Out :=
  .next (s.vec1 (widthOf w) d a x (fun _ a => popc (widthOf w) a))

/-- VMOV, R230: `w` chooses 64 bits. -/
def execVmov (w : Bool) (d a : BitVec 7) (x : Bool) (s : State) : Out :=
  .next (s.vec1 (if w then 64 else 32) d a x (fun _ a => a))

/-! ## Floating point -/

/-- VFADD, R231. -/
def execVfadd (t : BitVec 2) (d a b : BitVec 7) (x y : Bool) (s : State) : Out :=
  let f := vfmt t
  .next (s.vec2 f.bits d a b x y (fun m a b => fadd f m a b))

/-- VFSUB, R231. -/
def execVfsub (t : BitVec 2) (d a b : BitVec 7) (x y : Bool) (s : State) : Out :=
  let f := vfmt t
  .next (s.vec2 f.bits d a b x y (fun m a b => fsub f m a b))

/-- VFMUL, R231. -/
def execVfmul (t : BitVec 2) (d a b : BitVec 7) (x y : Bool) (s : State) : Out :=
  let f := vfmt t
  .next (s.vec2 f.bits d a b x y (fun m a b => fmul f m a b))

/-- VFMIN, R231. -/
def execVfmin (t : BitVec 2) (d a b : BitVec 7) (x y : Bool) (s : State) : Out :=
  let f := vfmt t
  .next (s.vec2 f.bits d a b x y (fun _ a b => fmin f a b))

/-- VFMAX, R231. -/
def execVfmax (t : BitVec 2) (d a b : BitVec 7) (x y : Bool) (s : State) : Out :=
  let f := vfmt t
  .next (s.vec2 f.bits d a b x y (fun _ a b => fmax f a b))

/-- VFDIV, R231. -/
def execVfdiv (t : BitVec 2) (d a b : BitVec 7) (x y : Bool) (s : State) : Out :=
  let f := vfmt t
  .next (s.vec2 f.bits d a b x y (fun m a b => fdiv f m a b))

/-- VFFMA, R231: reads its destination; one rounding. -/
def execVffma (t : BitVec 2) (d a b : BitVec 7) (x y : Bool) (s : State) : Out :=
  let f := vfmt t
  .next (s.vec3 f.bits d a b x y (fun m d a b => ffma f m a b d))

/-- VFCMP, R232: exact. -/
def execVfcmp (t : Bool) (c : BitVec 2) (m : BitVec 3) (a b : BitVec 7) (x y : Bool) (s : State) : Out :=
  let f := if t then Fmt.f64 else Fmt.f32
  .next (s.vecCmp f.bits m a b x y (fun a b => fcmp c.toNat (f.decode a) (f.decode b)))

/-- VFSQRT, R233: correctly rounded. -/
def execVfsqrt (t : BitVec 2) (d a : BitVec 7) (x : Bool) (s : State) : Out :=
  let f := vfmt t
  .next (s.vec1 f.bits d a x (fun m a => fsqrt f m a))

/-- VFRCP, R233: correctly rounded. -/
def execVfrcp (t : BitVec 2) (d a : BitVec 7) (x : Bool) (s : State) : Out :=
  let f := vfmt t
  .next (s.vec1 f.bits d a x (fun m a => frcp f m a))

/-- VFRSQ, R233: correctly rounded. -/
def execVfrsq (t : BitVec 2) (d a : BitVec 7) (x : Bool) (s : State) : Out :=
  let f := vfmt t
  .next (s.vec1 f.bits d a x (fun m a => frsq f m a))

/-- VFEXP2, R233: correctly rounded. -/
def execVfexp2 (t : BitVec 2) (d a : BitVec 7) (x : Bool) (s : State) : Out :=
  let f := vfmt t
  .next (s.vec1 f.bits d a x (fun m a => fexp2 f m a))

/-- VFLOG2, R233: correctly rounded. -/
def execVflog2 (t : BitVec 2) (d a : BitVec 7) (x : Bool) (s : State) : Out :=
  let f := vfmt t
  .next (s.vec1 f.bits d a x (fun m a => flog2 f m a))

/-- VFCLASS, R234. -/
def execVfclass (t : BitVec 2) (d a : BitVec 7) (x : Bool) (s : State) : Out :=
  let f := vfmt t
  .next (s.vec1 f.bits d a x (fun _ a => fclass f a))

/-- VFABS, R233: the sign bit cleared. -/
def execVfabs (t : BitVec 2) (d a : BitVec 7) (x : Bool) (s : State) : Out :=
  let f := vfmt t
  .next (s.vec1 f.bits d a x (fun _ a => a % 2 ^ (f.bits - 1)))

/-- VFNEG, R233: the sign bit inverted. -/
def execVfneg (t : BitVec 2) (d a : BitVec 7) (x : Bool) (s : State) : Out :=
  let f := vfmt t
  .next (s.vec1 f.bits d a x (fun _ a => a ^^^ 2 ^ (f.bits - 1)))

/-! ## Conversion and packing -/

/-- Conversion codes as numbers: an absent code converts nothing (its words are illegal, R235). -/
def convertCodes (m : Mode) (p q : Nat) (v : Nat) : Nat :=
  match Code.of p, Code.of q with
  | some dst, some src => convert m dst src v
  | _, _ => 0

/-- Width of the registers a code's element takes. -/
def codeWidth (c : Nat) : Nat :=
  match Code.of c with
  | some k => if k.bits = 64 then 64 else 32
  | none => 32

/-- VCVT, R235: element 0 of each lane, the rest of the lane word zero. -/
def execVcvt (p q : BitVec 4) (d a : BitVec 7) (x : Bool) (s : State) : Out :=
  let wd := codeWidth p.toNat
  let ws := codeWidth q.toNat
  let srcs := groupV a (regsOf ws) x
  .next (s.issue (fun t =>
      { role := .vector, lanes := true, illegal := t.badE wd d || t.badE ws a,
        reads := srcs, vdests := destsV d (regsOf wd)})
    (fun s =>
      let m := s.th.mode
      s.laneWord srcs (fun r ls => r.mapE wd d.toNat ls (fun l => convertCodes m p.toNat q.toNat (r.elem ws a.toNat l)))))

/-- Table of R236: the destination code and the source code of a form. -/
def packCodes (f : Nat) : Nat × Nat :=
  match f with
  | 0 => (8, 10)
  | 1 => (9, 10)
  | 2 => (2, 4)
  | 3 => (3, 5)
  | 4 => (12, 10)
  | 5 => (13, 10)
  | 6 => (0, 4)
  | _ => (1, 5)

/-- VPACK, R236: two sources into 16-bit elements, or four registers from `va` into bytes. -/
def execVpack (f : BitVec 3) (d a b : BitVec 7) (x y : Bool) (s : State) : Out :=
  let four := f.toNat ≥ 4
  let srcs := if four then groupV a 4 x else [srcV a x, srcV b y]
  let c := packCodes f.toNat
  .next (s.issue (fun t =>
      { role := .vector, lanes := true,
        illegal := t.badE 32 d || (if four then t.badV a 4 else t.badE 32 a || t.badE 32 b),
        reads := srcs, vdests := [d.toNat]})
    (fun s =>
      let m := s.th.mode
      s.laneWord srcs (fun r ls => r.mapE 32 d.toNat ls (fun l =>
        if four then
          (upto 4).foldl (fun n j => n + convertCodes m c.1 c.2 (r.v (a.toNat + j) l).toNat * 2 ^ (8 * j)) 0
        else convertCodes m c.1 c.2 (r.v a.toNat l).toNat + convertCodes m c.1 c.2 (r.v b.toNat l).toNat * 2 ^ 16))))

/-- The code that VUNPK widens to: I32, N32 or F32 (R237). -/
def widened (f : Nat) : Nat := if f = 0 || f = 2 then 4 else if f = 1 || f = 3 then 5 else 10

/-- VUNPK, R237: exact. -/
def execVunpk (d a : BitVec 7) (f : BitVec 4) (j : BitVec 2) (s : State) : Out :=
  let n := if f.toNat = 2 || f.toNat = 3 || f.toNat = 8 || f.toNat = 9 then 16 else 8
  .next (s.vec1 32 d a false (fun m v => convertCodes m (widened f.toNat) f.toNat (v / 2 ^ (n * j.toNat) % 2 ^ n)))

/-- A value times a power of two, exactly (R238). -/
def FVal.scale (v : FVal) (n : Int) : FVal :=
  match v with
  | .num s m e => if m = 0 then v else .num s m (e + n)
  | _ => v

/-- VSCALE, R238. -/
def execVscale (d a : BitVec 7) (i : BitVec 10) (s : State) : Out :=
  .next (s.vec1 32 d a false (fun m v => Fmt.encode .f32 m ((Fmt.decode .f32 v).scale i.toInt)))

end Sys2Proof.Machine
end

