-- ==== Sys2Proof/Machine/CrossLane.lean ====
section
/-! DEFINITION. Cross-lane instructions (spec/11_vector_instructions.md, R239 to R247). -/

namespace Sys2Proof.Machine

/-- Is a 32-bit lane of a register poisoned? -/
def Thread.poisonV (t : Thread) (k l : Nat) : Bool := t.regs.vPoison.contains (64 * k + l)

/-- A cross-lane move: the value comes from a lane `pick` chooses, active or not (R239). A lane depends on the poison of
its index and of the lane it takes from. -/
def State.gatherLanes (s : State) (d a : BitVec 7) (idx : List Src) (pick : Thread → Nat → Nat) : Res :=
  let t := s.th
  let isBad (l : Nat) : Bool := t.lanePoison idx l || t.poisonV a.toNat (pick t l)
  let good := t.lanes.filter (fun l => !(isBad l))
  poisonRes (s.mapTh (fun t => t.mapRegs (fun r => r.mapV d.toNat good (fun l => r.v a.toNat (pick t l)))))
    (t.lanes.filter isBad)

/-- VSHUF, R240: a sub-group above W is illegal; an index outside the sub-group takes the lane's own value. -/
def execVshuf (s0 : BitVec 3) (d a b : BitVec 7) (x y : Bool) (s : State) : Out :=
  let n := 4 * 2 ^ s0.toNat
  .next (s.issue (fun t =>
      { role := .vector, lanes := true,
        illegal := decide (t.width < n) || t.badE 32 d || t.badE 32 a || t.badE 32 b,
        reads := [srcV a x, srcV b y], vdests := [d.toNat]})
    (fun s => s.gatherLanes d a [srcV b false] (fun t l =>
      let i := (t.regs.v b.toNat l).toNat
      let lo := l - l % n
      if lo ≤ i && i < lo + n && i < t.width then i else l)))

/-- VBCAST, R241. -/
def execVbcast (d a b : BitVec 7) (x y : Bool) (s : State) : Out :=
  .next (s.issue (fun t =>
      { role := .vector, lanes := true, illegal := t.badE 32 d || t.badE 32 a,
        reads := [srcV a x, t.srcS b y], vdests := [d.toNat]})
    (fun s => s.gatherLanes d a [] (fun t l => if (t.valS b).toNat < t.width then (t.valS b).toNat else l)))

/-- A word that draws one scalar from the active lanes: it is not performed where one of them is poisoned. -/
def State.laneScalar (s : State) (d : BitVec 7) (srcs : List Src) (f : Thread → Word) : Res :=
  let bad := (s.th.cleanLanes srcs).2
  if bad.isEmpty then .done (s.setS d (f s.th)) else poisonRes s bad

/-- VBALLOT, R242: with `active()` empty it writes zero. -/
def execVballot (d a : BitVec 7) (x : Bool) (s : State) : Out :=
  .next (s.issue (fun t => { role := .vector, illegal := t.badE 32 a, reads := [srcV a x], sdests := [t.abs d] })
    (fun s => s.laneScalar d [srcV a false] (fun t => maskOf (t.lanes.filter (fun l => t.regs.v a.toNat l != 0)))))

/-- Width of a reduction's type (R243). -/
def redWidth (ty : Nat) : Nat := if ty = 2 || ty = 3 || ty = 5 then 64 else 32

/-- The operation of VRED and VSCAN (R243). -/
def redOp (m : Mode) (o ty a b : Nat) : Nat :=
  let w := redWidth ty
  let f : Fmt := if ty = 5 then .f64 else .f32
  let flt := ty = 4 || ty = 5
  let sgn := ty = 0 || ty = 2
  match o with
  | 0 => if flt then fadd f m a b else (a + b) % 2 ^ w
  | 1 => if flt then fmin f a b else if sgn then (if signedOf w b < signedOf w a then b else a) else min a b
  | 2 => if flt then fmax f a b else if sgn then (if signedOf w a < signedOf w b then b else a) else max a b
  | 3 => a &&& b
  | 4 => a ||| b
  | _ => a ^^^ b

/-- The identities of R243. -/
def redIdentity (o ty : Nat) : Nat :=
  let w := redWidth ty
  let f : Fmt := if ty = 5 then .f64 else .f32
  let flt := ty = 4 || ty = 5
  let sgn := ty = 0 || ty = 2
  match o with
  | 1 => if flt then f.infBits else if sgn then 2 ^ (w - 1) - 1 else 2 ^ w - 1
  | 2 => if flt then 2 ^ (w - 1) + f.infBits else if sgn then 2 ^ (w - 1) else 0
  | 3 => 2 ^ w - 1
  | _ => 0

/-- One level of the reduction tree: neighbours combine, an odd last element is carried unchanged. -/
def pairUp (f : Nat → Nat → Nat) : List Nat → List Nat
  | a :: b :: r => f a b :: pairUp f r
  | l => l

/-- The tree of R243, at most `n` levels. -/
def treeFold (f : Nat → Nat → Nat) : Nat → List Nat → List Nat
  | 0, l => l
  | n + 1, l => if l.length ≤ 1 then l else treeFold f n (pairUp f l)

/-- How a 32-bit result stands in a scalar: `.i32` sign-extended, others zero-extended. -/
def redExtend (ty v : Nat) : Word := if ty = 0 then BitVec.ofInt 64 (signedOf 32 v) else BitVec.ofNat 64 v

/-- VRED, R243: a tree whose shape depends only on the number of active lanes; none gives the identity. -/
def execVred (o t0 : BitVec 3) (d a : BitVec 7) (x : Bool) (s : State) : Out :=
  let w := redWidth t0.toNat
  .next (s.issue (fun t => { role := .vector, illegal := t.badE w a, reads := groupV a (regsOf w) x, sdests := [t.abs d] })
    (fun s => s.laneScalar d (groupV a (regsOf w) false) (fun t =>
      let l := treeFold (redOp t.mode o.toNat t0.toNat) 6 (t.lanes.map (fun l => t.regs.elem w a.toNat l))
      redExtend t0.toNat (nth l 0 (redIdentity o.toNat t0.toNat)))))

/-- The inclusive scan of R244 over a list. -/
def scanList (f : Nat → Nat → Nat) : Option Nat → List Nat → List Nat
  | _, [] => []
  | none, v :: r => v :: scanList f (some v) r
  | some a, v :: r => f a v :: scanList f (some (f a v)) r

/-- VSCAN, R244. A lane depends on the poison of every active lane up to it. -/
def execVscan (o t0 : BitVec 3) (d a : BitVec 7) (x : Bool) (s : State) : Out :=
  let w := redWidth t0.toNat
  let srcs := groupV a (regsOf w) x
  .next (s.issue (fun t =>
      { role := .vector, lanes := true, illegal := t.badE w a || t.badE w d,
        reads := srcs, vdests := destsV d (regsOf w)})
    (fun s =>
      let t := s.th
      let good := t.lanes.takeWhile (fun l => !(t.lanePoison srcs l))
      let vals := scanList (redOp t.mode o.toNat t0.toNat) none (good.map (fun l => t.regs.elem w a.toNat l))
      poisonRes (s.mapTh (fun t => t.mapRegs (fun r => r.mapE w d.toNat good (fun l =>
        match placeOf (fun k => k == l) good 0 with
        | some i => nth vals i 0
        | none => 0)))) (t.lanes.drop good.length)))

/-- The row of an item among rows of given lengths: the row and the item's place in it. -/
def rowOf : List Nat → Nat → Nat → Option (Nat × Nat)
  | [], _, _ => none
  | n :: r, i, x => if x < n then some (i, x) else rowOf r (i + 1) (x - n)

/-- VREBAL, R247: sums are exact; every lane of `va` is read first. -/
def execVrebal (k : BitVec 3) (d a b : BitVec 7) (x y : Bool) (s : State) : Out :=
  .next (s.issue (fun t =>
      { role := .vector, lanes := true, illegal := t.badV d 2 || t.badE 32 a,
        reads := [srcV a x, t.srcS b y], vdests := destsV d 2})
    (fun s =>
      let t := s.th
      let lens := (upto t.width).map (fun i => (t.regs.v a.toNat i).toNat)
      let base := (t.valS b).toNat
      if (upto t.width).any (t.poisonV a.toNat) then poisonRes s t.lanes
      else .done (s.mapTh (fun t => t.mapRegs (fun r =>
        let r := r.mapV d.toNat t.lanes (fun l => BitVec.ofNat 32 ((rowOf lens 0 (base + l)).getD (t.width, 0)).1)
        let r := r.mapV (d.toNat + 1) t.lanes (fun l => BitVec.ofNat 32 ((rowOf lens 0 (base + l)).getD (t.width, 0)).2)
        r.mapM k.toNat t.lanes (fun l => (rowOf lens 0 (base + l)).isSome))))))

/-! ## Exchange between groups -/

/-- VXCH, R245: the group makes an offer and waits. Active lanes whose register is poisoned take no part in it, and raise cause 0x10
once the others have been exchanged (R223, R384); where there are no others they raise it at once. -/
def execVxch (d b : BitVec 7) (y : Bool) (s : State) : Out :=
  .next (s.issue (fun t =>
      { role := .vector, lanes := true, aborts := true, ends := true, illegal := t.badE 32 d,
        reads := [⟨true, d.toNat, false, true⟩, t.srcS b y], vdests := [d.toNat]})
    (fun s =>
      match s.th.wait with
      | .exchange _ _ _ => .stay s
      | _ =>
        let q := s.th.cleanLanes [srcV d false]
        if q.1.isEmpty then poisonRes s q.2
        else .stay (s.mapTh (fun t => { t with wait := .exchange d.toNat (t.valS b) (maskOf q.1) }))))

/-- Does an offer of a thread, with a scalar, name another thread? Its core, its group number, and bits [15:13] zero. -/
def names (goal : Word) (t : Thread) : Bool :=
  bitsAt goal 0 8 == t.ident.core && bitsAt goal 8 5 == t.ident.gnum && bitsAt goal 13 3 == 0

/-- R245: two offers match. -/
def offersMatch (a b : Thread) (ta tb : Word) : Bool :=
  names ta b && names tb a && bitsAt ta 16 16 == bitsAt tb 16 16 && a.ident.lnum == b.ident.lnum
    && a.ident.block != b.ident.block

/-- One side's end of an exchange: it goes on with its next word, after a trap that names its poisoned lanes. -/
def State.exchanged (s : State) (k : Nat) (t : Thread) (offered : Mask) : State :=
  let t := { t with wait := .none }.endRegion true
  let bad := t.active &&& ~~~offered
  if bad = 0 then s.putThread k t.advance else (s.putThread k t).trap k ⟨0x10, 1, 0, bad, 0, false, t.after⟩

/-- VXCH_MATCH, R245: one exchange of the lanes offered on both sides. -/
def execVxchMatch (agent partner : Nat) (s : State) : Out :=
  let a := s.thread agent
  let b := s.thread partner
  .next (
    match a.wait, b.wait with
    | .exchange da ta la, .exchange db tb lb =>
      if agent != partner && a.status = .running && b.status = .running && offersMatch a b ta tb then
        let ls := lanesOf (la &&& lb)
        let swap (t : Thread) (d : Nat) (o : Thread) (e : Nat) : Thread := t.mapRegs (fun r => r.mapV d ls (fun l => o.regs.v e l))
        (s.exchanged agent (swap a da b db) la).exchanged partner (swap b db a da) lb
      else s
    | _, _ => s)

/-- VXCH_TIMEOUT, R246: the offer is withdrawn and cause 0x0C names every active lane. -/
def execVxchTimeout (agent : Nat) (s : State) : Out :=
  .next (
    match (s.thread agent).wait with
    | .exchange _ _ _ =>
      if (s.thread agent).status = .running then
        s.trap agent ⟨0x0C, 0, 0, (s.thread agent).active, 0, false, (s.thread agent).here⟩
      else s
    | _ => s)

end Sys2Proof.Machine
end

