-- ==== Sys2Proof/Machine/Pme.lean ====
section
/-! DEFINITION. Page-major attention and the merge buffer (spec/06_page_major_attention.md, R122 to R141;
spec/14_engine_sync_system_instructions.md, R314 to R316): passes and shares, the sweep, page images, records, results. -/

namespace Sys2Proof.Machine

/-! ## Handles and tokens -/

/-- A PME with nothing in it. -/
def Pme.empty : Pme := ⟨[], [], [], [], [], []⟩

/-- The PME of a die. -/
def State.pme (s : State) (die : Nat) : Pme := s.svc.pmes.getD die Pme.empty

/-- Change a PME. -/
def State.mapPme (s : State) (die : Nat) (f : Pme → Pme) : State :=
  { s with svc := { s.svc with pmes := s.svc.pmes.put die (f (s.pme die)) } }

/-- Change a pass. -/
def State.mapPass (s : State) (die pix : Nat) (f : Pass → Pass) : State :=
  s.mapPme die (fun p => { p with passes := p.passes.upd pix f })

/-- A pass. -/
def State.pass? (s : State) (die pix : Nat) : Option Pass := (s.pme die).passes.find pix

/-- Table 6.2. -/
def passHandle (die ser pix : Nat) : Nat := die * 2 ^ 14 + ser % 1024 * 16 + pix

/-- The die, context and pass that a handle names (R125). -/
def State.passOf (s : State) (h : Nat) : Option (Nat × Nat × Pass) :=
  match s.pass? (h / 2 ^ 14 % 4) (h % 16) with
  | some p => if p.ser = h / 16 % 1024 then some (h / 2 ^ 14 % 4, h % 16, p) else none
  | none => none

/-- Table 6.6. -/
def Share.token (x : Share) (handle : Nat) : Word :=
  BitVec.ofNat 64 (handle * 2 ^ 32 + x.slot * 2 ^ 18 + x.rows * 2 ^ 11 + x.share * 2 ^ 8)

/-- A share of a pass. -/
def Pass.share? (p : Pass) (i : Nat) : Option Share := p.shares[i]?

/-- Change a share. -/
def Pass.mapShare (p : Pass) (i : Nat) (f : Share → Share) : Pass :=
  match p.share? i with
  | some x => { p with shares := setNth p.shares i (f x) }
  | none => p

/-- The share of a team that a token names, in any state but TAKEN (R135, R316). -/
def State.shareOf (s : State) (team : Nat) (token : Word) : Option (Nat × Nat × Pass × Nat × Share) :=
  match s.passOf (bitsAt token 32 16) with
  | none => Option.none
  | some (die, pix, p) =>
    match placeOf (fun x : Share => x.token (bitsAt token 32 16) == token && x.team == team && x.st != .taken) p.shares 0 with
    | some i => (p.share? i).map (fun x => (die, pix, p, i, x))
    | none => Option.none

/-- *D* of a share. -/
def Share.dim (x : Share) : Nat := headDim x.hd

/-- The shares of a query, with their places (R129). -/
def Pass.query (p : Pass) (qh : Nat) : List (Nat × Share) :=
  ((upto p.shares.length).zip p.shares).filter (fun q => q.2.qh == qh)

/-- The key of a row's result. -/
def Pass.rowKey (p : Pass) (qh row : Nat) : Nat :=
  128 * (match p.query qh with
    | (i, _) :: _ => i
    | [] => 0) + row

/-- The slot of a row of a share, where it has not been freed (R134, R139): a slot that has been given to another share is that share's. -/
def Pme.slotOf (m : Pme) (pix ser i : Nat) (x : Share) (row : Nat) : Option Slot :=
  match m.slots.find (x.slot + row) with
  | some z => if z.pix = pix && z.ser = ser && z.place = i then some z else none
  | none => none

/-- Free the slots of some rows of a share. -/
def Pme.freeSlots (m : Pme) (pix ser i : Nat) (x : Share) (rows : List Nat) : Pme :=
  { m with slots := rows.foldl (fun t r => if (m.slotOf pix ser i x r).isSome then t.del (x.slot + r) else t) m.slots }

/-- Scope of the PME's releases to a share's core (R132): cluster on the pass's die, else package. -/
def State.shareScope (s : State) (die team : Nat) : Nat := if dieOf (s.team team).core = die then 1 else 2

/-! ## Results -/

/-- Minus infinity. -/
def negInf : Nat := 0xFF800000

/-- A zero-filled result (R139). -/
def RowRes.zero (d status : Nat) : RowRes := ⟨negInf, 0, List.replicate d 0, status, []⟩

/-- The 32-bit words of a result record (R316). -/
def RowRes.words (r : RowRes) (row : Nat) : List Nat := r.m :: r.l :: r.status :: row :: r.o

/-- Registers of a record of dimension `d` (Table 14.4). -/
def recordRegs (d w : Nat) : Nat := (4 + d + w - 1) / w

/-- The values of a record's registers: word `i` is lane `i` mod W of register `i` div W (R314). -/
def recordVals (v w n : Nat) (ws : List Nat) : List (Dest × Word) :=
  (upto (n * w)).map (fun i => (.v (v + i / w) (i % w), BitVec.ofNat 64 (nth ws i 0)))

/-- What an aborted pass still owes a share: the fetched images that are to be delivered to it, in their order, and zeros for every other
page (R141). -/
def State.owedTo (s : State) (die pix i : Nat) (x : Share) : Owed :=
  let size := imageBytes x.dim x.b16
  let mine := (s.pme die).store.filter (fun g => g.pass == pix && g.goal.contains i)
  let ring := (s.team x.team).ring x.ring
  ⟨x.team, x.ring, ring.cfg, x.bar, s.shareScope die x.team,
    mine.map (fun g => if g.misfit.contains i then List.replicate size (0, false)
      else g.data.getD (List.replicate size (0, false))), x.list.length - x.next, size⟩

/-- Does anything of it remain to be delivered? -/
def Owed.open_ (o : Owed) : Bool := !(o.images.isEmpty && o.zeros == 0)

/-- A share has become TAKEN: its slots are freed, and its ring is the team's again (R139, R155). What an aborted pass still owes it is
kept (R141), unless the owner's launch ends (`owes` is false). -/
def State.shareTaken (s : State) (die pix i : Nat) (owes : Bool) : State :=
  match s.pass? die pix with
  | none => s
  | some p =>
    match p.share? i with
    | none => s
    | some x =>
      let o := s.owedTo die pix i x
      let s := s.mapPass die pix (fun p => p.mapShare i (fun x => { x with st := .taken }))
      let s := s.mapPme die (fun m => { m.freeSlots pix p.ser i x (upto (x.rows + 1)) with
        store := (m.store.map (fun g => if g.pass = pix then { g with goal := eraseNat g.goal i } else g)).filter
          (fun g => !g.goal.isEmpty),
        owed := if owes && o.open_ then m.owed ++ [o] else m.owed })
      s.mapRing x.team x.ring (fun r => { r with pme := false })

/-- R140: a pass with shares, all of them TAKEN, closes. -/
def State.closePass (s : State) (die pix : Nat) : State :=
  match s.pass? die pix with
  | none => s
  | some p =>
    if !p.shares.isEmpty && p.shares.all (fun x => x.st = .taken) then
      s.mapPme die (fun m => { m with passes := m.passes.del pix, store := m.store.filter (fun g => g.pass != pix) })
    else s

/-- R139, Table 6.8: what taking a row frees. -/
def State.afterTake (s : State) (die pix qh row : Nat) : State :=
  match s.pass? die pix with
  | none => s
  | some p =>
    let q := (p.query qh).filter (fun x => x.2.st != .taken)
    let nsh := match q with
      | (_, x) :: _ => x.nsh
      | [] => 0
    let s := if q.all (fun x => x.2.taken.contains row) && (nsh ≤ (p.query qh).length || q.all (fun x => x.2.st = .aborted)) then
        s.mapPme die (fun m => q.foldl (fun (m : Pme) x => m.freeSlots pix p.ser x.1 x.2 [row]) m)
      else s
    let ahead (x : Nat × Share) : Bool :=
      (upto (x.2.rows + 1)).all (fun r => x.2.taken.contains r)
        && (x.2.st = .aborted
          || (x.2.st = .done && (upto (x.2.rows + 1)).all (fun r => ((s.pme die).slotOf pix p.ser x.1 x.2 r).isNone)))
    ((q.filter ahead).foldl (fun (s : State) x => s.shareTaken die pix x.1 true) s).closePass die pix

/-- The take of a row by a share, where its result is there (R139): the result, and the state after. -/
def State.takeRow (s : State) (die pix i row : Nat) : Option (RowRes × State) :=
  match s.pass? die pix with
  | none => Option.none
  | some p =>
    match p.share? i with
    | none => Option.none
    | some x =>
      if x.taken.contains row then some (RowRes.zero x.dim 4, s)
      else match p.results.find (p.rowKey x.qh row) with
        | none => Option.none
        | some r =>
          let s := s.mapPass die pix (fun p => p.mapShare i (fun x => { x with taken := insertNat x.taken row }))
          some (r, s.afterTake die pix x.qh row)

/-- A take that has been performed gives its producer its values (R316). -/
def Producer.take (q : Producer) (w row : Nat) (r : RowRes) : Producer :=
  let v := match q.vdests with
    | d :: _ => d
    | [] => 0
  let vs := recordVals v w q.vdests.length (r.words row)
  { q with await := .none, vals := vs, poison := ((vs.zip (upto vs.length)).filter (fun x => r.poison.contains x.2)).map (·.1.1) }

/-- Perform a waiting take of a thread, where it can be. Where the share has become TAKEN meanwhile, every row of it has been taken:
status 4, and a record of zeros whatever *D* is (R139). -/
def State.tryTake (s : State) (k id : Nat) : State :=
  let t := s.thread k
  match t.findProducer id with
  | none => s
  | some q =>
    match q.await with
    | .take _ token row =>
      (match s.shareOf t.ident.team token with
      | none => s.mapThread k (fun t => t.mapProducer id (fun q => q.take t.width row (RowRes.zero 0 4)))
      | some (die, pix, _, i, _) =>
        match s.takeRow die pix i row with
        | none => s
        | some (r, s) => s.mapThread k (fun t => t.mapProducer id (fun q => q.take t.width row r)))
    | _ => s

/-- Perform every waiting take that a die's passes can serve. -/
def State.tryTakes (s : State) : State :=
  s.work.threads.foldl (fun (s : State) p => p.2.producers.foldl (fun (s : State) q => match q.await with
    | .take _ _ _ => s.tryTake p.1 q.id
    | _ => s) s) s

/-! ## Merging (R136 to R138) -/

/-- `merge` of R137 on two triples, in F32 to nearest even; NaN in either *m* makes every field the canonical NaN. -/
def mergeRows (x y : Nat × Nat × List Nat) : Nat × Nat × List Nat :=
  let nan : Nat := 0x7FC00000
  if (Fmt.decode .f32 x.1).isNaN || (Fmt.decode .f32 y.1).isNaN then (nan, nan, x.2.2.map (fun _ => nan))
  else
    let less := (Fmt.decode .f32 x.1).lt (Fmt.decode .f32 y.1)
    let big := if less then y else x
    let small := if less then x else y
    let a : Nat := if (Fmt.decode .f32 small.1).eq (Fmt.decode .f32 big.1) then 0x3F800000
      else if small.1 = negInf then 0
      else fexp2 .f32 .rne (fsub .f32 .rne small.1 big.1)
    (big.1, ffma .f32 .rne small.2.1 a big.2.1,
      (small.2.2.zip big.2.2).map (fun p => ffma .f32 .rne p.1 a p.2))

/-- A slot's triple. -/
def Slot.triple (z : Slot) : Nat × Nat × List Nat := (z.m, z.l, z.o)

/-- Every 8-byte unit of a slot's record: *m* and *l*, `NEXT` and `QST`, and *o* (R134). -/
def Slot.units (z : Slot) : List Nat := upto (2 + z.o.length / 2)

/-- R136, R137: a slot after its next post. A poisoned unit of the slot or of the record poisons the whole row. -/
def Slot.merged (z : Slot) (o : Post) : Slot :=
  let t := mergeRows z.triple (o.m, o.l, o.o)
  { z with m := t.1, l := t.2.1, o := t.2.2, next := z.next + 1,
           poison := if z.poison.isEmpty && !o.poison then [] else z.units }

/-- The poisoned words of a row's result (R137, R316): a result of one slot is that slot's own record, and a merge of several is poisoned
whole. -/
def resultPoison (zs : List Slot) : List Nat :=
  match zs with
  | [z] => (z.poison.flatMap (fun u => if u = 1 then [2] else [2 * u, 2 * u + 1]))
  | _ => if zs.all (fun z => z.poison.isEmpty) then [] else upto (4 + ((zs.map (fun z => z.o.length)).foldl max 0))

/-- Is row `r` complete in a share (R136)? -/
def Pme.rowDone (m : Pme) (pix ser i : Nat) (x : Share) (r : Nat) : Bool :=
  match m.slotOf pix ser i x r with
  | some z => z.next == x.list.length
  | none => x.taken.contains r

/-- R138: the result of a row, when every share of its query has completed it. -/
def State.formRow (s : State) (die pix qh row : Nat) : State :=
  match s.pass? die pix with
  | none => s
  | some p =>
    let m := s.pme die
    let q := p.query qh
    let nsh := match q with
      | (_, x) :: _ => x.nsh
      | [] => 0
    let key := p.rowKey qh row
    if p.results.has key || q.length < nsh || !(q.all (fun x => m.rowDone pix p.ser x.1 x.2 row)) then s
    else
      let zs := (upto nsh).filterMap (fun i => match q.find? (fun x => x.2.share == i) with
        | some x => m.slotOf pix p.ser x.1 x.2 row
        | none => Option.none)
      match zs with
      | [] => s
      | z :: rest =>
        let t := rest.foldl (fun t z => mergeRows t z.triple) z.triple
        let r : RowRes := ⟨t.1, t.2.1, t.2.2, zs.foldl (fun n z => max n z.qst) 0, resultPoison zs⟩
        s.mapPass die pix (fun p => { p with results := p.results.put key r })

/-- A share all of whose pages are delivered is SENT, and DONE once every row is complete (Table 6.8). -/
def State.settleShare (s : State) (die pix i : Nat) : State :=
  match s.pass? die pix with
  | none => s
  | some p =>
    match p.share? i with
    | none => s
    | some x =>
      let m := s.pme die
      let due := m.store.any (fun g => g.pass == pix && g.goal.contains i)
      let st : ShareSt := match x.st with
        | .catchup => if x.list.length ≤ x.next then (if due then .catchup else .sent)
            else if p.pos ≤ nth x.list x.next 0 then .live else .catchup
        | .live => if x.list.length ≤ x.next && !due then .sent else .live
        | st => st
      let st := if st = .sent && (upto (x.rows + 1)).all (m.rowDone pix p.ser i x) then .done else st
      s.mapPass die pix (fun p => p.mapShare i (fun x => { x with st := st }))

/-- R139: set the query status of a row of a share, and that of a result already formed from it. -/
def State.raiseQst (s : State) (die pix i : Nat) (x : Share) (row st : Nat) : State :=
  match s.pass? die pix with
  | none => s
  | some p =>
    let s := match (s.pme die).slotOf pix p.ser i x row with
      | some z => s.mapPme die (fun m => { m with slots := m.slots.put (x.slot + row) { z with qst := max z.qst st } })
      | none => s
    s.mapPass die pix (fun p => { p with results := p.results.upd (p.rowKey x.qh row) (fun r =>
      if r.status = 1 then r else { r with status := max r.status st }) })

/-- R136: perform a record on its slot. A slot that has been freed takes nothing. -/
def State.mergePost (s : State) (die : Nat) (o : Post) : State :=
  match s.pass? die o.pix with
  | none => s
  | some p =>
    match p.share? o.share with
    | none => s
    | some x =>
      if p.ser ≠ o.ser || x.st = .aborted || x.st = .taken then s
      else match (s.pme die).slotOf o.pix o.ser o.share x o.row with
        | none => s
        | some z =>
          if o.pos = z.next && o.pos < x.list.length then
            let s := s.mapPme die (fun m => { m with slots := m.slots.put (x.slot + o.row) (z.merged o) })
            ((s.formRow die o.pix x.qh o.row).settleShare die o.pix o.share).tryTakes
          else s.raiseQst die o.pix o.share x o.row 3

/-- MERGE_RECORD, R136: the merge unit takes the next record of its queue. -/
def execMergeRecord (die : Nat) (s : State) : Out :=
  .next (match (s.pme die).posts with
    | [] => s
    | o :: rest => (s.mapPme die (fun m => { m with posts := rest })).mergePost die o)

/-! ## MBPOST and MBTAKE -/

/-- MBPOST, R315, R135: the record is held in whole registers, whatever `active()` holds. -/
def execMbpost (a b : BitVec 7) (x y : Bool) (s : State) : Out :=
  .next (s.issue (fun t =>
    { role := .vector, ends := true, illegal := t.badV a 1, reads := [⟨true, a.toNat, x, false⟩, t.srcS b y] })
    (fun s =>
      let t := s.th
      match s.shareOf t.ident.team (t.valS b) with
      | none => if t.tx.live then .moved (s.final s.work.cur 5) else .moved (s.trapHere 0x11 0)
      | some (die, pix, p, i, sh) =>
        let n := recordRegs sh.dim t.width
        let w (j : Nat) : Nat := (t.regs.v (a.toNat + j / t.width) (j % t.width)).toNat
        if t.badV a n then .moved (s.trapHere 0x01 0)
        else if (dataV a n).any t.empty then .stay s
        else if t.tx.live then .moved (s.final s.work.cur 5)
        else if sh.rows < w 3 % 2 ^ 16 || w 3 / 2 ^ 16 ≠ 0 then .moved (s.trapHere 0x11 0)
        else s.afterRelease (if dieOf t.ident.core = die then 1 else 2) (fun s =>
          if 64 ≤ (s.pme die).posts.length then .stay s
          else
            let bad := (upto (4 + sh.dim)).any (fun j => t.regs.vPoison.contains (64 * (a.toNat + j / t.width) + j % t.width))
            let o : Post := ⟨pix, p.ser, i, w 0, w 1, w 2, w 3, (upto sh.dim).map (fun j => w (4 + j)), bad⟩
            .done (s.mapPme die (fun m => { m with posts := m.posts ++ [o] })))))

/-- MBTAKE, R316, R139: a long-latency producer whose take waits for the row's result, and whose landing is an acquire at the scope of the
pass's die (Table 15.3). -/
def execMbtake (d a b : BitVec 7) (x y : Bool) (s : State) : Out :=
  .next (s.issue (fun t =>
    { role := .vector, ends := true, aborts := true, illegal := t.badDest d 1, reads := [t.srcS a x, t.srcS b y] })
    (fun s =>
      let t := s.th
      let row := (t.valS a).toNat
      match s.shareOf t.ident.team (t.valS b) with
      | none => .moved (s.trapHere 0x11 0)
      | some (die, _, _, _, sh) =>
        let n := recordRegs sh.dim t.width
        if sh.rows < row then .moved (s.trapHere 0x11 0)
        else if t.badDest d n then .moved (s.trapHere 0x01 0)
        else if (dataV d n).any t.empty || t.acqPending then .stay s
        else
          let scope := if dieOf t.ident.core = die then 1 else 2
          let p := { t.producer Form.none [] (destsV d n) with await := .take die (t.valS b) row, order := ⟨true, false, scope⟩ }
          .done ((s.mapTh (fun t => t.produce p)).tryTake s.work.cur p.id)))

/-! ## Commands of q5 (R126 to R129) -/

/-- Is a command the one its issuer's q5 performs now? -/
def State.q5Head (s : State) (c : Cmd) : Bool :=
  c.q = 5 && c.st = .queued && !(s.svc.cmds.any (fun d => d.id < c.id && d.q == 5 && c.sameIssuer d))

/-- A command of q5 is done with: its status word is left to write. -/
def State.q5Done (s : State) (c : Cmd) (w : Word) : State :=
  s.putCmd { c with st := .finishing, started := true, ended := true, out := [w] }

/-- A status word. -/
def q5Status (st : Nat) : Word := BitVec.ofNat 64 (st * 2 ^ 60)

/-- PASS_OPEN, R125 to R127: the lowest free context. -/
def execPassOpen (cmd : Nat) (s : State) : Out :=
  s.onCmd cmd 0x40 (fun c => s.q5Head c) (fun s c =>
    let m := s.pme c.die
    let pix := m.passes.free 0 16
    if 16 ≤ pix then s.q5Done c (q5Status 1)
    else
      let ser := (m.serials.getD pix 0 + 1) % 1024
      let p : Pass := ⟨ser, c.w 1, bitsAt (c.w 2) 0 20, (c.w 0).getLsbD 38, 0, c.asid, c.root, c.priv, c.part, c.lnum, [], [], false⟩
      (s.mapPme c.die (fun m => { m with passes := m.passes.put pix p, serials := m.serials.put pix ser })).q5Done c
        (BitVec.ofNat 64 (passHandle c.die ser pix)))

/-- The open pass of a command's address space that its handle names. -/
def State.ownPass (s : State) (c : Cmd) (h : Nat) : Option (Nat × Nat × Pass) :=
  match s.passOf h with
  | some (die, pix, p) => if p.asid = c.asid then some (die, pix, p) else none
  | none => none

/-- START, R127, R130. -/
def execStart (cmd : Nat) (s : State) : Out :=
  s.onCmd cmd 0x42 (fun c => s.q5Head c) (fun s c =>
    match s.ownPass c (bitsAt (c.w 1) 0 16) with
    | some (die, pix, _) => (s.mapPass die pix (fun p => { p with held := false })).q5Done c (q5Status 0)
    | none => s.q5Done c (q5Status 3))

/-- Rows of a query that have no result are zero-filled with status 1 (R139). -/
def Pass.zeroRows (p : Pass) (qh : Nat) : Pass :=
  match p.query qh with
  | [] => p
  | (_, x) :: _ =>
    { p with results := (upto (x.rows + 1)).foldl (fun (t : Tab RowRes) r =>
        let k := p.rowKey qh r
        if t.has k then t else t.put k (RowRes.zero x.dim 1)) p.results }

/-- A share that is aborted (Table 6.8). -/
def Share.abort (x : Share) : Share := if x.st = .taken then x else { x with st := .aborted }

/-- R141: a pass is aborted. Stopped fetches end as zeros, unformed rows are zero-filled, and waiting takes complete. -/
def State.abortPass (s : State) (die pix : Nat) : State :=
  match s.pass? die pix with
  | none => s
  | some p =>
    let q := p.shares.foldl (fun (p : Pass) x => p.zeroRows x.qh) p
    let s := s.mapPass die pix (fun _ => { q with aborted := true, shares := q.shares.map Share.abort })
    let s := s.mapPme die (fun m => { m with store := m.store.map (fun g =>
      if g.pass = pix && g.data.isNone then { g with zero := true, token := none } else g) })
    let mine (t : Token) : Bool := match t.src with
      | .page d x _ => d == die && x == pix
      | _ => false
    (({ s with svc := { s.svc with tokens := s.svc.tokens.filter (fun t => !(mine t)) } }).tryTakes).closePass die pix

/-- ABORT, R127, R141. -/
def execAbort (cmd : Nat) (s : State) : Out :=
  s.onCmd cmd 0x43 (fun c => s.q5Head c) (fun s c =>
    match s.ownPass c (bitsAt (c.w 1) 0 16) with
    | some (die, pix, _) => (s.abortPass die pix).q5Done c (q5Status 0)
    | none => s.q5Done c (q5Status 3))

/-- The lowest run of `n` free slots: the slots in use, in rising order, are passed one by one. -/
def freeRun (n : Nat) : Nat → List Nat → Nat
  | base, [] => base
  | base, k :: r => if k < base then freeRun n base r else if base + n ≤ k then base else freeRun n (k + 1) r

/-- The share a SUBSCRIBE describes (Table 6.4). -/
def Cmd.newShare (c : Cmd) (list : List Nat) (slot : Nat) : Share :=
  { qh := bitsAt (c.w 1) 0 32, share := bitsAt (c.w 1) 45 3, nsh := bitsAt (c.w 1) 42 3 + 1, rows := bitsAt (c.w 1) 35 7,
    hd := bitsAt (c.w 1) 33 2, b16 := (c.w 1).getLsbD 32, list := list, next := 0, st := .catchup, slot := slot,
    team := c.team, ring := bitsAt (c.w 0) 34 3,
    bar := bitsAt (c.w 6) 0 4 + (if (c.w 6).getLsbD 4 then 16 else 0), taken := [] }

/-- R155: the ring as an accepted SUBSCRIBE writes it. -/
def Cmd.newRing (c : Cmd) : Ring :=
  let pb := imageBytes (headDim (bitsAt (c.w 1) 33 2)) ((c.w 1).getLsbD 32)
  let cfg := bitsAt (c.w 0) 37 2 * 2 ^ 60 + bitsAt (c.w 0) 30 4 * 2 ^ 56 + pb / 128 * 2 ^ 32 + bitsAt (c.w 4) 0 19
  ⟨BitVec.ofNat 64 cfg, true, false, [], 0, 0⟩

/-- Do two shares of one query agree (R129)? -/
def Share.agrees (x y : Share) : Bool :=
  x.nsh == y.nsh && x.rows == y.rows && x.hd == y.hd && x.b16 == y.b16 && x.share != y.share

/-- R129: the checks of a SUBSCRIBE whose page list has been read, in their order. -/
def State.subscribe (s : State) (c : Cmd) (die pix : Nat) (p : Pass) (list : List Nat) : State :=
  let x := c.newShare list 0
  let d := x.dim
  let slot := freeRun (x.rows + 1) 0 ((s.pme die).slots.map (·.1))
  if !(ascending list) || list.any (fun n => p.npg ≤ n) then s.q5Done c (q5Status 5)
  else if !((p.query x.qh).all (fun y => y.2.agrees x)) then s.q5Done c (q5Status 4)
  else if 65536 < (p.shares.map (fun y => y.list.length)).foldl (· + ·) 0 + list.length then s.q5Done c (q5Status 2)
  else if 15872 < slot + x.rows + 1 then s.q5Done c (q5Status 1)
  else
    let x := { x with slot := slot }
    let z : Slot := ⟨negInf, 0, List.replicate d 0, 0, 0, [], pix, p.ser, p.shares.length⟩
    let s := s.mapPme die (fun m => { m with slots := (upto (x.rows + 1)).foldl (fun t r => t.put (slot + r) z) m.slots })
    let i := p.shares.length
    let s := (s.mapPass die pix (fun p => { p with shares := p.shares ++ [x] })).settleShare die pix i
    let s := s.mapTeam c.team (fun t => { t with rings := t.rings.put x.ring c.newRing })
    s.q5Done c (x.token (passHandle die p.ser pix))

/-- SUBSCRIBE, R128, R129. -/
def execSubscribe (cmd : Nat) (s : State) : Out :=
  s.onCmd cmd 0x41 (fun c => s.q5Head c) (fun s c =>
    match s.ownPass c (bitsAt (c.w 1) 48 16) with
    | none => s.q5Done c (q5Status 3)
    | some (die, pix, p) =>
      if p.aborted then s.q5Done c (q5Status 3)
      else
        let n := bitsAt (c.w 3) 0 13
        match s.engRead c.space (s.engineMid c) (c.w 2).toNat (4 * n) with
        | .busy q => s.await q
        | .fault s cause reason va =>
          if parks cause reason then s.parkCmd c cause reason 0 va else s.q5Done c (q5Status 6)
        | .ok s bs =>
          if refused bs || poisonedIn bs then s.q5Done c (q5Status 6)
          else s.subscribe c die pix p ((upto n).map (fun i => field (plainBytes bs) (4 * i) 4)))

/-! ## Pages (R122 to R124) -/

/-- The format a directory entry declares, where it is usable: *D* code and B16 (R122). -/
def pageFormat (w : List Word) : Option (Nat × Bool) :=
  let r := TRec.ofWords (w.take 8)
  let q := TRec.ofWords (w.drop 8)
  let d := nth r.sizes 0 0
  let box (r : TRec) (n : Nat) : Bool :=
    r.rank == 3 && r.sizes == [n, 64, 2, 0, 0] && r.tiles == [n, 64, 2, 0, 0]
  if r.bad (w.take 8) || !(d = 64 || d = 128 || d = 256) || !(box r d) then none
  else if r.fmt = 5 then (if (w.drop 8).all (fun x => x == 0) then some (Nat.log2 (d / 64), true) else none)
  else if r.fmt = 8 then
    (if !(q.bad (w.drop 8)) && q.fmt = 10 && box q (d / 32) then some (Nat.log2 (d / 64), false) else none)
  else none

/-- What fetching a page comes to: its image and format; an unusable page. -/
inductive Fetched where
  | image (hd : Nat) (b16 : Bool) (bytes : List (Nat × Bool))
  | unusable
  deriving DecidableEq, Repr

/-- The rows of the one tile of a page's record, each padded with zeros to the row length (R123, R50). -/
def State.readRows (s : State) (x : Space) (mid : Nat) (r : TRec) : Eng (List (List (Option (Nat × Bool)))) :=
  (upto r.rows).foldl (fun (e : Eng (List (List (Option (Nat × Bool))))) j =>
    e.andThen (fun s l =>
      match r.memRow [0, 0, 0] j with
      | none => .ok s (l ++ [List.replicate r.rb (some (0, false))])
      | some p => (s.engRead x mid p.1 p.2).andThen (fun s bs =>
          .ok s (l ++ [bs ++ List.replicate (r.rb - p.2) (some (0, false))]))))
    (.ok s [])

/-- R122 to R124: fetch a page of a pass. A refused page, and one that fails otherwise than by a fault that parks, is unusable
(R141). -/
def State.fetchPage (s : State) (die : Nat) (p : Pass) (page : Nat) : Eng Fetched :=
  let x := pmeSpace die p.root p.asid p.priv
  let mid := 640 + die
  let soft {α : Type} (e : Eng α) (f : State → α → Eng Fetched) : Eng Fetched :=
    match e with
    | .ok s a => f s a
    | .busy q => .busy q
    | .fault s c r va => if parks c r then .fault s c r va else .ok s .unusable
  soft (s.engRead x mid (p.dira.toNat + 128 * page) 128) (fun s bs =>
    let w := wordsOf (plainBytes bs) 16
    if refused bs || poisonedIn bs then .ok s .unusable
    else match pageFormat w with
      | none => .ok s .unusable
      | some (hd, b16) =>
        let r := TRec.ofWords (w.take 8)
        let q := TRec.ofWords (w.drop 8)
        soft (s.readRows x mid r) (fun s rows =>
          soft (if b16 then .ok s [] else s.readRows x mid q) (fun s scales =>
            let all := rows.flatten ++ scales.flatten
            if refused all then .ok s .unusable
            else .ok s (.image hd b16 (all.map (fun b => b.getD (0, false)))))))

/-- The shares of an image whose declared format a fetched page has. -/
def Pass.ofFormat (p : Pass) (hd : Nat) (b16 : Bool) (goal : List Nat) : List Nat :=
  goal.filter (fun i => match p.share? i with
    | some x => x.hd == hd && x.b16 == b16
    | none => false)

/-- Put a fetched page in the store's entry at an index: shares of another format receive zeros (R122, R141). -/
def State.placePage (s : State) (die i : Nat) (p : Pass) (g : PageImg) (f : Fetched) : State :=
  s.mapPme die (fun m => { m with store := setNth m.store i (match f with
    | .unusable => { g with zero := true, unusable := true }
    | .image hd b16 bytes =>
      { g with data := some bytes, misfit := g.goal.filter (fun k => !((p.ofFormat hd b16 g.goal).contains k)) }) })

/-- Fetch the page of a store entry that has not been fetched (R141): a fault stops that fetch alone, with a record of kind 3. -/
def State.fillPage (s : State) (die i : Nat) : State :=
  match (s.pme die).store[i]? with
  | none => s
  | some g =>
    if g.data.isSome || g.zero || g.token.isSome then s
    else match s.pass? die g.pass with
      | none => s
      | some p =>
        match s.fetchPage die p g.page with
        | .busy q => s.await q
        | .ok s f => s.placePage die i p g f
        | .fault s cause reason va =>
          if !(s.recordRoom die 1) then s
          else
            let s := s.report p.part die
              ⟨3, cause, reason, 640 + die, 0, 0, p.asid, BitVec.ofNat 64 va, 0, p.lnum, BitVec.ofNat 64 (5 * 2 ^ 60), 0, 0⟩
              (.page die g.pass g.page)
            s.mapPme die (fun m => { m with store := setNth m.store i { g with token := some (s.lastToken p.part) } })

/-- Put a page in the store for shares, whose next pages it was. -/
def State.storePage (s : State) (die pix page : Nat) (goal : List Nat) (zero : Bool) : State :=
  let s := s.mapPass die pix (fun p => goal.foldl (fun (p : Pass) i => p.mapShare i (fun x => { x with next := x.next + 1 })) p)
  s.mapPme die (fun m => { m with store := m.store ++ [⟨pix, page, Option.none, zero, false, Option.none, goal, []⟩] })

/-- The next page of a share, where it has one. -/
def Share.nextPage (x : Share) : Option Nat := x.list[x.next]?

/-- The next page of the sweep (R130). -/
def Pass.sweepPage (p : Pass) : Option Nat :=
  (p.shares.filter (fun x => x.st = .live)).foldl (fun (o : Option Nat) x =>
    match x.nextPage with
    | some n => if p.pos ≤ n then (match o with
        | some m => some (min m n)
        | none => some n) else o
    | none => o) none

/-- SWEEP_FETCH, R130, R141: a fetch of the pass that waits is made again; else the sweep's next page is fetched, once, for every
live share whose next page it is. The page store holds eight pages (R132). -/
def execSweepFetch (die pix : Nat) (s : State) : Out :=
  .next (match s.pass? die pix with
    | none => s
    | some p =>
      match placeOf (fun g : PageImg => g.pass == pix && g.data.isNone && !g.zero && g.token.isNone) (s.pme die).store 0 with
      | some i => s.fillPage die i
      | none =>
        if p.aborted || p.held || 8 ≤ (s.pme die).store.length then s
        else match p.sweepPage with
          | none => s
          | some n =>
            let goal := (upto p.shares.length).filter (fun i => match p.share? i with
              | some x => x.st = .live && x.nextPage == some n
              | none => false)
            let i := (s.pme die).store.length
            ((s.mapPass die pix (fun p => { p with pos := n + 1 })).storePage die pix n goal false).fillPage die i)

/-! ## Delivery (R132, R133) -/

/-- Write an image into a scratchpad, with its poison. -/
def Team.putImage (t : Team) (m a : Nat) (bytes : List (Nat × Bool)) : Team :=
  ((cutSectors a (bytes.map some)).map (placeSector m)).foldl (fun (t : Team) p => t.putSector p.1 p.2) t

/-- Is the next slot of a ring free, and the team there to receive it (R132, R133)? -/
def State.ringRoom (s : State) (team k : Nat) : Bool :=
  (s.team team).resident && !(((s.team team).ring k).full.has ((s.team team).ring k).prod)

/-- `deliver`, R132: an image is written into the next slot of a ring, the slot is marked full, and one arrival is made. -/
def State.putPage (s : State) (team k bar scope : Nat) (bytes : List (Nat × Bool)) : State :=
  let ring := (s.team team).ring k
  let s := s.mapTeam team (fun t => t.putImage ring.swz (ring.slotAt ring.prod) bytes)
  let s := s.mapRing team k (fun r => { r with full := r.full.put r.prod scope, prod := (r.prod + 1) % r.slots })
  s.arriveBar team bar scope

/-- CATCHUP_FETCH, R131: the next page of a share, which the sweep has begun, is fetched for that share alone. In an aborted pass the
page is delivered as zeros, without a fetch and without the page store, once the fetched pages before it are delivered (R141). -/
def execCatchupFetch (die pix share : Nat) (s : State) : Out :=
  .next (match s.pass? die pix with
    | none => s
    | some p =>
      match p.share? share with
      | none => s
      | some x =>
        match x.nextPage with
        | none => s
        | some n =>
          if x.st = .aborted then
            (if s.ringRoom x.team x.ring && !((s.pme die).store.any (fun g => g.pass == pix && g.goal.contains share)) then
              (s.mapPass die pix (fun p => p.mapShare share (fun x => { x with next := x.next + 1 }))).putPage x.team x.ring x.bar
                (s.shareScope die x.team) (List.replicate (imageBytes x.dim x.b16) (0, false))
            else s)
          else if 8 ≤ (s.pme die).store.length then s
          else if x.st = .catchup && n < p.pos && !p.aborted then
            let i := (s.pme die).store.length
            ((s.storePage die pix n [share] false).fillPage die i).settleShare die pix share
          else s)

/-- DELIVER, R132, R133, R141: an image goes to a share's ring when its next slot is free and its team is resident, in the order
of the share's list. -/
def execDeliver (die image share : Nat) (s : State) : Out :=
  .next (match (s.pme die).store[image]? with
    | none => s
    | some g =>
      match s.pass? die g.pass with
      | none => s
      | some p =>
        match p.share? share with
        | none => s
        | some x =>
          let earlier := ((s.pme die).store.take image).any (fun h => h.pass == g.pass && h.goal.contains share)
          let misfit := g.misfit.contains share
          let bytes := if g.zero || misfit then some (List.replicate (imageBytes x.dim x.b16) (0, false)) else g.data
          match bytes with
          | none => s
          | some bytes =>
            if !(g.goal.contains share) || earlier || !(s.ringRoom x.team x.ring) then s
            else
              let s := s.putPage x.team x.ring x.bar (s.shareScope die x.team) bytes
              let s := if g.unusable || misfit then
                  (upto (x.rows + 1)).foldl (fun (s : State) r => s.raiseQst die g.pass share x r 2) s
                else s
              let goal := eraseNat g.goal share
              let s := s.mapPme die (fun m => { m with
                store := if goal.isEmpty then dropNth m.store image else setNth m.store image { g with goal := goal } })
              s.settleShare die g.pass share)

/-- What is left to deliver after the next page of it. -/
def Owed.rest (o : Owed) : Owed :=
  match o.images with
  | _ :: r => { o with images := r }
  | [] => { o with zeros := o.zeros - 1 }

/-- The next page owed: a fetched image, else zeros. -/
def Owed.page (o : Owed) : List (Nat × Bool) :=
  match o.images with
  | b :: _ => b
  | [] => List.replicate o.size (0, false)

/-- DELIVER_OWED, R141: the next page that an aborted pass owes a share which is TAKEN goes to its ring. Once the team has configured that
ring anew, nothing more is owed (log entry 41). -/
def execDeliverOwed (die place : Nat) (s : State) : Out :=
  .next (match (s.pme die).owed[place]? with
    | none => s
    | some o =>
      let ring := (s.team o.team).ring o.ring
      let after := if o.rest.open_ then setNth (s.pme die).owed place o.rest else dropNth (s.pme die).owed place
      if !(o.open_) || ring.cfg ≠ o.cfg || ring.pme then s.mapPme die (fun m => { m with owed := dropNth m.owed place })
      else if !(s.ringRoom o.team o.ring) || ((s.pme die).owed.take place).any (fun h => h.team == o.team && h.ring == o.ring) then s
      else (s.putPage o.team o.ring o.bar o.scope o.page).mapPme die (fun m => { m with owed := after }))

/-! ## The end of a launch (R140, R141) -/

/-- R141: a share is withdrawn: the other shares of its query are aborted, and their unformed rows zero-filled. -/
def State.withdraw (s : State) (die pix i : Nat) : State :=
  match s.pass? die pix with
  | none => s
  | some p =>
    match p.share? i with
    | none => s
    | some x =>
      if x.st = .taken then s
      else
        let s := s.mapPass die pix (fun p =>
          let p := p.zeroRows x.qh
          { p with shares := p.shares.map (fun y => if y.qh = x.qh then y.abort else y) })
        (((s.shareTaken die pix i false).closePass die pix).tryTakes)

/-- The PME's part of a launch's end: its passes abort, and close where nobody has subscribed; the shares of its teams are
withdrawn, and nothing more is owed to them. -/
def State.endPasses (s : State) (lnum : Nat) : State :=
  (upto 4).foldl (fun (s : State) die =>
    let s := s.mapPme die (fun m => { m with owed := m.owed.filter (fun o => (s.team o.team).lnum != lnum) })
    (upto 16).foldl (fun (s : State) pix =>
      match s.pass? die pix with
      | none => s
      | some p =>
        let s := (upto p.shares.length).foldl (fun (s : State) i => match p.share? i with
          | some x => if (s.team x.team).lnum = lnum then s.withdraw die pix i else s
          | none => s) s
        if p.lnum = lnum then
          let s := s.abortPass die pix
          match s.pass? die pix with
          | some p => if p.shares.isEmpty then s.mapPme die (fun m => { m with passes := m.passes.del pix }) else s
          | none => s
        else s) s) s

end Sys2Proof.Machine
end

