-- ==== Sys2Proof/Machine/Tinv.lean ====
section
/-! DEFINITION. Translation invalidation (spec/02_translation.md, R53 to R55;
spec/14_engine_sync_system_instructions.md, R326) and the migration of pages (spec/01_memory_and_homes.md, R28 to R32). -/

namespace Sys2Proof.Machine

/-! ## TINVA and TINVC -/

/-- TINVA, R53: a release at package scope, then the result of Table 2.10. Of a malformed descriptor while 16 invalidations are outstanding
Table 2.10 gives no precedence: the model answers `ST` 2 (log entry 37). -/
def execTinva (d : BitVec 7) (a : BitVec 7) (b : BitVec 7) (x : Bool) (y : Bool) (s : State) : Out :=
  .next (s.issue (fun t =>
    { distaff := true, priv := true, aborts := true, ends := true, reads := [t.srcS a x, t.srcS b y], sdests := [t.abs d] })
    (fun s =>
      let v := InvDesc.ofWords (s.th.valS a) (s.th.valS b)
      s.afterRelease 2 (fun s =>
        if v.bad then .done (s.setS d (armResult 2 0))
        else if 16 ≤ s.xlt.invals.length then .done (s.setS d (armResult 1 0))
        else
          let s := s.invalidate v
          .done (s.setS d (armResult 0 s.xlt.invalNum)))))

/-- TINVC, R54: an answer of 1 is an acquire at package scope. -/
def execTinvc (d : BitVec 7) (a : BitVec 7) (x : Bool) (s : State) : Out :=
  .next (s.issue (fun t => { distaff := true, priv := true, reads := [t.srcS a x], sdests := [t.abs d] })
    (fun s =>
      let n := s.invalAnswer (s.th.valS a)
      if n = 1 then
        if s.acquireReady s.work.cur 2 then
          .done ((s.setS d 1).acquireNow s.work.cur 2)
        else .stay s
      else .done (s.setS d (BitVec.ofNat 64 n))))

/-! ## Flushes that no word makes -/

/-- A race that a flush without an instruction has found is raised on the lowest resident group of the block on the core, at its
next word boundary; R381 gives no group for it (log entry 38). -/
def State.raceOn (s : State) (core lnum block race : Nat) : State :=
  if race = 0 then s
  else match (upto 32).find? (fun sl =>
      let t := s.thread (groupKey core sl)
      (t.status = .running || t.status = .parked || t.status = .halted) && t.ident.lnum == lnum && t.ident.block == block) with
    | some sl =>
      let k := groupKey core sl
      s.defer k ⟨0x0D, race, 0, (s.thread k).active, 0, false, none, none⟩
    | none => s.mapBlock lnum block (fun b => { b with raced := b.raced <|> some (core, race) })

/-- The blocks that have staged bytes in a core's L1. -/
def State.stagesIn (s : State) (core : Nat) : List (Nat × Nat) :=
  ((s.mem.caches.getD core []).flatMap (fun p => p.2.stage.map (fun g => (g.lnum, g.block)))).eraseDups

/-- Immediate flushes of every stage in a core's L1 (R378); none while a home cannot take its bytes. -/
def State.flushStages (s : State) (core : Nat) : Option State :=
  let bs := s.stagesIn core
  if bs.all (fun b => s.flushReady (s.stagedLines core b.1 b.2)) then
    some (bs.foldl (fun (s : State) b =>
      let q := s.flushStage core b.1 b.2 (s.levelOf b.1) false
      q.1.raceOn core b.1 b.2 q.2) s)
  else none

/-- Flush the stages of several cores. -/
def State.flushCores (s : State) : List Nat → Option State
  | [] => some s
  | c :: r => match s.flushStages c with
    | some s => (s.flushAll c).flushCores r
    | none => none

/-- Drop the draining entries of an invalidation. -/
def State.dropDraining (s : State) (num : Nat) : State :=
  let keep (e : TlbEntry) : Bool := !(e.draining && e.inval == num)
  { s with xlt := { s.xlt with tlbs := s.xlt.tlbs.map (fun p => (p.1, p.2.filter keep)) } }

/-- INVALIDATION_COMPLETE, R54: once no access through a matched entry is outstanding, the cores that held one write back their
masked bytes; once those are applied the draining entries are dropped. -/
def execInvalidationComplete (num : Nat) (s : State) : Out :=
  .next (match s.xlt.invals.find? (fun v => v.num == num) with
    | none => s
    | some v =>
      if s.draining num then s
      else match (if v.mark.isSome then some s else s.flushCores v.cores) with
        | none => s
        | some s =>
          let n := v.mark.getD s.mem.mwbNext
          let put (l : List Inval) : State := { s with xlt := { s.xlt with invals := l } }
          if v.cores.any (fun c => s.mwbOut c 2 none (some n)) then
            put (s.xlt.invals.map (fun v => if v.num = num then { v with mark := some n } else v))
          else (put (s.xlt.invals.filter (fun v => v.num != num))).dropDraining num)

/-! ## Migration -/

/-- A command of the host-die engines is performed after the earlier ones of its issuer in its queue (R304). -/
def State.firstOfIssuer (s : State) (c : Cmd) : Bool :=
  !(s.svc.cmds.any (fun d => d.id < c.id && d.q == c.q && c.sameIssuer d))

/-- The command has done its work; its status word is written next. -/
def Cmd.finish (c : Cmd) (out : List Word) : Cmd := { c with st := .finishing, started := true, ended := true, out := out }

/-- Does an access table or a boundary deny the engine a page, at its ends (R37)? -/
def State.migrDenied (s : State) (k : ReqKind) (pa : Word) (n : Nat) : Bool :=
  let no (w : Word) : Bool := match s.vet 644 k w with
    | .error _ => true
    | .ok _ => false
  no pa || no (pa + BitVec.ofNat 64 (n - 1))

/-- MIGRATION, R28 to R30: a command takes the lowest free context, or ends at once with its status (Table 1.7). R29 gives the statuses no
order, and none to a key slot that holds no key or to a partition boundary: the model answers 1, then 2, then 3, and 3 for every refusal of
R37 (log entry 39). -/
def execMigration (cmd : Nat) (s : State) : Out :=
  .next (match s.cmd? cmd with
    | none => s
    | some c =>
      if !(c.q = 8 && c.code = 0x01 && c.st = .queued && s.firstOfIssuer c) then s
      else
        let n := migrSize c.words
        let src := c.w 1
        let dst := c.w 2
        let i := s.mem.migr.free 0 4
        if 4 ≤ i then s.putCmd (c.finish [1])
        else match s.home src, s.home dst with
          | some a, some b =>
            if !(s.homedRange src n) || !(s.homedRange dst n) then s.putCmd (c.finish [2])
            else if s.migrDenied .read src n || s.migrDenied .write dst n then s.putCmd (c.finish [3])
            else
              let m : Migr := ⟨a, b, keyOf src, keyOf dst, n, a, false, true, false, cmd, 0, 0, false, none⟩
              { s.putCmd { c with st := .running, started := true } with mem := { s.mem with migr := s.mem.migr.put i m } }
          | _, _ => s.putCmd (c.finish [2]))

/-- Write a migration context. -/
def State.putMigr (s : State) (i : Nat) (m : Migr) : State := { s with mem := { s.mem with migr := s.mem.migr.put i m } }

/-- Is a message a write-back of masked bytes of a line? -/
def Msg.carriesMask (line : Nat) (m : Msg) : Bool := m.kind = .mwb && m.line == line && m.acc.isNone

/-- The write-backs of a line's masked bytes that are on their way are merged at its home, those nearest to it first. -/
def State.mergeFlying (s : State) (line : Nat) : State :=
  let flying := s.mem.net.filter (Msg.carriesMask line)
  let far := flying.foldl (fun n m => max n m.path.length) 0
  let s := { s with mem := { s.mem with net := s.mem.net.filter (fun m => !(m.carriesMask line)) } }
  ((upto (far + 1)).flatMap (fun n => flying.filter (fun m => m.path.length == n))).foldl (fun (s : State) m =>
    (s.mergeLine m.key line m.data m.mask m.poison).count (128 * line) true m.mid) s

/-- The masked dirty bytes of a core's copy are merged at its line's home, and the copy is given up. Staged bytes stay (R378). -/
def State.recallMasked (s : State) (core line : Nat) : State :=
  match s.cached core line with
  | some l =>
    let s := if l.dirty = 0 then s
      else ((s.mergeLine l.key line l.data l.dirty l.poison).putLine core line { l with dirty := 0 }).count (128 * line) true core
    s.loseLine core line
  | none => s

/-- R30, R87: the untracked copies of a line are recalled from the cores that its vectors name, and the vectors cleared. -/
def State.recallReaders (s : State) (line : Nat) : State :=
  let s := (s.readersOf line).foldl (fun (s : State) c => s.recallMasked c line) (s.mergeFlying line)
  let d := s.dirOf line
  let s := if d.csv.isEmpty then s else s.putDir line { d with csv := [] }
  { s with mem := { s.mem with rdcVec := (upto 4).foldl (fun t die => t.del (4 * line + die)) s.mem.rdcVec } }

/-- MIGRATION_LINE, R30, steps 1 to 4: the home recalls the tracked copies (the "Ev" row of Table 4.5); once it has them it merges the
masked bytes, the transactions that hold the line abort, and the line is read in transit. -/
def execMigrationLine (ctx : Nat) (s : State) : Out :=
  .next (match s.mem.migr.find ctx with
    | none => s
    | some m =>
      let line := m.bound / 128
      if !m.moving || m.transit || s.writeHeld line then s
      else if !m.recalled then
        if s.lineMoves line then s else (s.homeEvict line).putMigr ctx { m with recalled := true }
      else if (s.dirOf line).st != .I || s.mem.locked.contains line then s
      else
        let s := (s.recallReaders line).hitSigs line
        s.putMigr ctx { m with
          recalled := false, transit := true, line := s.homeLine m.skey line, linePoison := s.homePoison line,
          poisoned := m.poisoned || s.homePoison line != 0 })

/-- MIGRATION_LINE_LANDS, R30, R32: the line is written at its new home and the boundary advances; after the last one the context
forwards, and the command completes. -/
def execMigrationLineLands (ctx : Nat) (s : State) : Out :=
  .next (match s.mem.migr.find ctx with
    | none => s
    | some m =>
      let there := (m.dst + (m.bound - m.src)) / 128
      if !m.transit || s.lineBusy there || s.writeHeld there then s
      else
        let s := ((s.settle there).hitSigs there).mergeLine m.dkey there m.line fullMask m.linePoison
        let last := m.src + m.len ≤ m.bound + 128
        let s := s.putMigr ctx { m with transit := false, bound := m.bound + 128, moving := !last }
        if last then s.mapCmd m.cmd (fun c => c.finish [if m.poisoned then 4 else 0]) else s)

/-- MIGRATION_RELEASE, R32: the forwarding context of a source page forwards until the command completes. -/
def execMigrationRelease (cmd : Nat) (s : State) : Out :=
  .next (match s.cmd? cmd with
    | none => s
    | some c =>
      if !(c.q = 8 && c.code = 0x02 && c.st = .queued && s.firstOfIssuer c) then s
      else
        match s.mem.migr.find? (fun p => !p.2.moving && p.2.ending.isNone && s.home (c.w 1) = some p.2.src) with
        | some (i, m) => (s.putCmd (c.finish [5])).putMigr i { m with ending := some c.id }
        | none => s.putCmd (c.finish [6]))

end Sys2Proof.Machine
end

