-- ==== Sys2Proof/Machine/Launch.lean ====
section
/-! DEFINITION. The launch dispatcher (spec/17_launch_scheduling.md, R363 to R371, R377, R378; spec/07_execution_model.md, R142
to R147; spec/09_encoding_assembly.md, R199): start conditions, launches, placement, the end of blocks and of launches, and
the killing of a launch (spec/18_faults_preemption.md, R398). -/

namespace Sys2Proof.Machine

/-! ## The shape a command declares (Table 17.1) -/

def shapeGroups (w : List Word) : Nat := bitsAt (nth w 0 0) 10 5 + 1
def shapeCluster (w : List Word) : Nat := bitsAt (nth w 0 0) 6 4
def shapeWcode (w : List Word) : Nat := bitsAt (nth w 0 0) 19 2
def shapeNvr (w : List Word) : Nat := 8 * bitsAt (nth w 0 0) 15 4
def shapeScratch (w : List Word) : Nat := 128 * bitsAt (nth w 0 0) 21 12
def shapePrio (w : List Word) : Nat := bitsAt (nth w 0 0) 37 2
def shapeRole (w : List Word) (slot : Nat) : Nat := bitsAt (nth w 3 0) (2 * slot) 2

/-- Register bytes of a team: G x W x NVR x 4 (R143). -/
def shapeRegs (w : List Word) : Nat := shapeGroups w * (16 * 2 ^ shapeWcode w) * shapeNvr w * 4

/-- R248, R371: does the role map hold a matrix or any group? -/
def shapeTiles (w : List Word) : Bool := (upto (shapeGroups w)).any (fun i => shapeRole w i == 1 || shapeRole w i == 3)

/-- R143: does a shape break the budgets? -/
def shapeBad (w : List Word) : Bool := 524288 < shapeRegs w || 327680 < shapeScratch w

/-! ## Capacity (R371) -/

/-- Is a bay fenced: the `FROM` of an enabled substitution (R22, R1)? -/
def State.fenced (s : State) (core : Nat) : Bool :=
  let w := s.pkg.slsub.getD (dieOf core) 0
  (w.getLsbD 4 && bitsAt w 5 6 == core % 48) || (w.getLsbD 17 && bitsAt w 18 6 == core % 48)

/-- A core in service. -/
def State.inService (s : State) (core : Nat) : Bool := !(s.fenced core) && !(s.pkg.deadDies.contains (dieOf core))

/-- The cores of a die. -/
def coresOf (die : Nat) : List Nat := (upto 48).map (fun i => 48 * die + i)

/-- The compute dies of a partition, in ascending order. -/
def State.diesOf (s : State) (part : Nat) : List Nat := (upto 4).filter (fun d => s.partOfDie d = some part)

/-- The teams that a core holds. -/
def State.teamsOn (s : State) (core : Nat) : List Team :=
  (s.work.teams.filter (fun p => p.2.resident && p.2.core == core)).map (·.2)

/-- The command words of a team's launch. -/
def State.shapeOf (s : State) (t : Team) : List Word :=
  match s.launch? t.lnum with
  | some l => l.cmd
  | none => []

/-- The vacant slots of a core, in ascending order. -/
def State.freeSlots (s : State) (core : Nat) : List Nat :=
  (upto 32).filter (fun sl => (s.thread (groupKey core sl)).status = .vacant)

/-- Free register bytes of a core. -/
def State.freeRegs (s : State) (core : Nat) : Nat :=
  524288 - ((s.teamsOn core).map (fun t => shapeRegs (s.shapeOf t))).foldl (· + ·) 0

/-- R371: can a core take a team of a launch's shape? -/
def State.coreFits (s : State) (w : List Word) (asid core : Nat) : Bool :=
  let ts := s.teamsOn core
  s.inService core && shapeGroups w ≤ (s.freeSlots core).length && shapeRegs w ≤ s.freeRegs core
    && shapeScratch w + (ts.map (fun t => t.alloc)).foldl (· + ·) 0 ≤ 327680
    && !(shapeTiles w && ts.any (fun t => t.tiles)) && ts.all (fun t => t.asid == asid)

/-- Insert a core by its free register bytes, then its index. -/
def State.insertCore (s : State) (c : Nat) : List Nat → List Nat
  | [] => [c]
  | d :: r =>
    if s.freeRegs c < s.freeRegs d || (s.freeRegs c = s.freeRegs d && c < d) then c :: d :: r else d :: s.insertCore c r

/-- R371, R142: the cores of a die that take a block, in rank order; none where the die cannot. -/
def State.coresFor (s : State) (w : List Word) (asid die : Nat) : Option (List Nat) :=
  let ok := ((coresOf die).filter (s.coreFits w asid)).foldl (fun l c => s.insertCore c l) []
  if ok.length < shapeCluster w then none else some ((ok.take (shapeCluster w)).foldl insertNat [])

/-- Does a running MERGE or SPLIT keep a die from taking blocks (R406)? -/
def State.dieHeld (s : State) (die : Nat) : Bool :=
  match s.pkg.quiesce with
  | some q => q.dies.contains die
  | none => false

/-- R371: the dies of a partition in rotation. -/
def State.rotation (s : State) (part : Nat) : List Nat :=
  let ds := (s.diesOf part).filter (fun d => !(s.dieHeld d))
  let from_ := s.work.rotate.getD part 0
  ds.filter (fun d => from_ ≤ d) ++ ds.filter (fun d => d < from_)

/-- The die and cores that take a block of a launch now. -/
def State.fit (s : State) (l : Launch) : Option (Nat × List Nat) :=
  (s.rotation l.part).findSome? (fun d => (s.coresFor l.cmd l.asid d).map (fun cs => (d, cs)))

/-! ## The stream of an issuer (R366) -/

/-- The key of an issuer's stream: its team's, or its distaff thread's above them. -/
def Cmd.stream (c : Cmd) : Nat := if isGroupKey c.agent then c.team else 2 ^ 64 + c.agent

/-- R368: a launch that an arm has fired carries its payload's address and its port. -/
def Cmd.fired (c : Cmd) : Bool := c.q == 6 && !c.recs.isEmpty

/-- R366: is a command the next that its issuer's stream takes? A fired launch stands in no stream. -/
def State.streamHead (s : State) (c : Cmd) : Bool :=
  c.fired || !(s.svc.cmds.any (fun d => d.id < c.id && d.q == 6 && !d.fired && c.sameIssuer d && s.untaken d))

/-- The partition of the issuer's core, as partitions are now. -/
def State.issuerPart (s : State) (c : Cmd) : Nat :=
  (if c.mid < 192 then s.partOfDie (dieOf c.mid) else s.partOfDistaff (c.mid - 192)).getD c.part

/-- SETDET, R366, R377: the default of the stream for the launches it takes later. -/
def execSetdet (cmd : Nat) (s : State) : Out :=
  s.onCmd cmd 0x51 (fun c => c.q = 6 && c.st = .queued && s.streamHead c) (fun s c =>
    let s := { s with work := { s.work with streams := s.work.streams.put c.stream (bitsAt (c.w 0) 35 2) } }
    s.putCmd (c.finish []))

/-- Word 0 of a launch's status record (Table 17.2). -/
def Cmd.launchStatus (c : Cmd) (st : Nat) : Word := BitVec.ofNat 64 (st * 2 ^ 60 + c.seq)

/-- A launch is refused: its status record is left to write (R365). -/
def State.refuseLaunch (s : State) (c : Cmd) (st : Nat) : State := s.putCmd (c.finish [c.launchStatus st])

/-- The dispatcher reads for a command: `st` is the refusal that an unreadable place gives; a fault stops the command. -/
def State.dispatchRead (s : State) (c : Cmd) (st va n : Nat) (f : State → List Nat → State) : State :=
  match s.engRead c.space 646 va n with
  | .busy q => s.await q
  | .fault s cause reason va =>
    if parks cause reason then s.parkCmd { c with status := st } cause reason 0 va else s.refuseLaunch c st
  | .ok s bs => if refused bs || poisonedIn bs then s.refuseLaunch c st else f s (plainBytes bs)

/-- START_CONDITION_POLL, R367: the read of the start-condition word; the launch is taken once it is at least `STCV`. -/
def execStartConditionPoll (cmd : Nat) (s : State) : Out :=
  s.onCmd cmd 0x50
    (fun c => c.q = 6 && c.st = .queued && !c.started && !c.fired && c.w 2 ≠ 0 && s.streamHead c)
    (fun s c => s.dispatchRead c 6 (c.w 2).toNat 8 (fun s bs =>
      if bitsAt (c.w 7) 0 32 ≤ ofBytes bs then s.putCmd { c with started := true, status := 0 } else s))

/-! ## Taking a launch (R365, R368 to R370, R199) -/

/-- The header of a kernel image, as bytes (Table 9.12): does it break Table 9.11, `MAGIC`, `VER` or R143? A name has at most 63 bytes, and
roles belong to slots below `GROUPS`. -/
def imageBad (h : List Nat) : Bool :=
  let wc := field h 6 1
  let nvr := field h 7 1
  let g := field h 8 1
  let scr := field h 12 4
  field h 0 4 ≠ 0x314B5A49 || field h 4 2 ≠ 1 || 2 < wc || nvr = 0 || 15 < nvr || g = 0 || 32 < g
    || field h 9 1 = 0 || 12 < field h 9 1 || 327680 < scr || scr % 128 ≠ 0 || field h 127 1 ≠ 0
    || 4 ^ g ≤ field h 16 8 || 524288 < g * (16 * 2 ^ wc) * (8 * nvr) * 4

/-- Does the header differ from the command? -/
def imageDiffers (w : List Word) (h : List Nat) : Bool :=
  field h 6 1 ≠ shapeWcode w || 8 * field h 7 1 ≠ shapeNvr w || field h 8 1 ≠ shapeGroups w || field h 9 1 ≠ shapeCluster w
    || field h 12 4 ≠ shapeScratch w || field h 16 8 ≠ (nth w 3 0).toNat

/-- An entry of a process-group table (Table 17.3). -/
structure PgEntry where
  node : Nat
  pkg : Nat
  pad : Nat
  links : List Nat
  bfirst : Nat
  bcnt : Nat
  deriving DecidableEq, Repr

/-- Read an entry from its bytes. -/
def PgEntry.ofBytes (b : List Nat) : PgEntry :=
  ⟨field b 0 2, field b 2 1, field b 3 1, (upto 5).map (fun i => field b (4 + 4 * i) 4), field b 24 4, field b 28 4⟩

/-- Are the shares contiguous from a block on, ending at the grid's end? -/
def sharesFit : Nat → Nat → List PgEntry → Bool
  | first, nblk, [] => first == nblk
  | first, nblk, e :: r => e.bfirst == first && sharesFit (first + e.bcnt) nblk r

/-- Does an entry name a package of a node? -/
def PgEntry.names (e : PgEntry) (node pkg : Nat) : Bool := e.node == node && e.pkg == pkg

/-- This package's node and number (R410). -/
def State.ownNode (s : State) : Nat := bitsAt s.pkg.node 16 10

/-- R369: the rank of this package in a table; none where the table is malformed. -/
def State.rankIn (s : State) (nblk : Nat) (hdr : List Nat) (es : List PgEntry) : Option Nat :=
  let mine (e : PgEntry) : Bool := e.names s.ownNode s.ownPkg
  if field hdr 0 4 ≠ 0x42544750 || (hdr.drop 16).any (· != 0) || field hdr 8 8 ≠ nblk || es.any (fun e => e.pad != 0)
      || (es.map (fun e => (e.node, e.pkg))).eraseDups.length ≠ es.length
      || es.any (fun e => e.links.any (fun k => es.length ≤ k && k != 2 ^ 32 - 1))
      || !(sharesFit 0 nblk es) || (es.filter mine).length ≠ 1 then none
  else placeOf mine es 0

/-- What a launch takes from its process-group table: rank, packages, first block, blocks, and whether a lower rank of this node
has to report first (R378). -/
structure JobShare where
  rank : Nat
  npkg : Nat
  bfirst : Nat
  bcnt : Nat
  ready : Bool
  deriving DecidableEq, Repr

/-- R370: the share of this package. -/
def State.shareIn (s : State) (es : List PgEntry) (k : Nat) : Option JobShare :=
  (es[k]?).map (fun e =>
    ⟨k, es.length, e.bfirst, e.bcnt, !(k != 0 && (match es[k - 1]? with
      | some p => p.node == s.ownNode
      | none => false))⟩)

/-- R369, R370: read the process-group table; with `PGT` = 0 the package runs every block. -/
def State.readJob (s : State) (c : Cmd) (f : State → JobShare → State) : State :=
  let nblk := bitsAt (c.w 7) 32 32
  let pgt := (c.w 5).toNat
  if pgt = 0 then f s ⟨0, 1, 0, nblk, true⟩
  else s.dispatchRead c 4 pgt 64 (fun s hdr =>
    let n := field hdr 4 4
    if n = 0 || 8192 < n then s.refuseLaunch c 4
    else s.dispatchRead c 4 (pgt + 64) (32 * n) (fun s bs =>
      let es := (upto n).map (fun i => PgEntry.ofBytes ((bs.drop (32 * i)).take 32))
      match s.rankIn nblk hdr es with
      | none => s.refuseLaunch c 4
      | some k => match s.shareIn es k with
        | none => s.refuseLaunch c 4
        | some j => f s j))

/-- The level of a launch that is taken now (R377). -/
def State.takenLevel (s : State) (c : Cmd) : Nat :=
  if bitsAt (c.w 0) 35 2 = 3 then s.work.streams.getD c.stream 0 else bitsAt (c.w 0) 35 2

/-- The record of a launch. -/
def State.newLaunch (s : State) (c : Cmd) (h : List Nat) (j : JobShare) : Launch :=
  { cmd := c.words, stream := c.stream, part := s.issuerPart c, root := c.root ||| 1, asid := c.asid,
    priv := (c.w 0).getLsbD 34, rm := bitsAt (c.w 0) 41 3, det := s.takenLevel c, st := .running, img := (c.w 1).toNat,
    codeOff := field h 24 4, trapOff := field h 32 4, regOff := field h 36 4, regCnt := field h 40 4, rank := j.rank,
    npkg := j.npkg, bfirst := j.bfirst, bcnt := j.bcnt, bnext := j.bfirst, ended := [], killed := false, team := c.team,
    agent := c.agent, payload := c.recs.head?, rankReady := j.ready }

/-- R365: the checks of a launch in their order, and its acceptance. -/
def State.takeLaunch (s : State) (c : Cmd) : State :=
  let w := c.words
  if shapeBad w || !((s.diesOf (s.issuerPart c)).any (fun d =>
      shapeCluster w ≤ ((coresOf d).filter s.inService).length)) then s.refuseLaunch c 1
  else s.dispatchRead c 2 (c.w 1).toNat 128 (fun s h =>
    if imageBad h then s.refuseLaunch c 2
    else if imageDiffers w h then s.refuseLaunch c 3
    else s.readJob c (fun s j =>
      if j.bcnt = 0 then s.refuseLaunch c 0
      else
        let s := { s with work := { s.work with launches := s.work.launches.put c.seq (s.newLaunch c h j) } }
        s.putCmd { c with st := .running, started := true, status := 0 }))

/-- R368: the network engine writes the payload's address into the argument block, before the launch is taken. -/
def State.writeArgs (s : State) (c : Cmd) : State :=
  let mid := 648 + (nth c.recs 1 0).toNat
  match s.engWrite c.space mid (c.w 4).toNat (toBytes (nth c.recs 0 0).toNat 8) with
  | .ok s _ => s.putCmd { c with prog := 1 }
  | .busy q => s.await q
  | .fault s cause reason va =>
    if parks cause reason then s.parkCmd c cause reason 1 va
    else match s.lost c cause reason 1 va 0 with
      | some s => s.putCmd { c with prog := 1 }
      | none => s

/-- LAUNCH_COMMAND, R365 to R368: the dispatcher takes a launch whose turn in its stream has come and whose start condition
holds. -/
def execLaunchCommand (cmd : Nat) (s : State) : Out :=
  s.onCmd cmd 0x50 (fun c => c.q = 6 && c.st = .queued && s.streamHead c) (fun s c =>
    if c.fired && c.prog = 0 then s.writeArgs c
    else if !c.fired && c.w 2 ≠ 0 && !c.started then s
    else s.takeLaunch c)

/-! ## Placement -/

/-- The lanes of a launch's base mask (Table 17.1). -/
def baseMask (w : List Word) : Mask :=
  let n := bitsAt (nth w 0 0) 0 6
  BitVec.ofNat 64 (2 ^ (if n = 0 then 16 * 2 ^ shapeWcode w else n) - 1)

/-- Table 7.1: a group as it is first made resident. -/
def Launch.group (l : Launch) (id : Ident) : Thread :=
  let base := baseMask l.cmd
  let regs := ((((Regs.zero.setS 0 (nth l.cmd 4 0)).setS 1 (BitVec.ofNat 64 id.block)).setS 2 (BitVec.ofNat 64 id.gnum)).setS
    3 (BitVec.ofNat 64 id.crank)).setM 0 base
  { Thread.vacant with
    status := .running, ident := id, priv := l.priv, regs := regs, rm := l.rm, xltRoot := l.root,
    xltAsid := BitVec.ofNat 64 l.asid, pstack := [(base, base)], fetch := ⟨BitVec.ofNat 64 (l.img + l.codeOff), 0, []⟩ }

/-- A team as it is first made resident. -/
def Launch.newTeam (l : Launch) (lnum block core rank : Nat) : Team :=
  { Team.none with
    core := core, lnum := lnum, block := block, rank := rank, groups := shapeGroups l.cmd, alloc := shapeScratch l.cmd,
    cluster := shapeCluster l.cmd, asid := l.asid, resident := true, tiles := shapeTiles l.cmd }

/-- The identity of a group. -/
def Launch.ident (l : Launch) (lnum block team core slot gnum rank : Nat) : Ident :=
  ⟨core, slot, team, lnum, block, gnum, rank, shapeWcode l.cmd, shapeNvr l.cmd, shapeRole l.cmd gnum⟩

/-- Make one team of a block resident on a core. -/
def State.placeTeam (s : State) (l : Launch) (lnum block rank core : Nat) : State :=
  let team := s.work.teamNext
  let slots := s.freeSlots core
  let s := { s with work := { s.work with
    teams := s.work.teams.put team (l.newTeam lnum block core rank), teamNext := team + 1 } }
  (upto (shapeGroups l.cmd)).foldl (fun (s : State) g =>
    let sl := nth slots g 0
    let k := groupKey core sl
    (s.putThread k (l.group (l.ident lnum block team core sl g rank))).acquire k 2) s

/-- Record the die that took a block (R371). -/
def State.rotate (s : State) (part die : Nat) : State :=
  { s with work := { s.work with rotate := s.work.rotate.put part (die + 1) } }

/-- Place the next block of a launch on the cores of a die. -/
def State.placeBlock (s : State) (lnum : Nat) (l : Launch) (die : Nat) (cores : List Nat) : State :=
  let b := l.bnext
  let first := s.work.teamNext
  let s := ((upto cores.length).zip cores).foldl (fun (s : State) p => s.placeTeam l lnum b p.1 p.2) s
  let blk : Block := ⟨lnum, b, die, (upto cores.length).map (fun i => first + i), .resident, false, 0, none, none⟩
  ({ s with work := { s.work with blocks := s.work.blocks ++ [blk] } }.mapLaunch lnum
    (fun l => { l with bnext := b + 1 })).rotate l.part die

/-- The saved blocks of a launch, by index. -/
def State.savedBlocks (s : State) (lnum : Nat) : List Nat :=
  ((s.work.blocks.filter (fun b => b.lnum == lnum && b.st = .saved)).map (·.index)).foldl insertNat []

/-- Has a launch a block to make resident? -/
def State.waits (s : State) (lnum : Nat) (l : Launch) : Bool :=
  !l.killed && (!(s.savedBlocks lnum).isEmpty || l.bnext < l.bfirst + l.bcnt)

/-- R372: does launch `a` come before launch `b`? -/
def outranks (a b : Nat × Launch) : Bool :=
  shapePrio b.2.cmd < shapePrio a.2.cmd || (shapePrio a.2.cmd = shapePrio b.2.cmd && a.1 < b.1)

/-- R372: is it a launch's turn: it has work, and none before it has work that fits? -/
def State.launchTurn (s : State) (lnum : Nat) (l : Launch) : Bool :=
  s.waits lnum l
    && !(s.work.launches.any (fun p => outranks p (lnum, l) && s.waits p.1 p.2 && (s.fit p.2).isSome))

/-- BLOCK_PLACEMENT, R371, R372, R163: the next block of a launch is made resident; saved blocks come first. -/
def execBlockPlacement (lnum : Nat) (s : State) : Out :=
  .next (match s.launch? lnum with
    | none => s
    | some l =>
      if !(s.launchTurn lnum l) || !(s.savedBlocks lnum).isEmpty then s
      else match s.fit l with
        | none => s
        | some (die, cores) => s.placeBlock lnum l die cores)

/-! ## The end of a launch -/

/-- The command of a launch. -/
def State.launchCmd (s : State) (lnum : Nat) : Option Cmd :=
  s.svc.cmds.find? (fun c => c.q == 6 && c.code == 0x50 && c.seq == lnum && !c.ended)

/-- R365, R140, R74, R380: every block has ended. The launch's passes, shares, cursors and registrations go, and its status
record is left to write. -/
def State.completeLaunch (s : State) (lnum : Nat) : State :=
  match s.launch? lnum with
  | none => s
  | some l =>
    let s := s.endPasses lnum
    let s := { s with
      svc := { s.svc with cursors := s.svc.cursors.filter (fun p => p.2.lnum != lnum) },
      mem := { s.mem with races := s.mem.races.filter (fun e => e.lnum != lnum) },
      work := { s.work with
        teams := s.work.teams.filter (fun p => p.2.lnum != lnum),
        blocks := s.work.blocks.filter (fun b => b.lnum != lnum),
        saved := s.work.saved.filter (fun p => p.2.thread.ident.lnum != lnum),
        launches := s.work.launches.del lnum } }
    match s.launchCmd lnum with
    | some c => s.putCmd (c.finish [c.launchStatus (if l.killed then 5 else 0)])
    | none => s

/-- Complete a launch that has no block left. -/
def State.settleLaunch (s : State) (lnum : Nat) : State :=
  match s.launch? lnum with
  | none => s
  | some l =>
    if l.bfirst + l.bcnt ≤ l.bnext && !(s.work.blocks.any (fun b => b.lnum == lnum && b.st ≠ .ended)) then s.completeLaunch lnum
    else s

/-! ## The end of a block -/

/-- The threads of a block's groups. -/
def State.groupsOf (s : State) (lnum block : Nat) : List (Nat × Thread) :=
  s.work.threads.filter (fun p => p.2.kind = .group && p.2.status ≠ .vacant && p.2.ident.lnum == lnum && p.2.ident.block == block)

/-- Has an agent accesses that are not performed or have not landed, matrix operations, replay entries, reservations, or a trap that
is still to be reported? -/
def State.busyAgent (s : State) (k : Nat) : Bool :=
  s.unperformed k || s.coreOut k || s.mem.resv.any (fun r => r.agent == k)
    || !((s.thread k).producers.isEmpty && (s.thread k).later.isEmpty)

/-- R217: have the teams of a block ended: their groups, the commands they pushed, and their stores? A launch command counts as
completed (R366). -/
def State.teamsOver (s : State) (b : Block) : Bool :=
  (s.groupsOf b.lnum b.index).all (fun p => p.2.status = .ended && !(s.busyAgent p.1))
    && !(s.svc.cmds.any (fun c => isGroupKey c.agent && b.teams.contains c.team && !(c.q == 6 && c.code == 0x50)))

/-- The cores of a block. -/
def State.blockCores (s : State) (b : Block) : List Nat := b.teams.map (fun k => (s.team k).core)

/-- A core's slot is vacant again. -/
def Core.vacate (c : Core) (slot : Nat) : Core :=
  { c with
    active := eraseNat c.active slot, queue := eraseNat c.queue slot, permits := eraseNat c.permits slot, stale := eraseNat c.stale slot,
    withheld := c.withheld.del slot, scores := c.scores.del slot, victims := c.victims.filter (fun v => v.2 != slot),
    dbgStop := if c.dbgStop.testBit slot then c.dbgStop - 2 ^ slot else c.dbgStop }

/-- A block leaves its cores. -/
def State.vacate (s : State) (b : Block) : State :=
  let gs := s.groupsOf b.lnum b.index
  let s := gs.foldl (fun (s : State) p => s.mapCore p.2.ident.core (fun c => c.vacate p.2.ident.slot)) s
  let s := s.setThreads (s.work.threads.filter (fun p => !(gs.any (fun g => g.1 == p.1))))
  b.teams.foldl (fun (s : State) k => s.mapTeam k (fun t => { t with resident := false, recSlots := [] })) s

/-- BLOCK_END, R371, R217: a block whose teams have ended and whose end flush is made frees its cores. -/
def execBlockEnd (lnum block : Nat) (s : State) : Out :=
  .next (match s.block? lnum block, s.launch? lnum with
    | some b, some l =>
      if !(b.st = .resident || b.st = .stopping) || !(s.teamsOver b) || (l.det != 0 && !b.flushed)
          || (b.raced.isSome && !l.killed) then s
      else
        let s := (s.vacate b).mapBlock lnum block (fun b => { b with st := .ended })
        (s.mapLaunch lnum (fun l => { l with ended := insertNat l.ended block })).settleLaunch lnum
    | _, _ => s)

/-! ## Killing a launch (R398) -/

/-- A thread whose group has ended without landing its producers. -/
def Thread.killed (t : Thread) : Thread :=
  { t with status := .ended, producers := [], park := none, later := [], wait := .none, tx := Trans.none }

/-- A transaction that a kill or a save stops: words that its commit has begun to write are all written (R348); otherwise its
reservations go and its lines unlock. -/
def State.stopCommit (s : State) (k : Nat) : State :=
  let t := s.thread k
  let mine := s.mem.resv.filter (fun r => r.agent == k)
  let lines := (s.mem.sigs.filter (fun e => e.agent == k)).map (·.line)
  let s := match t.wait with
    | .commit _ _ c _ =>
      if mine.any (fun r => r.write) then lines.foldl (fun (s : State) l => s.commitLine k c l) s else s
    | _ => s
  let homes := lines.map (fun l => (s.txHome t.tx l).1)
  let locked := s.mem.locked.filter (fun l =>
    !(homes.contains l && mine.any (fun r => r.head && r.slice == s.sliceOf (128 * l))))
  { s with mem := { s.mem with resv := s.mem.resv.filter (fun r => r.agent != k), locked := locked } }

/-- One group of a killed launch ends. -/
def State.killGroup (s : State) (k : Nat) : State :=
  let s := (s.stopCommit k).releaseLock k
  let s := (s.dropSigs k).dropFaults k
  let c := (s.thread k).ident.core
  (s.mapCore c (fun x => { x with replay := x.replay.filter (fun r => r.agent != k) })).mapThread k Thread.killed

/-- Drop an unstarted command, with the generation it pinned. -/
def State.discardCmd (s : State) (c : Cmd) : State :=
  let s := s.dropCmd c.id
  { s with svc := { s.svc with
      regions := s.svc.regions.map (fun p => (p.1, { p.2 with pins := p.2.pins.filter (fun x => x.1 != c.id) })) } }

/-- R391: kill access for a command that a fault has stopped: its write or increment is dropped (R440), it is refused, or it ends
with status 2. -/
def State.killCmd (s : State) (c : Cmd) : State :=
  if c.ended then
    if c.statusDone then s.putCmd { c.dropIncrement with st := .finishing }
    else (s.doneInterrupts c).putCmd { c with st := .finishing, statusDone := true }
  else if c.q = 5 then s.q5Done c (q5Status 6)
  else if c.q = 6 then
    (if c.fired && c.prog = 0 then s.putCmd { c with st := .queued, prog := 1 } else s.refuseLaunch c c.status)
  else if c.q = 7 then s.putCmd (c.finish [2])
  else s.putCmd (c.stop 2)

/-- R391: resume for a command that a fault has stopped. -/
def State.resumeCmd (s : State) (c : Cmd) : State :=
  s.putCmd { c with st := if c.ended then .finishing else if c.total = 0 then .queued else .running }

/-- The commands of a killed launch's teams: those that have not started go, and those that stand at a fault are killed. -/
def State.killCmds (s : State) (teams : List Nat) : State :=
  (s.svc.cmds.filter (fun c => isGroupKey c.agent && teams.contains c.team)).foldl (fun (s : State) c =>
    if (if c.q = 6 then s.untaken c else !c.started) then s.discardCmd c
    else match c.st with
      | .faulted _ => s.killCmd c
      | _ => s) s

/-- R398: kill a launch. -/
def State.killLaunch (s : State) (lnum : Nat) : State :=
  match s.launch? lnum with
  | none => s
  | some _ =>
    let gs := s.work.threads.filter (fun p =>
      p.2.kind = .group && p.2.status ≠ .vacant && p.2.ident.lnum == lnum)
    let s := gs.foldl (fun (s : State) p => s.killGroup p.1) s
    let teams := (s.work.teams.filter (fun p => p.2.lnum == lnum)).map (·.1)
    let s := s.killCmds teams
    let s := { s with svc := { s.svc with
      tokens := s.svc.tokens.filter (fun t => t.lnum != lnum),
      cursors := s.svc.cursors.filter (fun p => p.2.lnum != lnum) } }
    let s := s.endPasses lnum
    let gone := s.savedBlocks lnum
    let s := { s with work := { s.work with
      saved := s.work.saved.filter (fun p => p.2.thread.ident.lnum != lnum),
      blocks := s.work.blocks.map (fun (b : Block) => if b.lnum = lnum then (match b.st with
        | .saved => { b with st := .ended }
        | .stopping => { b with st := .resident }
        | _ => b) else b) } }
    (s.mapLaunch lnum (fun l => { l with
      killed := true, bnext := l.bfirst + l.bcnt, ended := gone.foldl insertNat l.ended })).settleLaunch lnum

/-! ## Ordered flushes (R378, R380, R381) -/

/-- The record of a race that an ordered flush has found (Table 18.4, kind 5). -/
def raceReport (l : Launch) (core lnum race : Nat) : Report := ⟨5, 0x0D, race, core, 0, 1, l.asid, 0, 0, lnum, 0, 0, 0⟩

/-- Flush what a block has staged on each of its cores, under one ticket; and the first race met, with its core (R378, R442). -/
def State.endFlush (s : State) (lnum block lvl : Nat) (cores : List Nat) : State × Option (Nat × Nat) :=
  if lvl ≠ 2 && cores.all (fun c => (s.stagedLines c lnum block).isEmpty) then (s, none)
  else
    let (ticket, s) := s.takeTicket
    let (s, race) := cores.foldl (fun (q : State × Option (Nat × Nat)) c =>
      let (s, r) := q.1.flushLines c lvl (q.1.stagedLines c lnum block) 0
      (s, if q.2.isNone && r ≠ 0 then some (c, r) else q.2)) (s, none)
    (if lvl = 2 then s.retire lnum block ticket else s, race)

/-- R381: a race that an ordered flush of a block has met goes to the handler in a record of kind 5, and the launch ends with `ST` 5. -/
def State.endRaced (s : State) (lnum : Nat) (b : Block) (l : Launch) (race : Option (Nat × Nat)) : State :=
  match race with
  | some (core, r) => if l.killed then s else (s.report l.part b.die (raceReport l core lnum r) (.trap 0)).killLaunch lnum
  | none => s

/-- RACE, R381: a race met by the ordered flush of an eviction is reported. -/
def State.raceTurn (s : State) (lnum block : Nat) : State :=
  match s.block? lnum block, s.launch? lnum with
  | some b, some l =>
    if b.raced.isNone || !(s.recordRoom b.die 1) then s
    else (s.mapBlock lnum block (fun b => { b with raced := none })).endRaced lnum b l b.raced
  | _, _ => s

/-- ORDERED_FLUSH, R378, R442, R381: the end flush of a block whose teams have ended. One without bytes waits for no other block.
A race goes to the handler in a record, and the launch ends with `ST` 5. -/
def execOrderedFlush (lnum block : Nat) (s : State) : Out :=
  .next (match s.block? lnum block, s.launch? lnum with
    | some b, some l =>
      let cores := s.blockCores b
      let lines := cores.flatMap (fun c => s.stagedLines c lnum block)
      if l.det = 0 || b.flushed || !(b.st = .resident || b.st = .stopping) || !(s.teamsOver b) || !(s.flushReady lines)
          || (!lines.isEmpty && !(l.mayFlush block)) || !(s.recordRoom b.die 1) then s
      else
        let q := s.endFlush lnum block l.det cores
        (q.1.mapBlock lnum block (fun b => { b with flushed := true })).endRaced lnum b l q.2
    | _, _ => s)

/-- RANK_END_REPORT, R378: the rank before this one has reported that its last block has ended. -/
def execRankEndReport (lnum : Nat) (s : State) : Out := .next (s.mapLaunch lnum (fun l => { l with rankReady := true }))

end Sys2Proof.Machine
end

