-- ==== Sys2Proof/Machine/FaultService.lean ====
section
/-! DEFINITION. Fault service (spec/18_faults_preemption.md, R388 to R392; spec/13_memory_instructions.md, R275): held records,
answers, and the replay of parked lanes and of replay-queue entries. -/

namespace Sys2Proof.Machine

/-! ## Held records (R390) -/

/-- HELD_RECORD_WRITE, R390: the oldest held record of a die is written once its queue takes it. -/
def execHeldRecordWrite (die : Nat) (s : State) : Out :=
  .next (match s.svc.heldRecs.find? (fun r => r.die == die) with
    | none => s
    | some r =>
      match s.writeRecord r with
      | some s =>
        (match placeOf (fun h : Record => h.die == die) s.svc.heldRecs 0 with
        | some i => { s with svc := { s.svc with heldRecs := dropNth s.svc.heldRecs i } }
        | none => s)
      | none => if s.recordDenied r.part then s.interrupt r.part 0 else s)

/-- Withdraw the tokens of a source (R393): they become stale, and records of them that are held are not written. -/
def State.withdrawTokens (s : State) (p : Token → Bool) : State :=
  let gone := s.svc.tokens.filter p
  let ofGone (r : Record) : Bool := gone.any (fun t => t.part == r.part && t.token == (nth r.words 3 0).toNat % 2 ^ 32)
  { s with svc := { s.svc with
      tokens := s.svc.tokens.filter (fun t => !(p t)), heldRecs := s.svc.heldRecs.filter (fun r => !(ofGone r)) } }

/-! ## Replaying the parked lanes of a word (R392) -/

/-- A failed lane of a trap: lane, cause, reason, address. -/
abbrev Fail : Type := Nat × Nat × Nat × Nat

/-- A parked word has no lane left: it completes by R384, its trap coming when its producer lands; or the producer that a resume
issued again goes on. -/
def State.finishPark (s : State) (k : Nat) (p : Park) : State :=
  s.mapThread k (fun t => { (if p.again then t else t.advance).mapProducer p.prod (fun q =>
    { q with holds := !q.failed.isEmpty }) with status := .running, park := none })

/-- Is a lane named by a record that has no answer? -/
def Park.waits (p : Park) (lane : Nat) : Bool := p.answers.any (fun a => a.2.getLsbD lane)

/-- Lanes of a producer fail before they could be sent (R384). -/
def State.failLanes (s : State) (k prod : Nat) (fs : List Fail) : State :=
  s.mapThread k (fun t => t.mapProducer prod (fun q => { q with left := q.left - fs.length, failed := q.failed ++ fs }))

/-- The lanes of a parked word whose records have been answered with resume translate again and are performed, or are reported
again. -/
def State.replayParked (s : State) (k : Nat) : State :=
  let t := s.thread k
  match t.park with
  | none => s
  | some p =>
    if t.status ≠ .parked || p.fetch then s
    else
      let go := p.reqs.filter (fun q => !(p.waits q.lane))
      let rs := s.resolveAll k go
      if rs.any Resolved.waits then s.startWalks k rs
      else
        let parked := rs.filter Resolved.isParked
        if rs.any ((s.unpolled k p.prod).behindOwn k) || !(s.recordRoom t.die (recordsOf parked)) then s
        else match s.wordFlush k rs with
          | none => s
          | some (s, ticket, race) =>
            let fails := rs.filterMap Resolved.failure
            let s := if race = 0 then s else s.defer k ⟨0x0D, race, 0, t.active, 0, false, none, none⟩
            let s := ((s.settleLooks k rs).failLanes k p.prod fails).sendLanes k p.prod rs ticket
            let (s, answers) := s.reportPages k 1 t.fetch.hdr parked (.word k)
            let p := { p with
              reqs := p.reqs.filter (fun q => p.waits q.lane) ++ parked.map (·.req), answers := p.answers ++ answers }
            if p.reqs.isEmpty then s.finishPark k p else s.mapThread k (fun t => { t with park := some p })

/-- A record of a parked word or fetch is answered with resume (R391, R392). -/
def State.resumeWord (s : State) (k : Nat) (token : Nat) : State :=
  match (s.thread k).park with
  | none => s
  | some p =>
    if p.fetch then s.mapThread k (fun t => { t with status := .running, park := none })
    else (s.mapThread k (fun t => { t with
      park := some { p with answers := p.answers.filter (fun a => a.1 != token) } })).replayParked k

/-- A record of a parked word or fetch is answered with kill access: its lanes fail with the record's cause (R391, R384). -/
def State.killWord (s : State) (k : Nat) (x : Token) : State :=
  match (s.thread k).park with
  | none => s
  | some p =>
    if p.fetch then
      (match p.reqs with
      | q :: _ =>
        let old := s.work.cur
        let s := s.mapThread k (fun t => { t with status := .running, park := none })
        ((failRes (s.setCur k) [(q.lane, x.cause, x.reason, q.va.toNat)]).finish false).setCur old
      | [] =>
        let s := s.mapThread k (fun t => { t with status := .running, park := none })
        let t := s.thread k
        s.trap k ⟨x.cause, x.reason, 0, t.active, t.fetch.hdr, false, t.here⟩)
    else
      let dead := p.reqs.filter (fun q => x.lanes.getLsbD q.lane)
      let q := { p with
        reqs := p.reqs.filter (fun q => !(x.lanes.getLsbD q.lane)), answers := p.answers.filter (fun a => a.1 != x.token) }
      let s := s.failLanes k p.prod (dead.map (fun q => (q.lane, x.cause, x.reason, q.va.toNat)))
      if q.reqs.isEmpty then s.finishPark k q else s.mapThread k (fun t => { t with park := some q })

/-! ## Replaying stores (R275, R389) -/

/-- Change a replay entry of a core. -/
def Core.mapReplay (c : Core) (id : Nat) (f : Replay → Replay) : Core :=
  { c with replay := c.replay.map (fun e => if e.id = id then f e else e) }

/-- Does an earlier entry of the same group hold a page of an entry? -/
def Core.replayBlocked (c : Core) (e : Replay) : Bool :=
  (c.replay.takeWhile (fun d => d.id != e.id)).any (fun d => d.agent == e.agent && d.reqs.any (fun q =>
    e.reqs.any (fun r => q.va.toNat / 4096 == r.va.toNat / 4096)))

/-- Translate a store's lane afresh; a miss walks at once. -/
def State.resolveNow (s : State) (k : Nat) (q : LaneReq) : State × Resolved :=
  let t := s.thread k
  let l := s.lookNow t.space q.op.kind q.va q.size
  match l.1 with
  | .ok pa _ => (l.2, ⟨q, l.1, l.2.target t.mid q.op.kind pa q.size⟩)
  | .fail c r _ => (l.2, ⟨q, l.1, .fail c r⟩)
  | .miss => (l.2, ⟨q, l.1, .miss⟩)

/-- Every lane of an entry, in order. -/
def State.resolveEntry (s : State) (k : Nat) : List LaneReq → List Resolved → State × List Resolved
  | [], rs => (s, rs)
  | q :: qs, rs =>
    let p := s.resolveNow k q
    p.1.resolveEntry k qs (rs ++ [p.2])

/-- R275, R391: an entry all of whose records have been answered replays its lanes; lanes that fault again are reported again, and
the entry leaves when none is left. -/
def State.replayEntry (s : State) (core id : Nat) : State :=
  match (s.core core).replay.find? (fun e => e.id == id) with
  | none => s
  | some e =>
    if !e.answers.isEmpty || (s.core core).replayBlocked e then s
    else
      let k := e.agent
      let (s', rs) := s.resolveEntry k e.reqs []
      let parked := rs.filter Resolved.isParked
      if rs.any Resolved.waits then s'
      else if rs.any (s'.behindOwn k) || !(s'.recordRoom (s.thread k).die (recordsOf parked)) then s
      else
        match s'.wordFlush k rs with
        | none => s
        | some (s, ticket, race) =>
          let s := if race = 0 then s else s.defer k ⟨0x0D, race, 0, (s.thread k).active, 0, false, none, none⟩
          let fails := (rs.filterMap Resolved.failure).foldl insertFail e.killed
          let p := { (s.thread k).producer Form.none [] [] with
            left := (rs.filter Resolved.isGood).length, store := true, inRegion := false, hdr := e.hdr, rsm := none,
            failed := if parked.isEmpty then fails else [] }
          let s := (s.mapThread k (fun t => t.produce p)).sendLanes k p.id rs ticket
          let (s, answers) := s.reportPages k 2 e.hdr parked (.replay core id)
          if parked.isEmpty then s.mapCore core (fun c => { c with replay := c.replay.filter (fun d => d.id != id) })
          else s.mapCore core (fun c => c.mapReplay id (fun e =>
            { e with reqs := parked.map (·.req), answers := answers, killed := fails }))

/-- Replay what can be replayed on a core, in the queue's order. -/
def State.replayCore (s : State) (core : Nat) : State :=
  ((s.core core).replay.map (·.id)).foldl (fun s id => s.replayEntry core id) s

/-- A record of a replay entry is answered: its lanes replay, or fail with the record's cause. -/
def State.answerReplay (s : State) (core id : Nat) (x : Token) (kill : Bool) : State :=
  let drop (e : Replay) : Replay :=
    let e := { e with answers := e.answers.filter (fun a => a.1 != x.token) }
    if kill then
      { e with
        reqs := e.reqs.filter (fun q => !(x.lanes.getLsbD q.lane)),
        killed := ((e.reqs.filter (fun q => x.lanes.getLsbD q.lane)).map
          (fun q => (q.lane, x.cause, x.reason, q.va.toNat))).foldl insertFail e.killed }
    else e
  (s.mapCore core (fun c => c.mapReplay id drop)).replayCore core

/-- What an ended group still has to say: a trap of it is reported in a record of kind 4, of lanes of its stores whose records were killed
(R391) or, as log entry 40 says, of any other. -/
def State.reportEnded (s : State) (k : Nat) : State :=
  let t := s.thread k
  match t.later with
  | [] => s
  | l :: rest =>
    if t.status ≠ .ended || !(s.holdRoom t.die) then s
    else
      let rsm := l.rsm.getD t.here
      (s.mapThread k (fun t => { t with later := rest })).report (s.ownerPart t) t.die
        ⟨4, l.cause, l.reason, t.mid, t.ident.slot, 0, bitsAt t.xltAsid 0 16, 0, l.lanes, t.ident.lnum,
          TrapInfo.tcs ⟨l.cause, l.reason, l.code, l.lanes, l.va, l.more, rsm⟩, l.hdr.getD t.fetch.hdr, rsm⟩ (.trap k)

/-! ## Answers (R391) -/

/-- The command that a token names, where it still stands at that fault. -/
def State.faultedCmd (s : State) (id token : Nat) : Option Cmd :=
  match s.cmd? id with
  | some c => if c.st = .faulted token then some c else none
  | none => none

/-- R391, kind 4: the group resumes at the record's `RSM`, in trap mode or out of it as it stood. -/
def State.resumeTrap (s : State) (k : Nat) (rsm : Word) : State :=
  let t := s.thread k
  if t.status = .parked && t.park.isNone then
    s.putThread k { t with status := .running, fetch := ⟨BitVec.ofNat 64 (bitsAt rsm 0 56), bitsAt rsm 60 4, []⟩ }
  else s

/-- Change a page of a PME's store. -/
def State.mapPage (s : State) (die pix page token : Nat) (f : PageImg → PageImg) : State :=
  s.mapPme die (fun m => { m with store := m.store.map (fun g =>
    if g.pass = pix && g.page = page && g.token = some token then f g else g) })

/-- Change, or drop, the message of a port that a fault of its receive ring has stopped (R413). -/
def State.mapMail (s : State) (port token : Nat) (f : Mail → Option Mail) : State :=
  { s with svc := { s.svc with portWait := s.svc.portWait.filterMap (fun m =>
      if m.port = port && m.token = some token then f m else some m) } }

/-- Resume. -/
def State.answerResume (s : State) (x : Token) : State :=
  match x.src with
  | .word k => s.resumeWord k x.token
  | .replay core id => if x.kind = 2 then s.answerReplay core id x false else s
  | .engine id => match s.faultedCmd id x.token with
    | some c => s.resumeCmd c
    | none => s
  | .trap k => s.resumeTrap k x.rsm
  | .page die pix page => s.mapPage die pix page x.token (fun g => { g with token := none })
  | .port port => s.mapMail port x.token (fun m => some { m with token := none })

/-- Kill access. A killed page is delivered as zeros (R141). -/
def State.answerKill (s : State) (x : Token) : State :=
  match x.src with
  | .word k => s.killWord k x
  | .replay core id => s.answerReplay core id x true
  | .engine id => match s.faultedCmd id x.token with
    | some c => s.killCmd c
    | none => s
  | .trap _ => s
  | .page die pix page => s.mapPage die pix page x.token (fun g => { g with token := none, zero := true, unusable := true })
  | .port port => s.mapMail port x.token (fun _ => none)

/-- Has the record of a token been written? A held one is no record the handler has seen (R390). -/
def State.recordWritten (s : State) (x : Token) : Bool :=
  !(s.svc.heldRecs.any (fun r => r.part == x.part && (nth r.words 3 0).toNat % 2 ^ 32 == x.token))

/-- Kill launch (R398); none where the record names no launch. The launch of a command that has not been taken, or that has only its status
left to write, ends with its command (log entry 47). -/
def State.answerKillLaunch (s : State) (x : Token) : Option State :=
  if (s.launch? x.lnum).isSome then some (s.killLaunch x.lnum)
  else match x.src with
    | .engine id => match s.faultedCmd id x.token with
      | some c =>
        if !c.isLaunch then none
        else some (if c.ended then s.killCmd c else s.putCmd (c.finish [c.launchStatus 5]))
      | none => none
    | _ => none

/-- R391: answer a token of a partition; the result is `FRQ.RESP.ST`. -/
def State.answer (s : State) (part act token : Nat) : State × Nat :=
  if act = 3 || token = 0 then (s, 2)
  else match s.svc.tokens.find? (fun x => x.part == part && x.token == token) with
    | none => (s, 1)
    | some x =>
      if !(s.recordWritten x) then (s, 1)
      else
        let t := { s with svc := { s.svc with tokens := s.svc.tokens.filter (fun y => !(y == x)) } }
        match act, x.kind with
        | 0, _ => (t.answerResume x, 0)
        | 1, 4 => (s, 2)
        | 1, _ => (t.answerKill x, 0)
        | _, _ => match t.answerKillLaunch x with
          | some u => (u, 0)
          | none => (s, 2)

/-- A write of `FRQ.RESP` by the current thread (Table 18.3). -/
def State.respond (s : State) (v : Word) : State :=
  let k := s.work.cur
  match s.partOfThread (s.thread k) with
  | none => s.mapThread k (fun t => { t with res := { t.res with frqSt := 1 } })
  | some part =>
    let (s, st) := s.answer part (bitsAt v 62 2) (bitsAt v 0 32)
    s.mapThread k (fun t => { t with res := { t.res with frqSt := st } })

/-- A privileged write of `FRQ.RESP` with one action. -/
def State.respondAs (s : State) (act : Nat) (v : Word) : State :=
  if s.th.priv && bitsAt v 62 2 = act then s.respond v else s

/-- FRQ_RESP_RESUME, R391. -/
def execFrqRespResume (value : BitVec 64) (s : State) : Out := .next (s.respondAs 0 value)

/-- FRQ_RESP_KILL_ACCESS, R391. -/
def execFrqRespKillAccess (value : BitVec 64) (s : State) : Out := .next (s.respondAs 1 value)

/-- FRQ_RESP_KILL_LAUNCH, R391, R398. -/
def execFrqRespKillLaunch (value : BitVec 64) (s : State) : Out := .next (s.respondAs 2 value)

end Sys2Proof.Machine
end

