-- ==== Sys2Proof/Machine/Preempt.lean ====
section
/-! DEFINITION. Pre-emption, save and resume of blocks (spec/18_faults_preemption.md, R393 to R397, R441;
spec/17_launch_scheduling.md, R372; spec/07_execution_model.md, R152, R163). -/

namespace Sys2Proof.Machine

/-! ## Who is pre-empted (R372, R163) -/

/-- R395: bytes that the save of a block reserves. -/
def saveSize (w : List Word) : Nat :=
  shapeCluster w * (shapeScratch w + shapeRegs w + shapeGroups w * 8192 + (if shapeTiles w then 196608 else 0) + 4096)

/-- Bytes of a partition's save pool that are reserved: by blocks that are stopping or saved. -/
def State.poolUsed (s : State) (part : Nat) : Nat :=
  ((s.work.blocks.filter (fun b => b.st = .stopping || b.st = .saved)).map (fun b => match s.launch? b.lnum with
    | some l => if l.part = part then saveSize l.cmd else 0
    | none => 0)).foldl (· + ·) 0

/-- R395: has a partition's pool room for a block of a launch? -/
def State.poolRoom (s : State) (l : Launch) : Bool :=
  s.poolUsed l.part + saveSize l.cmd ≤ (s.pkg.svLen.getD l.part 0).toNat

/-- Is block `a` of launch `la` taken before block `b` of launch `lb` (R372)? -/
def takenFirst (a : Block) (la : Launch) (b : Block) (lb : Launch) : Bool :=
  shapePrio la.cmd < shapePrio lb.cmd || (shapePrio la.cmd = shapePrio lb.cmd &&
    (b.lnum < a.lnum || (a.lnum = b.lnum && b.index < a.index)))

/-- May a launch that waits take a resident block: one of a launch of lower priority in its partition; or, for a saved block that
only higher-indexed blocks of its own launch keep out, one of these (R163)? -/
def State.mayTake (s : State) (lnum : Nat) (l : Launch) (b : Block) : Bool :=
  match s.launch? b.lnum with
  | none => false
  | some lb =>
    b.st = .resident && lb.part = l.part && (shapePrio lb.cmd < shapePrio l.cmd
      || (b.lnum = lnum && (match s.savedBlocks lnum with
        | i :: _ => i < b.index
        | [] => false)))

/-- The block that a launch takes first. -/
def State.victimFor (s : State) (lnum : Nat) (l : Launch) : Option Block :=
  (s.work.blocks.filter (s.mayTake lnum l)).foldl (fun (o : Option Block) b =>
    match o with
    | none => some b
    | some a => match s.launch? a.lnum, s.launch? b.lnum with
      | some la, some lb => if takenFirst b lb a la then some b else some a
      | _, _ => some a) none

/-- R372, R395: does a launch whose next block finds no fit want this block now? One block of a partition stops at a time. -/
def State.wanted (s : State) (b : Block) : Bool :=
  match s.launch? b.lnum with
  | none => false
  | some lb =>
    s.poolRoom lb
      && !(s.work.blocks.any (fun c => c.st = .stopping && (match s.launch? c.lnum with
        | some lc => lc.part == lb.part
        | none => false)))
      && s.work.launches.any (fun p => s.waits p.1 p.2 && (s.fit p.2).isNone && s.victimFor p.1 p.2 == some b)

/-! ## Stopping (R393, R394) -/

/-- Stop a group that is not in a gap; one whose commit holds a ticket goes on until it is complete. -/
def Thread.stopNow (t : Thread) : Thread :=
  if t.status = .running && !t.gap && !t.committing then { t with status := .halted } else t

/-- A group in a gap stops at a wait of R161. -/
def Thread.stopAtWait (t : Thread) : Thread :=
  if t.status = .running && (!t.gap || t.stuck) && !t.committing then { t with status := .halted } else t

/-- Change the groups of a block. -/
def State.mapGroups (s : State) (b : Block) (f : Thread → Thread) : State :=
  (s.groupsOf b.lnum b.index).foldl (fun (s : State) p => s.mapThread p.1 f) s

/-- Has every group of a block stopped? -/
def State.allStopped (s : State) (b : Block) : Bool :=
  (s.groupsOf b.lnum b.index).all (fun p => p.2.status = .halted || p.2.status = .parked || p.2.status = .ended)

/-- STOP_LIMIT, R394: 65,536 clocks after the request a group in a gap stops at its next word boundary. -/
def execStopLimit (agent : Nat) (s : State) : Out :=
  .next (
    let t := s.thread agent
    match s.block? t.ident.lnum t.ident.block with
    | some b =>
      if isGroupKey agent && b.st = .stopping && t.status = .running && !t.committing then
        s.putThread agent { t with status := .halted }
      else s
    | none => s)

/-- A group of a stopping block that reaches REGION stops as at that region's entry (R394). -/
def Thread.stopAtRegion (t : Thread) (n : Nat) : Thread :=
  { t with
    status := .halted, region := some n, gap := false,
    producers := t.producers.map (fun p => { p with inRegion := false }) }

/-! ## Settling (R393, R441) -/

/-- The key of a saved group. -/
def savedKey (t : Thread) : Nat := t.ident.team * 32 + t.ident.gnum

/-- Step 2: the waits of a stopped group but those at a barrier are withdrawn, with its gang's operation in the latch, its offer
of VXCH and its fallback lock. A commit that holds a ticket completes (R355). -/
def State.dropWait (s : State) (k : Nat) : State :=
  (s.releaseLock k).mapThread k (fun t => { t with wait := match t.wait with
    | .barrier b p o => .barrier b p o
    | .commit n sl c bad => if n = 0 then .none else .commit n sl c bad
    | _ => .none })

/-- Step 3: the records of a group's parked word or fetch, or of its unhandled trap, are withdrawn, and its replay entries are taken out of
its core's queue, to be saved with it, and their records are withdrawn. -/
def State.withdrawGroup (s : State) (k : Nat) : State :=
  let t := s.thread k
  let core := t.ident.core
  let mine := (s.core core).replay.filter (fun e => e.agent == k)
  let s := s.withdrawTokens (fun x => match x.src with
    | .word a => a == k
    | .trap a => a == k
    | .replay c id => c == core && mine.any (fun e => e.id == id)
    | _ => false)
  if mine.isEmpty then s
  else
    let s := s.mapCore core (fun c => { c with replay := c.replay.filter (fun e => e.agent != k) })
    let old := match s.work.saved.find (savedKey t) with
      | some g => g.replay
      | none => []
    let g : SavedGroup := ⟨t, true, old ++ mine.map (fun e => { e with answers := [] })⟩
    { s with work := { s.work with saved := s.work.saved.put (savedKey t) g } }

/-- R441: is a producer held for re-issue: a polling load or SWAITGE, or a take that the merge unit has not performed? -/
def Producer.held (p : Producer) : Bool :=
  !p.reqs.isEmpty || (match p.await with
    | .take _ _ _ => true
    | _ => false)

/-- R152: is a producer cancelled with the current region? Stores land. -/
def Thread.cancels (t : Thread) (p : Producer) : Bool := !t.gap && p.inRegion && !p.store

/-- Is a producer of a parked word, which is issued afresh? -/
def Thread.parkedProducer (t : Thread) (p : Producer) : Bool :=
  match t.park with
  | some k => !k.fetch && k.prod == p.id && !k.again
  | none => false

/-- Is a stopped group settled: nothing of it on its way, and every producer landed, cancelled or held? -/
def State.groupSettled (s : State) (k : Nat) : Bool :=
  let t := s.thread k
  let mine (a : Access) : Bool := a.agent == k
  let msg (m : Msg) : Bool := match m.acc with
    | some a => mine a
    | none => false
  !(s.mem.pend.any mine) && !(s.mem.net.any msg)
    && !(s.mem.dir.any (fun d => match d.2.req with
      | some m => msg m
      | none => false))
    && !(s.mem.resv.any (fun r => r.agent == k))
    && !((s.core t.ident.core).mxq.any (fun j => j.members.contains k))
    && !((s.core t.ident.core).windows.any (fun w => w.reqs.any mine)) && !((s.core t.ident.core).rqcWait.any mine)
    && t.producers.all (fun p => t.cancels p || p.held || t.parkedProducer p)

/-- Step 4: has every command that a block's teams pushed to q0 to q4 completed? -/
def State.queuesDrained (s : State) (b : Block) : Bool :=
  !(s.svc.cmds.any (fun c => c.q ≤ 4 && isGroupKey c.agent && b.teams.contains c.team))

/-! ## Saving (R394, Table 18.5) -/

/-- Where a saved group restarts, with which registers and predicate stack; none of a group saved whole. -/
structure Restart where
  hdr : Word
  regs : Regs
  pstack : List (Mask × Mask)
  deriving DecidableEq, Repr

/-- The registers that a region-table entry lists (Table 9.13); the others are zero and full. -/
def Regs.liveIns (r : Regs) (lmask lvec lsca : Nat) : Regs :=
  { sreg := r.sreg.filter (fun p => lsca.testBit p.1), vreg := r.vreg.filter (fun p => lvec.testBit (p.1 / 64)),
    mask := r.mask.filter (fun p => lmask.testBit p.1), sEmpty := [], vEmpty := [],
    sPoison := r.sPoison.filter (fun k => lsca.testBit k), vPoison := r.vPoison.filter (fun k => lvec.testBit (k / 64)) }

/-- R218: where a group restarts. Its region-table entry is read in its launch's address space as master 646; where it cannot be
read the group is saved whole. -/
def State.restartOf (s : State) (l : Launch) (die : Nat) (t : Thread) : Eng (Option Restart) :=
  let code := l.img + l.codeOff
  if t.gap then .ok s none
  else match t.region with
    | none =>
      let g := l.group t.ident
      .ok s (some ⟨BitVec.ofNat 64 code, g.regs, g.pstack⟩)
    | some n =>
      match s.engRead ⟨l.root, l.asid, l.priv, [], die, 640 + die⟩ 646 (l.img + l.regOff + 160 * n) 160 with
      | .busy q => .busy q
      | .fault s _ _ _ => .ok s none
      | .ok s bs =>
        if refused bs || poisonedIn bs then .ok s none
        else
          let b := plainBytes bs
          .ok s (some ⟨BitVec.ofNat 64 (code + field b 0 8), t.regs.liveIns (field b 8 1) (field b 16 16) (field b 32 128),
            t.pstack⟩)

/-- A held producer as it is saved: its accesses are made again (R441). -/
def Producer.saved (p : Producer) : Producer :=
  if p.reqs.isEmpty then p
  else { p with vals := [], poison := [], failed := [], left := p.reqs.length, await := .poll [], inRegion := false }

/-- The transaction state that is saved (Table 18.5). -/
def Trans.saved (x : Trans) : Trans := { x with fbk := false, log := [], buf := [], lkeys := [], pages := [] }

/-- A group as it is saved. -/
def Thread.saved (t : Thread) (r : Option Restart) : Thread :=
  let lost : List Producer := t.producers.filter (fun p => t.cancels p || t.parkedProducer p)
  let kept : List Producer := (t.producers.filter (fun p => !(t.cancels p || t.parkedProducer p))).map Producer.saved
  let regs := match r with
    | some r => r.regs
    | none => lost.foldl (fun (g : Regs) (p : Producer) => g.fill p.sdests p.vdests) t.regs
  let regs := { regs with
    sEmpty := (kept.flatMap (fun (p : Producer) => p.sdests)).foldl insertNat (if r.isSome then [] else regs.sEmpty),
    vEmpty := (kept.flatMap (fun (p : Producer) => p.vdests)).foldl insertNat (if r.isSome then [] else regs.vEmpty) }
  { t with
    status := if t.status = .ended then .ended else .running, regs := regs, producers := kept, park := none, stuck := false,
    reuse := none, tx := t.tx.saved,
    wait := if r.isSome then .none else t.wait,
    pstack := match r with
      | some r => r.pstack
      | none => t.pstack,
    fetch := match r with
      | some r => ⟨r.hdr, 0, []⟩
      | none => ⟨t.fetch.hdr, t.fetch.wix, []⟩ }

/-- Save one group, with the replay entries that have been taken out for it. -/
def State.saveGroup (s : State) (l : Launch) (die k : Nat) : Eng Unit :=
  let t := s.thread k
  (if t.status = .ended then Eng.ok s none else s.restartOf l die t).andThen (fun s r =>
    let entries := match s.work.saved.find (savedKey t) with
      | some g => g.replay
      | none => []
    let g : SavedGroup := ⟨t.saved r, r.isNone, entries⟩
    .ok { (s.dropSigs k) with work := { (s.dropSigs k).work with saved := s.work.saved.put (savedKey t) g } } ())

/-- Forget a thread that leaves its slot: its walks and their faults. -/
def State.forget (s : State) (k : Nat) : State :=
  let s := s.dropFaults k
  { s with xlt := { s.xlt with walks := s.xlt.walks.map (fun w => { w with waiters := eraseNat w.waiters k }) } }

/-- R395: what the save pool of a partition held is written over; its layout is not architectural, and it reads as noise. -/
def State.fillPool (s : State) (part : Nat) : State :=
  match s.home (setBits (s.pkg.svBase.getD part 0) 0 12 0) with
  | none => s
  | some h =>
    let a := s.cell h
    let n := (s.pkg.svLen.getD part 0).toNat
    let out (k : Nat) : Bool := k < a || a + n ≤ k
    { s with mem := { s.mem with
        bytes := s.mem.bytes.filter (fun p => out p.1), blockKey := s.mem.blockKey.filter (fun p => out (16 * p.1)) } }

/-- R395: has software written into the pool of a partition since its blocks were saved? -/
def State.poolWritten (s : State) (part : Nat) : Bool :=
  match s.home (setBits (s.pkg.svBase.getD part 0) 0 12 0) with
  | none => false
  | some h => s.mem.bytes.any (fun p => s.cell h ≤ p.1 && p.1 < s.cell h + (s.pkg.svLen.getD part 0).toNat)

/-- Step 5: a settled block is saved, and its slots free. The save is a release at package scope: masked bytes and the stage leave
the L1s first. -/
def State.saveBlock (s : State) (l : Launch) (b : Block) : State :=
  let cores := s.blockCores b
  let lines := cores.flatMap (fun c => s.stagedLines c b.lnum b.index)
  if l.det != 0 && !(s.flushReady lines) then s
  else
    let s := if l.det = 0 then s
      else
        let q := s.endFlush b.lnum b.index l.det cores
        match q.2 with
        | some (c, race) => q.1.raceOn c b.lnum b.index race
        | none => q.1
    let s := if b.mark.isSome then s else cores.foldl (fun (s : State) c => s.flushAll c) s
    let n := b.mark.getD s.mem.mwbNext
    let s := s.mapBlock b.lnum b.index (fun b => { b with mark := some n })
    if cores.any (fun c => s.mwbOut c 2 none (some n)) then s
    else
      let ks := (s.groupsOf b.lnum b.index).map (·.1)
      match ks.foldl (fun (e : Eng Unit) k => e.andThen (fun s _ => s.saveGroup l b.die k)) (.ok s ()) with
      | .ok s' _ =>
        let s' := (ks.foldl (fun (s : State) k => s.forget k) s').vacate b
        let s' := cores.foldl (fun (s : State) c => s.mapCore c (fun x => { x with victims := [] })) s'
        (s'.mapBlock b.lnum b.index (fun b => { b with st := .saved, mark := none })).fillPool l.part
      | .busy q => s.await q
      | .fault s _ _ _ => s

/-- PREEMPTION, R393: a block that R372 or R163 chooses is asked to stop; once it has stopped, it is settled and saved, step by
step. -/
def execPreemption (lnum block : Nat) (s : State) : Out :=
  .next (match s.block? lnum block, s.launch? lnum with
    | some b, some l =>
      if b.st = .resident then
        (if s.wanted b then
          (s.mapBlock lnum block (fun b => { b with st := .stopping })).mapGroups b Thread.stopNow
        else s)
      else if b.st ≠ .stopping then s
      else
        let s := s.mapGroups b Thread.stopAtWait
        if !(s.allStopped b) then s
        else
          let ks := (s.groupsOf lnum block).map (·.1)
          let s := ks.foldl (fun (s : State) k => (s.dropWait k).withdrawGroup k) s
          if !(ks.all s.groupSettled) || !(s.queuesDrained b) then s else s.saveBlock l b
    | _, _ => s)

/-! ## Resuming (R397) -/

/-- A request whose operands software has written over. -/
def LaneReq.scrambled (q : LaneReq) (w : Word) : LaneReq :=
  { q with va := w, op := match q.op with
    | .store v bad => .store (v ^^^ w.toNat % 2 ^ (8 * q.size)) bad
    | o => o }

/-- A group whose saved state software has written over: nothing that Table 18.5 lists is defined, that is its registers and predicate
stack, its position, region and gap, `GRP.RM`, barrier records, wait counters, gang, trap registers, transaction, held producers and
replay entries (R395; log entry 17). -/
def SavedGroup.scrambled (g : SavedGroup) (n : Nat) : SavedGroup :=
  let t := g.thread
  let w (i : Nat) : Word := Config.tampered n i
  let f (i b k : Nat) : Nat := bitsAt (w i) b k
  let code : Word := BitVec.ofNat 64 (f 1033 0 54 * 4)
  { g with
    replay := (((upto g.replay.length).zip g.replay).filter (fun p => (w (1100 + p.1)).getLsbD 0)).map (fun p =>
      { p.2 with reqs := p.2.reqs.map (fun q => q.scrambled (w (1200 + 64 * p.1 + q.lane))) }),
    thread := { t with
      regs := { t.regs with
        sreg := (upto 1024).map (fun k => (k, w k)), mask := (upto 8).map (fun k => (k, w (1024 + k) &&& t.allLanes)),
        vreg := (upto (64 * t.ident.nvr)).map (fun k => (k, BitVec.ofNat 32 (w (20000 + k)).toNat)) },
      pstack := (upto (f 1032 0 3 + 1)).map (fun k => (w (1040 + k) &&& t.allLanes, w (1050 + k) &&& t.allLanes)),
      fetch := ⟨code, f 1033 60 4, []⟩, rm := f 1034 0 3, wc := (upto 6).map (fun k => (k, f 1035 (10 * k) 10)),
      region := if (w 1036).getLsbD 0 then some (f 1036 8 19) else none, gap := (w 1036).getLsbD 1, gang := f 1036 32 32,
      barRec := (upto 20).filterMap (fun k => if (w 1037).getLsbD k then some (k, ((w 1037).getLsbD (20 + k), Option.none)) else none),
      trap := { t.trap with tcs := w 1038, tlm := w 1039 &&& t.allLanes, tva := w 1060, trsm := w 1061 },
      wait := if (w 1036).getLsbD 2 then t.wait else .none,
      tx := { t.tx with
        live := (w 1062).getLsbD 0, tm := w 1063 &&& t.allLanes, done := w 1064 &&& t.allLanes, d0 := f 1062 1 3, att := f 1062 8 4,
        budget := f 1062 12 4, cause := f 1062 16 4, code := f 1062 24 7, rh := BitVec.ofNat 64 (f 1065 0 54 * 4), rd := f 1062 32 10 },
      producers := (((upto t.producers.length).zip t.producers).filter (fun p => (w (1066 + p.1)).getLsbD 0)).map (fun p =>
        { p.2 with reqs := p.2.reqs.map (fun q => q.scrambled (w (10000 + 64 * p.1 + q.lane))) }) } }

/-- A team whose saved state software has written over: scratchpad, stage rings, barriers, accumulator tiles, write pointers and error
registers (Table 18.5, R395; log entry 17). -/
def Team.scrambled (t : Team) (n : Nat) : Team :=
  let w (i : Nat) : Word := Config.tampered n i
  { t with
    rings := (upto 8).map (fun k => (k, ⟨w k &&& 0x3F0003FF0007FF80, t.rings.any (fun r => r.1 == k && r.2.pme), (w k).getLsbD 30,
      (upto 16).filterMap (fun i => if (w (10 + k)).getLsbD i then some (i, 2) else Option.none), bitsAt (w (10 + k)) 16 4, bitsAt (w (10 + k)) 20 4⟩)),
    bars := (upto 20).map (fun k => (k, ⟨bitsAt (w (20 + k)) 0 10, bitsAt (w (20 + k)) 10 10, (w (20 + k)).getLsbD 20, 2⟩)),
    wp := (upto 4).map (fun k => (k, w (40 + k))), err := (upto 5).map (fun k => (k, w (44 + k))),
    acc := if t.tiles then (upto 49152).map (fun k => (k, BitVec.ofNat 32 (w (1000 + k)).toNat)) else t.acc,
    scratch := (upto t.alloc).filterMap (fun a =>
      let v : Byte := BitVec.ofNat 8 (w (60000 + a)).toNat
      if v = 0 then Option.none else some (a, v)) }

/-- Bring one saved group back into a slot, with its launch's translation registers, which are not saved (Table 18.5, R44, R45). -/
def State.restoreGroup (s : State) (g : SavedGroup) (core slot : Nat) (tampered : Bool) : State :=
  let k := groupKey core slot
  let g := if tampered then g.scrambled s.free else g
  let t := g.thread
  let s := if tampered then s.tick else s
  let (root, asid) := match s.launch? t.ident.lnum with
    | some l => (l.root, BitVec.ofNat 64 l.asid)
    | none => (t.xltRoot, t.xltAsid)
  let s := s.putThread k { t with xltRoot := root, xltAsid := asid, ident := { t.ident with core := core, slot := slot } }
  let s := s.acquire k 2
  let s := if t.tx.live then s.retry k 7 t.tx.tm else s
  let n := (s.core core).freshReplay
  let back := ((upto g.replay.length).zip g.replay).map (fun p => { p.2 with id := n + p.1, agent := k })
  s.mapCore core (fun c => { c with replay := c.replay ++ back })

/-- Bring a team back on a core. -/
def State.restoreTeam (s : State) (team core : Nat) (tampered : Bool) : State :=
  let slots := s.freeSlots core
  let n := s.free
  let s := if tampered then s.tick else s
  let s := s.mapTeam team (fun t => { (if tampered then t.scrambled n else t) with core := core, resident := true })
  let gs := (s.work.saved.filter (fun p => p.2.thread.ident.team == team)).map (·.2)
  let s := gs.foldl (fun (s : State) g => s.restoreGroup g core (nth slots g.thread.ident.gnum 0) tampered) s
  { s with work := { s.work with saved := s.work.saved.filter (fun p => p.2.thread.ident.team != team) } }

/-- BLOCK_RESUME, R397, R372, R163: the lowest saved block of a launch becomes resident again, its ranks kept. -/
def execBlockResume (lnum block : Nat) (s : State) : Out :=
  .next (match s.block? lnum block, s.launch? lnum with
    | some b, some l =>
      if b.st ≠ .saved || (s.savedBlocks lnum).head? ≠ some block || !(s.launchTurn lnum l) then s
      else match s.fit l with
        | none => s
        | some (die, cores) =>
          let bad := s.poolWritten l.part
          let s := (b.teams.zip cores).foldl (fun (s : State) p => s.restoreTeam p.1 p.2 bad) s
          let s := (s.mapBlock lnum block (fun b => { b with st := .resident, die := die })).rotate l.part die
          cores.foldl (fun (s : State) c => s.replayCore c) s.tryTakes
    | _, _ => s)

end Sys2Proof.Machine
end

