-- ==== Sys2Proof/Machine/Sysreg.lean ====
section
/-! DEFINITION. System registers (spec/09_encoding_assembly.md, R194; spec/14_engine_sync_system_instructions.md, R325; and the
register maps of the other chapters): SRD, SWR, and the writes that the opcode table lists by register. -/

namespace Sys2Proof.Machine

/-! ## Numbers (Table 9.9) -/

/-- A system register. Slices are numbered 48 d + s, and 192 for the host L2. -/
inductive Sreg where
  | clk | throttle
  | rm | id | tcs | tlm | tva | trsm
  | ring (k : Nat)
  | xltRoot | xltAsid
  | zrgReg | zrgStat
  | wp (c : Nat) | cpeErr (c : Nat)
  | rqcCtl | rqcErr
  | pcDump (slice : Nat) | slcErr (slice : Nat)
  | slsub (d : Nat) | ivl (p : Nat) | nbnd (p : Nat) | ptnRes (p : Nat)
  | migBnd (c : Nat)
  | keyStat
  | ticket | lock
  | job | svBase | svLen | node
  | frqBase | frqHead | frqTail | frqResp
  | vec | cs | rsm | dva | irq
  | cxlWin (w : Nat) | cxlT2 (k : Nat)
  | rx (p : Nat) | rxa (p : Nat) | rxh (p : Nat) | rxt (p : Nat) | rxs (p : Nat)
  | cap
  deriving DecidableEq, Repr

/-- The slice of an offset of the SLC block from `host`: 64 d + s, or the host L2's own. -/
def sliceOffset (o host : Nat) : Option Nat :=
  if o = host then some 192 else if o < host && o / 64 < 4 && o % 64 < 48 then some (48 * (o / 64) + o % 64) else none

/-- A bank of `n` registers from `base`. -/
def bank (o base n : Nat) (f : Nat → Sreg) : Option Sreg := if base ≤ o && o < base + n then some (f (o - base)) else none

/-- The register of a block and an offset; none where no chapter assigns the number. -/
def sregAt (block o : Nat) : Option Sreg :=
  let pick (l : List Sreg) : Option Sreg := l[o]?
  match block with
  | 0x01 => pick [.clk, .throttle]
  | 0x02 => pick [.rm, .id, .tcs, .tlm, .tva, .trsm]
  | 0x03 => bank o 0 8 .ring
  | 0x04 => pick [.xltRoot, .xltAsid]
  | 0x05 => pick [.zrgReg, .zrgStat]
  | 0x06 => (bank o 0 4 .wp).or (bank o 8 4 .cpeErr)
  | 0x07 => pick [.rqcCtl, .rqcErr]
  | 0x08 => ((sliceOffset o 0x100).map .pcDump).or (if 0x200 ≤ o then (sliceOffset (o - 0x200) 0x100).map .slcErr else none)
  | 0x09 => (((bank o 0 4 .slsub).or (bank o 0x10 4 .ivl)).or (bank o 0x20 4 .nbnd)).or (bank o 0x30 4 .ptnRes)
  | 0x0A => bank o 0 4 .migBnd
  | 0x0B => pick [.keyStat]
  | 0x0C => pick [.ticket, .lock]
  | 0x0D => pick [.job, .svBase, .svLen, .node]
  | 0x0E => pick [.frqBase, .frqHead, .frqTail, .frqResp]
  | 0x0F => pick [.vec, .cs, .rsm, .dva, .irq]
  | 0x10 => (bank o 0 16 .cxlWin).or (bank o 0x10 4 .cxlT2)
  | 0x11 => ((((bank o 0 4 .rx).or (bank o 4 4 .rxa)).or (bank o 8 4 .rxh)).or (bank o 0xC 4 .rxt)).or (bank o 0x10 4 .rxs)
  | 0x12 => pick [.cap]
  | _ => none

/-- R194: the register of a number. -/
def sregOf (n : Nat) : Option Sreg := sregAt (n / 2 ^ 11) (n % 2 ^ 11)

/-- R194: registers of one kind of core only. -/
def Sreg.onKind (r : Sreg) (k : Kind) : Bool :=
  match k, r with
  | .group, .vec | .group, .cs | .group, .rsm | .group, .dva | .group, .irq => false
  | .distaff, .id | .distaff, .tcs | .distaff, .tlm | .distaff, .tva | .distaff, .trsm | .distaff, .ring _
  | .distaff, .wp _ | .distaff, .cpeErr _ | .distaff, .rqcCtl | .distaff, .rqcErr | .distaff, .throttle | .distaff, .job => false
  | _, _ => true

/-- R194: does SRD of a register need privilege? -/
def Sreg.readPriv (r : Sreg) : Bool :=
  match r with
  | .vec | .cs | .rsm | .dva | .irq | .frqBase | .frqHead | .frqTail | .frqResp | .rx _ | .rxa _ | .rxh _ | .rxt _ | .rxs _
  | .cxlWin _ | .cxlT2 _ | .migBnd _ | .cap | .pcDump _ | .svBase | .svLen => true
  | _ => false

/-- Does an unprivileged SWR of a register raise cause 0x0F, as its map says? A register that only the partition manager writes,
and `GRP.ID`, refuse every SWR (R22, R24, R148, R401, R403). One whose map names no trap ignores it, as R325 has it (log entry 48). -/
def Sreg.writeTraps (r : Sreg) (priv : Bool) : Bool :=
  match r with
  | .id | .slsub _ | .ivl _ | .nbnd _ | .ptnRes _ => true
  | .throttle | .xltRoot | .xltAsid | .zrgReg | .rqcCtl | .pcDump _ | .slcErr _ | .frqBase | .frqHead | .frqTail | .frqResp
  | .irq | .rx _ | .rxa _ | .rxh _ | .rxt _ | .rxs _ => !priv
  | _ => false

/-! ## Reading -/

/-- Table 7.2. -/
def Thread.idWord (t : Thread) : Word :=
  let i := t.ident
  BitVec.ofNat 64 (i.block % 2 ^ 32 * 2 ^ 32 + i.gnum * 2 ^ 22 + i.crank * 2 ^ 18 + dieOf i.core * 2 ^ 16 + i.core % 48 * 2 ^ 10
    + i.wcode * 2 ^ 8 + i.nvr / 8 * 2 ^ 4 + i.role * 2 ^ 2)

/-- Table 17.4. -/
def State.jobWord (s : State) (t : Thread) : Word :=
  match s.launch? t.ident.lnum with
  | some l => BitVec.ofNat 64 (t.ident.lnum % 2 ^ 32 * 2 ^ 32 + l.npkg * 2 ^ 18 + l.det * 2 ^ 16 + l.rank)
  | none => 0

/-- Table 16.2. -/
def State.lockWord (s : State) : Word :=
  match s.svc.fblHolder with
  | none => BitVec.ofNat 64 (min s.svc.fblWait.length 0xFFFF * 2 ^ 24)
  | some k =>
    BitVec.ofNat 64 (2 ^ 63 + min s.svc.fblWait.length 0xFFFF * 2 ^ 24 + (s.thread k).ident.slot * 2 ^ 12 + (s.thread k).mid)

/-- The queue of the thread's own partition; an empty one where it has none. -/
def State.ownFrq (s : State) (t : Thread) : Frq :=
  match s.partOfThread t with
  | some p => s.frqOf p
  | none => ⟨0, 0, 0⟩

/-- The receive ring of a partition (R413). -/
def State.netOf (s : State) (p : Nat) : NetRx := s.svc.netrx.getD p ⟨0, 0, 0, 0, 0⟩

/-- Change a receive ring. -/
def State.mapNet (s : State) (p : Nat) (f : NetRx → NetRx) : State :=
  { s with svc := { s.svc with netrx := s.svc.netrx.put p (f (s.netOf p)) } }

/-- The register as SRD returns it to a thread. `MIG.BND` of a context that is free reads as zero, which the manual leaves open (R30; log
entry 44). -/
def State.sysRead (s : State) (t : Thread) (r : Sreg) : Word :=
  let m := s.team t.ident.team
  let part := s.partOfThread t
  match r with
  | .clk => BitVec.ofNat 64 (s.core t.mid).clk
  | .throttle => (s.core t.ident.core).throttle
  | .rm => BitVec.ofNat 64 t.rm
  | .id => t.idWord
  | .tcs => t.trap.tcs
  | .tlm => t.trap.tlm
  | .tva => t.trap.tva
  | .trsm => t.trap.trsm
  | .ring k => (m.ring k).word
  | .xltRoot => t.xltRoot
  | .xltAsid => t.xltAsid
  | .zrgReg => 0
  | .zrgStat => t.res.zrgStat
  | .wp c => m.wp.getD c 0
  | .cpeErr c => m.err.getD c 0
  | .rqcCtl => BitVec.ofNat 64 (s.core t.ident.core).rqcCtl.toNat
  | .rqcErr => m.err.getD 4 0
  | .pcDump n => setBits (s.mem.pcDump.getD n 0) 62 2 0
  | .slcErr n => s.mem.slcErr.getD n 0
  | .slsub d => s.pkg.slsub.getD d 0
  | .ivl p => s.pkg.ivl.getD p 0
  | .nbnd p => s.pkg.nbnd.getD p 0
  | .ptnRes p => s.pkg.ptnRes.getD p 0
  | .migBnd c => match s.mem.migr.find c with
    | some g => BitVec.ofNat 64 g.bound
    | none => 0
  | .keyStat => t.res.keyStat
  | .ticket => BitVec.ofNat 64 s.svc.ticket
  | .lock => s.lockWord
  | .job => s.jobWord t
  | .svBase => s.pkg.svBase.getD (part.getD 4) 0
  | .svLen => s.pkg.svLen.getD (part.getD 4) 0
  | .node => s.pkg.node
  | .frqBase => (s.ownFrq t).base
  | .frqHead => BitVec.ofNat 64 (s.ownFrq t).head
  | .frqTail => BitVec.ofNat 64 (s.ownFrq t).tail
  | .frqResp => BitVec.ofNat 64 (t.res.frqSt * 2 ^ 60)
  | .vec => t.trap.vec
  | .cs => t.trap.tcs
  | .rsm => t.trap.trsm
  | .dva => t.trap.tva
  | .irq => t.trap.irq
  | .cxlWin w => s.pkg.cxlWin.getD w 0
  | .cxlT2 k => s.pkg.cxlT2.getD k 0
  | .rx p => (s.netOf p).rx
  | .rxa p => (s.netOf p).rxa
  | .rxh p => BitVec.ofNat 64 (s.netOf p).rxh
  | .rxt p => BitVec.ofNat 64 (s.netOf p).rxt
  | .rxs p => (s.netOf p).rxs
  | .cap => s.pkg.pwrCap

/-! ## Writing -/

/-- Change the trap registers of a thread. -/
def State.mapTrap (s : State) (k : Nat) (f : TrapRegs → TrapRegs) : State := s.mapThread k (fun t => { t with trap := f t.trap })

/-- Table 17.6: a write of `CORE.THROTTLE`. -/
def throttleWrite (old v : Word) : Word :=
  let w := setBits (setBits old 63 1 (bitsAt v 63 1)) 45 3 (bitsAt v 45 3)
  if bitsAt v 16 16 < bitsAt v 0 16 then w else setBits w 0 32 (bitsAt v 0 32)

/-- Table 5.6: a write of `RQC.CTL`. -/
def rqcWrite (old v : Word) : Word :=
  let l := bitsAt v 9 7
  let n := bitsAt v 0 9
  let w := if 1 ≤ l && l ≤ 64 then setBits old 9 7 l else old
  if 1 ≤ n && n ≤ 256 then setBits w 0 9 n else w

/-- The 4 KiB pages of a slice's dump buffer (R27). -/
def dumpPages (slice : Nat) (v : Word) : List Word :=
  (upto (if slice = 192 then 16 else 4)).map (fun i => setBits 0 12 50 (bitsAt v 12 50 + i))

/-- R27: a dump request. Bit 63 of the field marks a copy under way. -/
def State.dumpRequest (s : State) (slice : Nat) (v : Word) : State :=
  let old := s.mem.pcDump.getD slice 0
  let kept := setBits (setBits 0 12 50 (bitsAt v 12 50)) 1 1 (bitsAt v 1 1)
  let bad := bitsAt v 62 2 ≠ 0 || bitsAt v 3 9 ≠ 0 || (dumpPages slice v).any (fun pa => (s.home pa).isNone)
  let new := if bad then setBits (setBits kept 2 1 1) 0 1 1 else setBits kept 63 1 1
  if old.getLsbD 63 then s else { s with mem := { s.mem with pcDump := s.mem.pcDump.put slice new } }

/-- The 16 bytes of an access counter (Table 1.5a). -/
def PageCount.bytes (c : PageCount) : List Nat :=
  toBytes (c.wr * 2 ^ 104 + c.rd * 2 ^ 80 + c.page / 2 ^ 34 % 8 * 2 ^ 75 + c.page % 2 ^ 34 * 2 ^ 41 + 1) 16

/-- Write a slice's dump page by page. -/
def State.dumpWrite (s : State) : List Word → List Nat → State
  | [], _ => s
  | pa :: r, bs =>
    match s.vet 645 .write pa with
    | .ok a => (s.poke a (keyOf pa) (bs.take 4096) 645).dumpWrite r (bs.drop 4096)
    | .error _ => s

/-- PCDUMP_COPY_DONE, R27: the slice copies its entries to the buffer as master 645, and clears them where asked to. A buffer that
is denied is refused. -/
def execPcdumpCopyDone (slice : Nat) (s : State) : Out :=
  .next (
    let w := s.mem.pcDump.getD slice 0
    let pages := dumpPages slice w
    let admits := pages.map (fun pa => s.vet 645 .write pa)
    let ready := admits.all (fun a => match a with
      | .ok a => s.pokeReady a 4096
      | .error _ => true)
    let denied := admits.any (fun a => match a with
      | .ok _ => false
      | .error _ => true)
    let finish (s : State) (w : Word) : State := { s with mem := { s.mem with pcDump := s.mem.pcDump.put slice (setBits w 63 1 0) } }
    if !(w.getLsbD 63) || !ready then s
    else if denied then finish s (setBits (setBits w 2 1 1) 0 1 1)
    else
      let l := s.mem.counts.getD slice []
      let n := if slice = 192 then 65536 else 16384
      let bs := l.flatMap PageCount.bytes
      let s := if w.getLsbD 1 then { s with mem := { s.mem with counts := s.mem.counts.del slice } } else s
      finish (s.dumpWrite pages (bs ++ List.replicate (n - bs.length) 0)) (setBits w 0 1 1))

/-- Is a block of a partition saved (R395)? -/
def State.partSaved (s : State) (part : Nat) : Bool :=
  s.work.blocks.any (fun b => b.st = .saved && (match s.launch? b.lnum with
    | some l => l.part == part
    | none => false))

/-- Table 19.6: a write of `NET.RX`. -/
def rxWrite (old v : Word) : Word :=
  let w := setBits 0 12 44 (bitsAt v 12 44)
  setBits w 0 4 (if bitsAt v 0 4 ≤ 12 then bitsAt v 0 4 else bitsAt old 0 4)

/-- R413: a write of `NET.RXT`: beyond `NET.RXH` it is ignored. -/
def NetRx.consume (n : NetRx) (v : Nat) : NetRx :=
  if (v + 2 ^ 32 - n.rxt) % 2 ^ 32 ≤ (n.rxh + 2 ^ 32 - n.rxt) % 2 ^ 32 then { n with rxt := v % 2 ^ 32 } else n

/-- R414. -/
def capWatts (v : Nat) : Nat := max 600 (min 2600 v)

/-- A permitted write of a register for the current thread, each field as its map gives. -/
def State.sysWrite (s : State) (r : Sreg) (v : Word) : Res :=
  let k := s.work.cur
  let t := s.th
  let part := s.partOfThread t
  let priv (s' : State) : Res := .done (if t.priv then s' else s)
  let pkg (f : Pkg → Pkg) : State := { s with pkg := f s.pkg }
  let own (f : Nat → State) : State := match part with
    | some p => f p
    | none => s
  match r with
  | .throttle => .done (s.mapCore t.ident.core (fun c => { c with throttle := throttleWrite c.throttle v }))
  | .rm => .done (if bitsAt v 0 3 ≤ 4 then s.mapTh (fun t => { t with rm := bitsAt v 0 3 }) else s)
  | .trsm => .done (if t.inTrap then s.mapTrap k (fun x => { x with trsm := setBits v 56 4 0 }) else s)
  | .ring n => .done (s.mapTeam t.ident.team (fun m => m.writeRing n v))
  | .xltRoot => .done (s.mapTh (fun t => { t with xltRoot := v &&& 0x3FFFFFFFFFFFF001 }))
  | .xltAsid => .done (s.mapTh (fun t => { t with xltAsid := v &&& 0xFFFF }))
  | .zrgReg => s.writeZrg v
  | .cpeErr c => .done (if v.getLsbD 1 then s.mapTeam t.ident.team (fun m => { m with err := m.err.del c }) else s)
  | .rqcErr => .done (if v.getLsbD 1 then s.mapTeam t.ident.team (fun m => { m with err := m.err.del 4 }) else s)
  | .rqcCtl => .done (s.mapCore t.ident.core (fun c => { c with rqcCtl := rqcWrite c.rqcCtl v }))
  | .pcDump n => .done (s.dumpRequest n v)
  | .slcErr n => .done (if v.getLsbD 0 then { s with mem := { s.mem with slcErr := s.mem.slcErr.del n } } else s)
  | .svBase => priv (own (fun p => if s.partSaved p then s
      else pkg (fun g => { g with svBase := g.svBase.put p (v &&& 0x3FFFFFFFFFFFF000) })))
  | .svLen => priv (own (fun p => if s.partSaved p then s
      else pkg (fun g => { g with svLen := g.svLen.put p (v &&& 0xFFFFFFFFFFFF) })))
  | .frqBase => .done (own (fun p => if (s.frqOf p).head = (s.frqOf p).tail then
      s.mapFrq p (fun q => { q with base := v &&& 0x3FFFFFFFFFFFF80F }) else s))
  | .frqTail => .done (own (fun p => s.mapFrq p (fun q => { q with tail := bitsAt v 0 32 })))
  | .frqResp => .done (s.respond v)
  | .vec => priv (s.mapTrap k (fun x => { x with vec := v &&& 0x00FFFFFFFFFFFFFC }))
  | .cs => priv (s.mapTrap k (fun x => { x with tcs := v &&& 0xE0FFFFFF00000000 }))
  | .rsm => priv (s.mapTrap k (fun x => { x with trsm := setBits v 56 4 0 }))
  | .irq => .done (s.mapTrap k (fun x => { x with irq := x.irq &&& ~~~v }))
  | .cxlWin w => priv (pkg (fun g => { g with cxlWin := g.cxlWin.put w (v &&& 0xE0003FFFFFFFC000) }))
  | .cxlT2 n => priv (pkg (fun g => { g with cxlT2 := g.cxlT2.put n (v &&& 0x80003FFFFFFFC000) }))
  | .rx p => .done (s.mapNet p (fun n => { n with rx := rxWrite n.rx v }))
  | .rxa p => .done (s.mapNet p (fun n => { n with rxa := v &&& 0x3FFFFFFFFFFFF001 }))
  | .rxt p => .done (s.mapNet p (fun n => n.consume (bitsAt v 0 32)))
  | .rxs p => .done (s.mapNet p (fun n => { n with rxs := v &&& 0xFFFF }))
  | .cap => priv (pkg (fun g => { g with pwrCap := BitVec.ofNat 64 (capWatts (bitsAt v 0 12)) }))
  | _ => .done s

/-! ## SRD and SWR -/

/-- The register of a word's number for the current kind of core; none is an illegal instruction (R194). -/
def sregFor (k : Kind) (n : Nat) : Option Sreg := (sregOf n).filter (fun r => r.onKind k)

/-- SRD, R325. -/
def execSrd (d : BitVec 7) (n : BitVec 19) (s : State) : Out :=
  .next (s.issue (fun t => { distaff := true, illegal := (sregFor t.kind n.toNat).isNone, sdests := [t.abs d] })
    (fun s =>
      match sregFor s.th.kind n.toNat with
      | none => .done s
      | some r => if r.readPriv && !s.th.priv then .moved (s.trapHere 0x0F 0) else .done (s.setS d (s.sysRead s.th r))))

/-- SWR, R325. -/
def execSwr (d : BitVec 7) (n : BitVec 19) (s : State) : Out :=
  .next (s.issue (fun t =>
    { distaff := true, illegal := (sregFor t.kind n.toNat).isNone, ends := true, reads := [t.srcS d false] })
    (fun s =>
      match sregFor s.th.kind n.toNat with
      | none => .done s
      | some r => if r.writeTraps s.th.priv then .moved (s.trapHere 0x0F 0) else s.sysWrite r (s.th.valS d)))

/-! ## Writes by register

A row of the opcode table for one register's write: the current thread writes the register, where it may. -/

/-- The state that a result holds. -/
def Res.state (r : Res) : State :=
  match r with
  | .done s => s
  | .goto s _ => s
  | .stay s => s
  | .moved s => s
  | .lanes s _ _ _ _ _ => s

/-- The current thread writes a register, its word left as it stands; a refused write raises cause 0x0F. -/
def State.writeReg (s : State) (r : Sreg) (v : Word) : State :=
  if !(r.onKind s.th.kind) then s
  else if r.writeTraps s.th.priv then s.trapHere 0x0F 0
  else (s.sysWrite r v).state

/-- SYSREG_WRITE, R325, R194: a number that no chapter assigns raises cause 0x01. -/
def execSysregWrite (number : Nat) (value : BitVec 64) (s : State) : Out :=
  .next (match sregFor s.th.kind number with
    | some r => s.writeReg r value
    | none => s.trapHere 0x01 0)

/-- SLC_PCDUMP, R27. -/
def execSlcPcdump (slice : Nat) (value : BitVec 64) (s : State) : Out :=
  .next (if slice ≤ 192 then s.writeReg (.pcDump slice) value else s)

/-- ZRG_REGISTER, R58, R59. -/
def execZrgRegister (value : BitVec 64) (s : State) : Out :=
  .next (if bitsAt value 62 2 = 0 then s.writeReg .zrgReg value else s)

/-- ZRG_UNREGISTER, R58, R60. -/
def execZrgUnregister (value : BitVec 64) (s : State) : Out :=
  .next (if bitsAt value 62 2 = 1 then s.writeReg .zrgReg value else s)

/-- TEAM_RING_WRITE, R155. -/
def execTeamRingWrite (ring : Nat) (value : BitVec 64) (s : State) : Out :=
  .next (if ring < 8 then s.writeReg (.ring ring) value else s)

/-- GRP_RM_WRITE, R176. -/
def execGrpRmWrite (value : BitVec 64) (s : State) : Out := .next (s.writeReg .rm value)

/-- GRP_TRSM_WRITE, R385. -/
def execGrpTrsmWrite (value : BitVec 64) (s : State) : Out := .next (s.writeReg .trsm value)

/-- RQC_CTL_WRITE, R119. -/
def execRqcCtlWrite (value : BitVec 64) (s : State) : Out := .next (s.writeReg .rqcCtl value)

/-- CORE_THROTTLE_WRITE, R376. -/
def execCoreThrottleWrite (value : BitVec 64) (s : State) : Out := .next (s.writeReg .throttle value)

/-- SLC_ERR_CLEAR, R84. -/
def execSlcErrClear (slice : Nat) (value : BitVec 64) (s : State) : Out :=
  .next (if slice ≤ 192 then s.writeReg (.slcErr slice) value else s)

/-- CPE_ERR_CLEAR, R115. -/
def execCpeErrClear (channel : Nat) (value : BitVec 64) (s : State) : Out :=
  .next (if channel < 4 then s.writeReg (.cpeErr channel) value else s)

/-- RQC_ERR_CLEAR, R115. -/
def execRqcErrClear (value : BitVec 64) (s : State) : Out := .next (s.writeReg .rqcErr value)

/-- DSP_SVBASE_WRITE, R395. -/
def execDspSvbaseWrite (value : BitVec 64) (s : State) : Out := .next (s.writeReg .svBase value)

/-- DSP_SVLEN_WRITE, R395. -/
def execDspSvlenWrite (value : BitVec 64) (s : State) : Out := .next (s.writeReg .svLen value)

/-- FRQ_BASE_WRITE, R388. -/
def execFrqBaseWrite (value : BitVec 64) (s : State) : Out := .next (s.writeReg .frqBase value)

/-- DTR_IRQ_CLEAR, R404. -/
def execDtrIrqClear (value : BitVec 64) (s : State) : Out := .next (s.writeReg .irq value)

/-- NET_RX_WRITE, R413. -/
def execNetRxWrite (part : Nat) (value : BitVec 64) (s : State) : Out :=
  .next (if part < 4 then s.writeReg (.rx part) value else s)

/-- NET_RXT_WRITE, R413. -/
def execNetRxtWrite (part : Nat) (value : BitVec 64) (s : State) : Out :=
  .next (if part < 4 then s.writeReg (.rxt part) value else s)

/-- PWR_CAP_WRITE, R414. -/
def execPwrCapWrite (value : BitVec 64) (s : State) : Out := .next (s.writeReg .cap value)

end Sys2Proof.Machine
end

