-- ==== Sys2Proof/Machine/System.lean ====
section
/-! DEFINITION. System instructions (spec/14_engine_sync_system_instructions.md, R323, R324, R329 to R332) and the services of the
root-of-trust processor (spec/19_partitions_security_links.md, R410). -/

namespace Sys2Proof.Machine

/-! ## TRAP and ERET -/

/-- TRAP, R323: cause 0x12 with its code; the thread resumes at the word after. -/
def execTrap (n : BitVec 7) (s : State) : Out :=
  .next (s.issue (fun _ => { distaff := true, aborts := true })
    (fun s => .moved (s.trapAfter 0x12 0 s.th.active 0 false n.toNat)))

/-- ERET, R324, R386, R399: on a group only in trap mode; on a distaff core privileged. -/
def execEret (s : State) : Out :=
  .next (s.issue (fun t =>
    { distaff := true, illegal := t.kind = .group && !t.inTrap, priv := t.kind = .distaff, aborts := true })
    (fun s => .moved s.eret))

/-! ## The distaff context area (R329) -/

/-- Table 14.8: the context area that CTXSAVE stores, each byte with its poison. Its destination's slot receives 1. -/
def Thread.context (t : Thread) (d : Nat) : List (Nat × Bool) :=
  let reg (r : Nat) : List (Nat × Bool) :=
    if r = d then (toBytes 1 8).map (fun b => (b, false))
    else (toBytes (t.regs.s r).toNat 8).map (fun b => (b, t.regs.sPoison.contains r))
  let wcs := (upto 6).foldl (fun n k => n + t.wc.getD k 0 % 1024 * 1024 ^ k) 0
  let tail := toBytes t.nextHdr.toNat 8 ++ toBytes t.rm 8 ++ toBytes t.xltRoot.toNat 8 ++ toBytes t.xltAsid.toNat 8
    ++ toBytes wcs 8 ++ [bit t.priv] ++ List.replicate 23 0
  (upto 128).flatMap reg ++ tail.map (fun b => (b, false))

/-- The seventeen 64-byte parts of a context area. -/
def contextReqs (va : Word) (op : AccOp) : List LaneReq := (upto 17).map (fun i => laneReq i (va + BitVec.ofNat 64 (64 * i)) op 64)

/-- The first part of a context area that fails, as the failure of the thread's one lane. -/
def contextFailure (rs : List Resolved) : List (Nat × Nat × Nat × Nat) :=
  ((rs.filter (fun r => !r.isGood)).take 1).map (fun r => (0, r.cause.1, r.cause.2, r.req.va.toNat))

/-- The home address and key of a good part; a register of home class 6 takes no part of 64 bytes (R437). -/
def Resolved.place (r : Resolved) : Option (Nat × Nat) :=
  match r.fate with
  | .good (.mem a key) => some (a, key)
  | _ => none

/-- The places of all parts. -/
def places (rs : List Resolved) : List (Nat × Nat) := rs.filterMap Resolved.place

/-- Store the parts of a context area coherently at their homes. -/
def State.storeParts (s : State) (mid : Nat) : List (Nat × Nat) → List (Nat × Bool) → State
  | [], _ => s
  | p :: r, bs => (s.pokeMasked p.1 p.2 ((bs.take 64).map some) mid).storeParts mid r (bs.drop 64)

/-- CTXSAVE, R329: a release at package scope that stores the thread's state. -/
def execCtxsave (d : BitVec 7) (a : BitVec 7) (x : Bool) (s : State) : Out :=
  .next (s.issue (fun t =>
    { distaff := true, simt := false, priv := true, aborts := true,
      reads := t.srcS a x :: (upto 128).map (fun r => ⟨false, r, false, false⟩), sdests := [t.abs d] })
    (fun s =>
      let k := s.work.cur
      let t := s.th
      let va := t.valS a
      if va.toNat % 64 ≠ 0 then .moved (s.trapHere 0x06 0 va)
      else s.afterRelease 2 (fun s =>
        let rs := s.resolveAll k (contextReqs va (.store 0 0))
        if rs.any Resolved.waits then .stay (s.startWalks k rs)
        else if rs.any (fun r => !r.isGood) then failRes (s.settleLooks k rs) (contextFailure rs)
        else if rs.any s.laneHeld || (places rs).any (fun p => !(s.pokeReady p.1 64)) then .stay s
        else .done (((s.settleLooks k rs).storeParts t.mid (places rs) (t.context (t.abs d))).setS d 0))))

/-- Is a context area one that CTXLOAD refuses: `RESUME` misaligned, a wait counter above 1,023, a reserved byte nonzero? -/
def contextBad (bs : List Nat) : Bool :=
  field bs 1024 8 % 4 ≠ 0 || 2 ^ 60 ≤ field bs 1056 8 || 1 < field bs 1064 1 || (bs.drop 1065).any (· != 0)

/-- Load a context area into a thread; a rounding mode that is reserved leaves the thread's (R176). -/
def Thread.loadContext (t : Thread) (bs : List Nat) : Thread :=
  let rm := field bs 1032 8 % 8
  { t with
    regs := (upto 128).foldl (fun (r : Regs) k => r.setS k (BitVec.ofNat 64 (field bs (8 * k) 8))) t.regs,
    rm := if rm ≤ 4 then rm else t.rm,
    xltRoot := BitVec.ofNat 64 (field bs 1040 8) &&& 0x3FFFFFFFFFFFF001,
    xltAsid := BitVec.ofNat 64 (field bs 1048 8 % 2 ^ 16),
    wc := (upto 6).map (fun k => (k, field bs 1056 8 / 1024 ^ k % 1024)),
    priv := field bs 1064 1 % 2 == 1 }

/-- CTXLOAD, R329: an acquire at package scope that loads every field and transfers to `RESUME`. -/
def execCtxload (d : BitVec 7) (a : BitVec 7) (x : Bool) (s : State) : Out :=
  .next (s.issue (fun t =>
    { distaff := true, simt := false, priv := true, aborts := true, reads := [t.srcS a x], sdests := upto 128 })
    (fun s =>
      let k := s.work.cur
      let t := s.th
      let va := t.valS a
      let rs := s.resolveAll k (contextReqs va .load)
      let ps := places rs
      if va.toNat % 64 ≠ 0 then .moved (s.trapHere 0x06 0 va)
      else if t.acqPending || s.unperformed k then .stay s
      else if rs.any Resolved.waits then .stay (s.startWalks k rs)
      else if rs.any (fun r => !r.isGood) then failRes (s.settleLooks k rs) (contextFailure rs)
      else if rs.any s.laneHeld || ps.any (fun p => s.lineBusy ((s.steer p.1 p.2).1 / 128)) then .stay s
      else if ps.any (fun p => s.peekPoison p.1 64) then .moved (s.trapHere 0x10 1)
      else
        let bs := ps.flatMap (fun p => s.peek p.1 p.2 64)
        let s := ps.foldl (fun (s : State) p => s.readAt p.1 p.2 64 t.mid) (s.settleLooks k rs)
        if contextBad bs then .done (s.setS d 1)
        else .goto ((s.mapTh (fun t => t.loadContext bs)).acquireNow k 2) (BitVec.ofNat 64 (field bs 1024 8))))

/-! ## IDLE -/

/-- IDLE, R330: a distaff thread stops while every bit of `DTR.IRQ` is 0; on a SIMT core it is YIELD. -/
def execIdle (s : State) : Out :=
  .next (s.issue (fun _ => { distaff := true, priv := true, aborts := true })
    (fun s => match s.th.kind with
      | .group => .done s.offer
      | .distaff =>
        if s.th.trap.irq = 0 then .stay (s.mapTh (fun t => { t with status := .idle })) else .done s))

/-! ## Wiping cached lines -/

/-- The cached lines of the package that a test picks, as cache and line. -/
def State.cachedLines (s : State) (p : Nat → CLine → Bool) : List (Nat × Nat) :=
  s.mem.caches.flatMap (fun c => (List.filter (fun l : Nat × CLine => p l.1 l.2) c.2).map (fun l => (c.1, l.1)))

/-- Write back one cached copy at its home and invalidate it. -/
def State.wipeLine (s : State) (cache line : Nat) : State :=
  match s.cached cache line with
  | none => s
  | some l =>
    if l.tracked then s.settle line
    else
      let h := s.steer (128 * line) l.key
      let s := if l.dirty = 0 then s
        else ((s.settle (h.1 / 128)).hitSigs (h.1 / 128)).mergeLine h.2 (h.1 / 128) l.data l.dirty l.poison
      s.dropLine cache line

/-- Write back and invalidate the cached lines that a test picks, staged bytes in immediate flushes first; none while a home has to
be waited for. -/
def State.wipeLines (s : State) (p : Nat → CLine → Bool) : Option State :=
  let ls := s.cachedLines p
  let busy (line : Nat) : Bool := s.lineBusy ((s.steer (128 * line) 0).1 / 128)
  let staged := ((ls.filter (fun q => q.1 < 192 && (match s.cached q.1 q.2 with
    | some l => !l.stage.isEmpty
    | none => false))).map (·.1)).eraseDups
  if ls.any (fun q => busy q.2) then none
  else (s.flushCores staged).map (fun s => ls.foldl (fun (s : State) q => s.wipeLine q.1 q.2) s)

/-! ## KEYSEL -/

/-- R332, R410: does the root-of-trust processor serve a request? It serves one at a time. -/
def State.rotBusy (s : State) : Bool :=
  s.work.threads.any (fun p => p.2.producers.any (fun q => match q.await with
    | .rot _ _ => true
    | _ => false))

/-- R403: is a key identifier one of a partition's? -/
def State.ownsKey (s : State) (part key : Nat) : Bool :=
  let w := s.pkg.ptnRes.getD part 0
  bitsAt w 54 10 ≤ key && key < bitsAt w 54 10 + 2 ^ bitsAt w 50 4

/-- R331: replace the key of a slot, or retire the slot. -/
def State.newKey (s : State) (key : Nat) (retire : Bool) : State :=
  let gen := s.keySlot key / 2
  { s with mem := { s.mem with keys := s.mem.keys.putD 0 key (if retire then 2 * gen + 1 else 2 * gen + 2) } }

/-- Is a write-back or another message under a key on its way? -/
def State.keyInFlight (s : State) (key : Nat) : Bool :=
  s.mem.net.any (fun m => m.key == key) || s.mem.dir.any (fun d => match d.2.req with
    | some m => m.key == key
    | none => false)

/-- The lines that their homes hold under a key leave the homes' caches too. -/
def State.wipeHomes (s : State) (key : Nat) : State :=
  { s with mem := { s.mem with dir := s.mem.dir.map (fun p =>
      if p.2.key = key then (p.1, { p.2 with resident := false, dirty := [] }) else p) } }

/-- KEYSEL, R331: the lines under the key leave the caches, then its slot changes; the result stands in `KEY.STAT`. -/
def execKeysel (a : BitVec 7) (x : Bool) (s : State) : Out :=
  .next (s.issue (fun t => { distaff := true, priv := true, aborts := true, ends := true, reads := [t.srcS a x] })
    (fun s =>
      let v := s.th.valS a
      let key := bitsAt v 0 10
      let fin (s : State) (st : Nat) : Res :=
        .done (s.mapTh (fun t => { t with res := { t.res with keyStat := BitVec.ofNat 64 (st * 2 ^ 60 + key) } }))
      if !(match s.partOfThread s.th with
          | some p => s.ownsKey p key
          | none => false) then fin s 1
      else if 2 ≤ bitsAt v 62 2 then fin s 2
      else if s.rotBusy then fin s 3
      else if s.keyInFlight key then .stay s
      else match s.wipeLines (fun _ l => l.key == key) with
        | none => .stay s
        | some s => fin ((s.wipeHomes key).newKey key (bitsAt v 62 2 = 1)) 0))

/-! ## RTCALL -/

/-- A page that RTCALL cannot have parks a group, whose word is issued again on resume; else it traps. -/
def State.pageFault (s : State) (req : LaneReq) (cause reason : Nat) : Res :=
  let k := s.work.cur
  let t := s.th
  if t.kind = .group && parks cause reason then
    if !(s.recordRoom t.die 1) then .stay s
    else
      let part := s.ownerPart t
      let mask := maskOf [req.lane]
      let s := (s.dropFaults k).report part t.die
        ⟨1, cause, reason, t.mid, t.ident.slot, 1, bitsAt t.xltAsid 0 16, req.va, mask, t.ident.lnum, 0, t.fetch.hdr, 0⟩ (.word k)
      .moved (s.mapTh (fun t => { t with
        status := .parked, park := some ⟨[req], 0, true, [(s.lastToken part, mask)], false⟩ }))
  else failRes (s.dropFaults k) [(req.lane, cause, reason, req.va.toNat)]

/-- RTCALL, R332: a release at package scope, then a long-latency producer that waits for the root-of-trust processor. A page that
is not present or not permitted parks a group and traps on a distaff thread; the processor's own access is checked when it is
made. -/
def execRtcall (d : BitVec 7) (a : BitVec 7) (x : Bool) (s : State) : Out :=
  .next (s.issue (fun t =>
    { distaff := true, priv := true, aborts := true, ends := true, reads := [t.srcS a x], sdests := [t.abs d] })
    (fun s =>
      let k := s.work.cur
      let t := s.th
      let va := t.valS a
      let req := laneReq t.scalarLane va (.atomic 0 0 0 0 0) 1
      let p := { t.producer Form.none [t.abs d] [] with order := ⟨true, false, 2⟩ }
      if va.toNat % 4096 ≠ 0 then .moved (s.trapHere 0x06 0 va)
      else if t.acqPending then .stay s
      else s.afterRelease 2 (fun s =>
        let l := s.look t.space .atomic va 1
        match l with
        | .miss => (match s.walkFault k t.space.asid va.toNat with
          | some f => s.pageFault req f.cause f.reason
          | none => .stay (s.startWalk k t.space va.toNat))
        | .fail c r _ => (l.settle t.space s).pageFault req c r
        | .ok pa via =>
          let s := l.settle t.space s
          let st : Nat := if s.rotBusy then 1 else 0
          let p := if st = 1 then { p with vals := [(.s (t.abs d), BitVec.ofNat 64 (2 ^ 60))] }
            else { p with await := .rot pa (via.map (·.1)) }
          .done (s.mapTh (fun t => t.produce p)))))

/-! ## The root-of-trust processor (R410) -/

/-- The page that a producer's request waits on. -/
def Thread.rotPage (t : Thread) (id : Nat) : Option Word :=
  match t.findProducer id with
  | some p => (match p.await with
    | .rot page _ => some page
    | _ => none)
  | none => none

/-- The processor answers a request with a status: its register lands with it. -/
def State.rotLand (s : State) (agent id st : Nat) : State :=
  s.mapThread agent (fun t => t.mapProducer id (fun p => { p with
    await := .none, vals := p.sdests.map (fun r => (.s r, BitVec.ofNat 64 (st * 2 ^ 60))) }))

/-- The master ID of the root-of-trust processor (Table 1.8). -/
def rotMid : Nat := 647

/-- Request bytes of a service after word 0 (Table 19.5; log entry 18). -/
def serviceLength (svc : Nat) : Nat :=
  match svc with
  | 1 => 0
  | 2 => 32
  | _ => 8

/-- The bytes of a request that the processor reads: its header and the 32 bytes that the longest service takes. -/
def requestSize : Nat := 64

/-- Bytes of the response area. -/
def responseSize : Nat := 2048

/-- Free bytes of the processor: signatures and random numbers. -/
def State.rotBytes (s : State) (n : Nat) : List Nat := (upto n).map (fun i => (Config.rotByte s.free i).toNat)

/-- The measurement log as SVC 1 gives it: the count, then as many digests as the response area holds (log entry 18). -/
def State.measurementLog (s : State) : List Nat :=
  (toBytes s.svc.measure.length 8 ++ s.svc.measure.flatMap (fun d => d)).take responseSize

/-- Serve a request of service `svc`, with the bytes that `f` makes of the request page; a request of another service waits for its
own row, and one of no service of Table 19.5 gets status 2. -/
def State.rotServe (s : State) (agent id svc : Nat) (f : State → List Nat → Option (List Nat)) : State :=
  match (s.thread agent).rotPage id with
  | none => s
  | some page =>
    match s.vet rotMid .read page, s.vet rotMid .write page with
    | .ok a, .ok _ =>
      if !(s.pokeReady a 4096) || s.windowHeld page then s
      else
        let req := s.peek a (keyOf page) requestSize
        let want := field req 0 2
        let r := s.readAt a (keyOf page) requestSize rotMid
        if s.peekPoison a requestSize then r.rotLand agent id 4
        else if want = 0 || 3 < want then r.rotLand agent id 2
        else if want ≠ svc then s
        else if field req 4 2 ≠ serviceLength svc then r.rotLand agent id 4
        else match f s req with
          | none => r.rotLand agent id 4
          | some bs => ((r.poke (a + responseSize) (keyOf page) bs rotMid).tick).rotLand agent id 0
    | _, _ => s.rotLand agent id 3

/-- RT_MEASUREMENT_LOG, R410: service 1. -/
def execRtMeasurementLog (agent id : Nat) (s : State) : Out :=
  .next (s.rotServe agent id 1 (fun s _ => some s.measurementLog))

/-- RT_QUOTE, R410: service 2. The manual gives the quote no format: the response area holds free values (log entry 15). -/
def execRtQuote (agent id : Nat) (s : State) : Out :=
  .next (s.rotServe agent id 2 (fun s _ => some (s.rotBytes responseSize)))

/-- RT_RANDOM, R410: service 3. -/
def execRtRandom (agent id : Nat) (s : State) : Out :=
  .next (s.rotServe agent id 3 (fun s req =>
    let n := field req 8 8
    if n = 0 || 1024 < n then none else some (s.rotBytes n)))

/-- SPDM_REQUEST, R410: a request over Data Object Exchange is answered to the port; nothing else of the package changes. What the
answer says is the SPDM standard's. -/
def execSpdmRequest (request : List Nat) (s : State) : Out :=
  .next { s.tick with svc := { s.svc with spdm := s.svc.spdm ++ [request] } }

end Sys2Proof.Machine
end

