-- ==== Sys2Proof/Machine/Manager.lean ====
section
/-! DEFINITION. The partition manager (spec/19_partitions_security_links.md, R405 to R409; spec/01_memory_and_homes.md, R22): MERGE,
SPLIT, RESET, FENCE and RESTART. -/

namespace Sys2Proof.Machine

/-! ## Commands (R405) -/

/-- Commands are performed one at a time, in acceptance order across the package: is it this command's turn? -/
def State.managerTurn (s : State) (c : Cmd) : Bool :=
  c.q = 9 && (c.st = .queued || c.st = .running) && !(s.svc.cmds.any (fun d => d.q == 9 && d.id < c.id))

/-- Fields of word 1 (Table 19.3). -/
def Cmd.pa (c : Cmd) : Nat := bitsAt (c.w 1) 0 2
def Cmd.pb (c : Cmd) : Nat := bitsAt (c.w 1) 2 2

/-- Does a partition exist? -/
def State.valid (s : State) (p : Nat) : Bool := (s.pkg.nbnd.getD p 0).getLsbD 63

/-- The partition in which a command's issuer lies: that of its quartet, or of its die. -/
def State.issuerAt (s : State) (c : Cmd) : Option Nat :=
  if c.mid < 192 then s.partOfDie (dieOf c.mid) else s.partOfDistaff (c.mid - 192)

/-- The interrupt cores of partitions. -/
def State.irqCores (s : State) (ps : List Nat) : List Nat := (ps.filterMap s.irqCore).foldl insertNat []

/-- A command has ended with a status (Table 19.4); its interrupts go to the partitions `ps`. -/
def State.managerDone (s : State) (c : Cmd) (st : Nat) (ps : List Nat) : State :=
  s.putCmd { c.finish [BitVec.ofNat 64 (st * 2 ^ 60)] with reached := c.reached.foldl insertNat (s.irqCores ps) }

/-! ## Layouts (R406) -/

/-- The resource fields of `PTN.NBND` (Table 19.1). -/
def resourceMask : Word := 0x00FFF0F0FFFF0FFF

/-- Fields of `PTN.NBND`. -/
def nbndDies (w : Word) : Nat := bitsAt w 36 4
def nbndDcg (w : Word) : Nat := bitsAt w 16 16

/-- Fields of `PTN.RES`. -/
def resKbase (w : Word) : Nat := bitsAt w 54 10
def resKlog (w : Word) : Nat := bitsAt w 50 4
def resMem (w : Word) : Nat := bitsAt w 40 8
def resNet (w : Word) : Nat := bitsAt w 32 8

/-- `PTN.RES` from its fields (Table 19.2). -/
def resWord (kbase klog mem net dc : Nat) : Word :=
  setBits (setBits (setBits (setBits (setBits 0 54 10 kbase) 50 4 klog) 40 8 mem) 32 8 net) 0 6 dc

/-- `PTN.IVL` of a partition's dies (Table 1.4); zero where it has none. -/
def ivlWord (dies gran : Nat) : Word := if dies = 0 then 0 else setBits (setBits (setBits 0 32 4 dies) 30 2 gran) 0 1 1

/-- The lowest distaff core of a `DCG`, or 63. -/
def lowestDistaff (dcg : Nat) : Nat :=
  match (upto 16).find? (fun i => dcg.testBit i) with
  | some i => 4 * i
  | none => 63

/-- Are the keys of A and B the two halves of one aligned range? -/
def buddies (ra rb : Word) : Bool :=
  let n := 2 ^ resKlog ra
  let lo := min (resKbase ra) (resKbase rb)
  resKlog ra = resKlog rb && lo % (2 * n) = 0 && max (resKbase ra) (resKbase rb) = lo + n

/-- Does an `LPM` split a module set? -/
def splitsSet (w : Word) : Bool := (upto 4).any (fun k => bitsAt w (3 * k) 3 ≠ 0 && bitsAt w (3 * k) 3 ≠ 7)

/-- Table 19.4: the status of a MERGE or SPLIT that cannot be made, 0 where it can. -/
def State.layoutStatus (s : State) (c : Cmd) (split : Bool) : Nat :=
  let na := s.pkg.nbnd.getD c.pa 0
  let nb := c.w 2
  let ra := s.pkg.ptnRes.getD c.pa 0
  let rb := s.pkg.ptnRes.getD c.pb 0
  let invalid := c.pa = c.pb || !(s.valid c.pa) || s.valid c.pb == split
    || (split && (nb &&& 0x7FFFFFFFFFFFFFFF &&& ~~~(na &&& resourceMask) ≠ 0 || nbndDies (na &&& ~~~nb) = 0 || splitsSet nb))
  if invalid then 2
  else if s.issuerAt c ≠ some c.pa && s.issuerAt c ≠ some c.pb then 3
  else if split then
    (if resKlog ra = 0 || resMem ra < bitsAt (c.w 3) 40 8 || resNet ra < bitsAt (c.w 3) 32 8 then 4 else 0)
  else if buddies ra rb then 0 else 4

/-- The registers after a MERGE of B into A. -/
def Pkg.merged (g : Pkg) (a b gran : Nat) : Pkg :=
  let n := g.nbnd.getD a 0 ||| g.nbnd.getD b 0
  let ra := g.ptnRes.getD a 0
  let rb := g.ptnRes.getD b 0
  let r := resWord (min (resKbase ra) (resKbase rb)) (resKlog ra + 1) (min 255 (resMem ra + resMem rb))
    (min 255 (resNet ra + resNet rb)) (bitsAt ra 0 6)
  { g with
    nbnd := (g.nbnd.put a n).put b 0,
    ivl := (g.ivl.put a (ivlWord (nbndDies n) gran)).put b 0,
    ptnRes := g.ptnRes.put a r }

/-- The registers after a SPLIT of B, with resources `nb` and shares `mem` and `net`, out of A. -/
def Pkg.divided (g : Pkg) (a b : Nat) (nb : Word) (gran mem net : Nat) : Pkg :=
  let nb := nb &&& resourceMask
  let na := g.nbnd.getD a 0 &&& ~~~nb
  let ra := g.ptnRes.getD a 0
  let k := resKlog ra - 1
  let dc := bitsAt ra 0 6
  let dcA := if (nbndDcg nb).testBit (dc / 4) then lowestDistaff (nbndDcg na) else dc
  { g with
    nbnd := (g.nbnd.put a na).put b (setBits nb 63 1 1),
    ivl := (g.ivl.put a (ivlWord (nbndDies na) gran)).put b (ivlWord (nbndDies nb) gran),
    ptnRes := (g.ptnRes.put a (resWord (resKbase ra) k (resMem ra - mem) (resNet ra - net) dcA)).put b
      (resWord (resKbase ra + 2 ^ k) k mem net (lowestDistaff (nbndDcg nb))) }

/-! ## Quiescing (R406) -/

/-- The distaff cores of partitions. -/
def State.distaffsOf (s : State) (ps : List Nat) : List Nat :=
  (upto 64).filter (fun dc => match s.partOfDistaff dc with
    | some p => ps.contains p
    | none => false)

/-- MERGE and SPLIT check the command and, where it can be made, hold placement and pause issue on the affected dies. -/
def State.startLayout (s : State) (c : Cmd) (split : Bool) : State :=
  let st := s.layoutStatus c split
  let ps := [c.pa, c.pb]
  if st ≠ 0 then s.managerDone c st ps
  else
    let dies := (upto 4).filter (fun d => match s.partOfDie d with
      | some p => ps.contains p
      | none => false)
    let s := s.putCmd { c with st := .running, started := true, reached := s.irqCores ps }
    { s with pkg := { s.pkg with quiesce := some ⟨c.id, dies, ps, s.distaffsOf ps, false⟩ } }

/-- MERGE, R406. -/
def execMerge (cmd : Nat) (s : State) : Out :=
  s.onCmd cmd 0x60 (fun c => s.managerTurn c && c.st = .queued) (fun s c => s.startLayout c false)

/-- SPLIT, R406. -/
def execSplit (cmd : Nat) (s : State) : Out :=
  s.onCmd cmd 0x61 (fun c => s.managerTurn c && c.st = .queued) (fun s c => s.startLayout c true)

/-- The busy queues of the affected dies, as die, bay and queue (Table 19.4). -/
def State.busyQueues (s : State) (dies : List Nat) : List (Nat × Nat × Nat) :=
  let cmds := (s.svc.cmds.filter (fun c => c.q ≤ 5 && c.mid < 192 && dies.contains (dieOf c.mid))).map
    (fun c => (dieOf c.mid, c.mid % 48, c.q))
  let on (a : Nat) : Bool := dies.contains (classOf a)
  let migr := (s.mem.migr.filter (fun p => on p.2.src || on p.2.dst)).map (fun p =>
    let sl := s.sliceOf p.2.bound
    (min (sl / 48) 4, sl % 48, 15))
  cmds ++ migr

/-- Table 19.4: which busy queue is reported before which: die, then bay, then queue. -/
def earlierQueue (x y : Nat × Nat × Nat) : Bool :=
  x.1 < y.1 || (x.1 = y.1 && (x.2.1 < y.2.1 || (x.2.1 = y.2.1 && x.2.2 < y.2.2)))

/-- The first busy queue. -/
def State.firstBusy (s : State) (dies : List Nat) : Option (Nat × Nat × Nat) :=
  (s.busyQueues dies).foldl (fun (o : Option (Nat × Nat × Nat)) x =>
    match o with
    | none => some x
    | some y => if earlierQueue x y then some x else some y) none

/-- Is an agent a group of these dies? -/
def agentOn (dies : List Nat) (k : Nat) : Bool := isGroupKey k && dies.contains (k / 32 / 48)

/-- Is an access of one of these agents still to be performed? Parked lanes and replay entries are none (R406). -/
def State.accessOut (s : State) (p : Nat → Bool) : Bool :=
  let acc (a : Access) : Bool := p a.agent
  let msg (m : Msg) : Bool := match m.acc with
    | some a => acc a
    | none => false
  s.mem.pend.any acc || s.mem.net.any msg
    || s.mem.dir.any (fun d => match d.2.req with
      | some m => msg m
      | none => false)
    || s.mem.resv.any (fun r => p r.agent)
    || s.work.cores.any (fun c => c.2.rqcWait.any acc || c.2.windows.any (fun w => w.reqs.any acc))

/-- Have the affected dies drained? -/
def State.quiesced (s : State) (dies : List Nat) : Bool := (s.busyQueues dies).isEmpty && !(s.accessOut (agentOn dies))

/-- The structures that phase 1 drains: the TLBs and walk-ahead TLBs of the dies, and those of the distaff cores. -/
def drainedPlaces (dies distaff : List Nat) : List Nat :=
  dies.flatMap (fun d => (coresOf d).flatMap (fun c => [c, 256 + c]) ++ [512 + d, 520 + d])
    ++ distaff.flatMap (fun dc => [600 + dc, 700 + dc / 16])

/-- Mark an entry draining, apart from every invalidation. -/
def TlbEntry.retire (e : TlbEntry) : TlbEntry := if e.draining then e else { e with draining := true, inval := 0 }

/-- Mark the translations of a producer that waits for the root-of-trust processor. -/
def Producer.retireVia (p : Producer) : Producer :=
  match p.await with
  | .rot page via => { p with await := .rot page (via.map TlbEntry.retire) }
  | _ => p

/-- Phase 1 (R406, R53): mark every entry of the affected structures and every access in flight through one, drop the walk caches,
and abort with cause 6 the transactions that have translated through one. -/
def State.drainPlaces (s : State) (q : Quiesce) : State :=
  let places := drainedPlaces q.dies q.distaff
  let mine (k : Nat) : Bool := agentOn q.dies k || (6144 ≤ k && q.distaff.contains ((k - 6144) / Config.threadsPerDistaff))
  let acc (a : Access) : Access := if mine a.agent then { a with via := a.via.map TlbEntry.retire } else a
  let msg (m : Msg) : Msg := { m with acc := m.acc.map acc }
  let s := { s with
    xlt := { s.xlt with
      tlbs := s.xlt.tlbs.map (fun (p : Nat × List TlbEntry) => if places.contains p.1 then (p.1, p.2.map TlbEntry.retire) else p),
      wcache := s.xlt.wcache.filter (fun (p : Nat × List TlbEntry) => !(q.dies.contains p.1 || (p.1 = 4 && !q.distaff.isEmpty))) },
    mem := { s.mem with
      pend := s.mem.pend.map acc, net := s.mem.net.map msg,
      dir := s.mem.dir.map (fun (p : Nat × Dir) => (p.1, { p.2 with req := p.2.req.map msg })) },
    work := { s.work with
      threads := s.work.threads.map (fun (p : Nat × Thread) =>
        if mine p.1 then (p.1, { p.2 with
          producers := p.2.producers.map Producer.retireVia, tx := { p.2.tx with pages := p.2.tx.pages.map TlbEntry.retire } })
        else p) } }
  ((s.work.threads.filter (fun p => mine p.1)).map (·.1)).foldl (fun (s : State) k =>
    let t := s.thread k
    if t.tx.live && !t.committing && !t.tx.pages.isEmpty then s.final k 6 else s) s

/-- After a MERGE the work of partition `b`, its unanswered and its held records and its arms are those of `a` (log entry 49). -/
def State.adopt (s : State) (a b : Nat) : State :=
  let kept (p : Nat) : Nat := if p = b then a else p
  { s with
    work := { s.work with launches := s.work.launches.map (fun p => (p.1, { p.2 with part := kept p.2.part })) },
    svc := { s.svc with
      cmds := s.svc.cmds.map (fun d => { d with part := kept d.part }),
      tokens := s.svc.tokens.map (fun t => { t with part := kept t.part }),
      heldRecs := s.svc.heldRecs.map (fun h => { h with part := kept h.part }),
      arms := s.svc.arms.map (fun x => { x with part := kept x.part, cmd := { x.cmd with part := kept x.cmd.part } }),
      pmes := s.svc.pmes.map (fun p => (p.1, { p.2 with passes := p.2.passes.map (fun x => (x.1, { x.2 with part := kept x.2.part })) })) } }

/-- R390: a command that a distaff thread pushed is work of the partition that holds the thread's quartet. -/
def State.regroup (s : State) : State :=
  let part (d : Cmd) : Nat := if d.mid < 192 then d.part else (s.partOfDistaff (d.mid - 192)).getD d.part
  { s with svc := { s.svc with cmds := s.svc.cmds.map (fun d => { d with part := part d }) } }

/-- The layout that a command asks for: the registers, and after a MERGE the work of B as work of A. Placement starts again at the
lowest die (R371). -/
def State.applyLayout (s : State) (c : Cmd) : State :=
  let a := c.pa
  let b := c.pb
  let gran := bitsAt (c.w 3) 0 2
  let s := { s with work := { s.work with rotate := (s.work.rotate.del a).del b } }
  if c.code = 0x60 then
    { s.adopt a b with pkg := s.pkg.merged a b gran }
  else ({ s with pkg := s.pkg.divided a b (c.w 2) gran (bitsAt (c.w 3) 40 8) (bitsAt (c.w 3) 32 8) }).regroup

/-- QUIESCE_DRAINED, R406: the affected dies have drained; the layout is rewritten and phase 1 marks their translations. -/
def execQuiesceDrained (s : State) : Out :=
  .next (match s.pkg.quiesce with
    | none => s
    | some q => match s.cmd? q.cmd with
      | none => s
      | some c =>
        if q.phase2 || !(s.quiesced q.dies) then s
        else
          let s := s.applyLayout c
          let s := s.mapCmd c.id (fun c => { c with reached := (s.irqCores q.parts).foldl insertNat c.reached })
          ({ s with pkg := { s.pkg with quiesce := some { q with phase2 := true } } }).drainPlaces q)

/-- Word 0 of a busy report (Table 19.4). -/
def busyWord (b : Nat × Nat × Nat) : Word :=
  setBits (setBits (setBits (setBits 0 60 4 1) 46 2 b.1) 40 6 b.2.1) 36 4 b.2.2

/-- QUIESCE_TIMEOUT, R406: `QWAIT` has passed and the dies have not drained; nothing changes. Where only accesses are outstanding
the manual names no queue to report (log entry 19). -/
def execQuiesceTimeout (s : State) : Out :=
  .next (match s.pkg.quiesce with
    | none => s
    | some q => match s.cmd? q.cmd with
      | none => s
      | some c =>
        if q.phase2 || s.quiesced q.dies then s
        else
          let w := match s.firstBusy q.dies with
            | some b => busyWord b
            | none => setBits (setBits 0 60 4 1) 36 12 (bitsAt (Config.busyReport s.free) 36 12)
          let s := { s.tick with pkg := { s.pkg with quiesce := none } }
          s.putCmd (c.finish [w]))

/-- Is an access through a drained translation of an affected agent outstanding? -/
def State.drainOut (s : State) (q : Quiesce) : Bool :=
  let old (o : Option TlbEntry) : Bool := match o with
    | some e => e.draining
    | none => false
  let mine (k : Nat) : Bool := agentOn q.dies k || (6144 ≤ k && q.distaff.contains ((k - 6144) / Config.threadsPerDistaff))
  let acc (a : Access) : Bool := mine a.agent && old a.via
  let msg (m : Msg) : Bool := match m.acc with
    | some a => acc a
    | none => false
  s.mem.pend.any acc || s.mem.net.any msg
    || s.mem.dir.any (fun d => match d.2.req with
      | some m => msg m
      | none => false)
    || s.work.threads.any (fun p => mine p.1 && ((p.2.tx.live && p.2.committing && p.2.tx.pages.any (fun e => e.draining))
      || p.2.producers.any (fun r => match r.await with
        | .rot _ via => old via
        | _ => false)))

/-- PHASE2_COMPLETE, R406, R54: the accesses through drained translations are complete and the masked bytes of the dies are home;
the marked entries go, held requests and issue go on, and the command ends with status 0. -/
def execPhase2Complete (s : State) : Out :=
  .next (match s.pkg.quiesce with
    | none => s
    | some q => match s.cmd? q.cmd with
      | none => s
      | some c =>
        if !q.phase2 || s.drainOut q then s
        else
          let cores := q.dies.flatMap coresOf
          match s.flushCores cores with
          | none => s
          | some s =>
            if cores.any (fun k => s.mwbOut k 2) then s
            else
              let s := { s.dropDraining 0 with pkg := { s.pkg with quiesce := none } }
              s.putCmd (c.finish [0]))

/-! ## RESET (R408) -/

/-- Kill every launch of a partition, those not yet taken too: they end with `ST` 5. -/
def State.killPart (s : State) (part : Nat) : State :=
  let s := ((s.work.launches.filter (fun p => p.2.part == part && !p.2.killed)).map (·.1)).foldl
    (fun (s : State) n => s.killLaunch n) s
  (s.svc.cmds.filter (fun c => c.q == 6 && c.code == 0x50 && !c.ended && (s.launch? c.seq).isNone && s.issuerPart c == part)).foldl
    (fun (s : State) c => s.refuseLaunch c 5) s

/-- Is a line homed in a partition? -/
def State.lineIn (s : State) (part line : Nat) : Bool := s.partOfHome (BitVec.ofNat 64 (128 * line)) (128 * line) == some part

/-- Has a partition work left that RESET waits for: its launches, its engines' commands, or messages of its lines? -/
def State.partBusy (s : State) (part : Nat) : Bool :=
  let dies := s.diesOf part
  s.work.launches.any (fun p => p.2.part == part)
    || s.svc.cmds.any (fun c => c.q ≤ 5 && c.mid < 192 && dies.contains (dieOf c.mid))
    || s.mem.net.any (fun m => s.lineIn part m.line)

/-- R408: restart a distaff thread at the firmware entry. -/
def State.restartThread (s : State) (dc slot : Nat) : State :=
  let k := distaffKey dc slot
  let s := (((s.stopCommit k).releaseLock k).dropSigs k).forget k
  let s := (s.clearSpec (192 + dc)).dropIcache (192 + dc)
  s.putThread k (Thread.distaffReset dc slot)

/-- The commands of a partition that stand at a fault go on as killed ones: their records go with the queue. -/
def State.killFaulted (s : State) (part : Nat) : State :=
  (s.svc.cmds.filter (fun c => c.part == part && (match c.st with
    | .faulted _ => true
    | _ => false))).foldl (fun (s : State) c => s.killCmd c) s

/-- Homes give up the lines that a test picks: every tracked copy is recalled, and none is resident any more. -/
def State.emptyHomes (s : State) (p : Nat → Bool) : State :=
  ((s.mem.dir.map (·.1)).filter p).foldl (fun (s : State) l =>
    let s := s.settle l
    s.putDir l { s.dirOf l with resident := false, dirty := [] }) s

/-- RESET of a partition after its launches have ended: lines, keys, arms, passes, records and threads. -/
def State.resetPart (s : State) (part : Nat) : State :=
  let r := s.pkg.ptnRes.getD part 0
  let dies := s.diesOf part
  let dcs := s.distaffsOf [part]
  let s := (upto (2 ^ resKlog r)).foldl (fun (s : State) i => s.newKey (resKbase r + i) false) s
  let s := s.killFaulted part
  let s := { s with svc := { s.svc with
    arms := s.svc.arms.filter (fun a => a.part != part),
    pmes := s.svc.pmes.filter (fun p => !(dies.contains p.1)),
    frq := s.svc.frq.del part,
    portWait := s.svc.portWait.map (fun m => if s.partWith (48 + m.port) == some part then { m with token := none } else m),
    tokens := s.svc.tokens.filter (fun t => t.part != part),
    heldRecs := s.svc.heldRecs.filter (fun h => h.part != part) } }
  dcs.foldl (fun (s : State) dc =>
    (upto Config.threadsPerDistaff).foldl (fun (s : State) sl => s.restartThread dc sl) s) s

/-- PM_RESET, R408: the launches of A are killed; once they have ended, the rest is done. -/
def execPmReset (cmd : Nat) (s : State) : Out :=
  s.onCmd cmd 0x62 (fun c => s.managerTurn c) (fun s c =>
    let a := c.pa
    if !c.started && !(s.valid a) then s.managerDone c 2 [a]
    else if !c.started && s.issuerAt c ≠ some a then s.managerDone c 3 [a]
    else
      let c := { c with st := .running, started := true }
      let s := (s.putCmd c).killPart a
      if s.partBusy a then s
      else match s.wipeLines (fun line _ => s.lineIn a line) with
        | none => s
        | some s => ((s.emptyHomes (s.lineIn a)).resetPart a).managerDone c 0 [a])

/-! ## FENCE (R408, R22) -/

/-- The bay and die of a FENCE. -/
def Cmd.fenceDie (c : Cmd) : Nat := bitsAt (c.w 1) 8 2
def Cmd.fenceBay (c : Cmd) : Nat := bitsAt (c.w 1) 10 6

/-- Kill the launches with blocks on these cores. -/
def State.killOn (s : State) (cores : List Nat) : State :=
  let on (b : Block) : Bool :=
    (b.st = .resident || b.st = .stopping) && (s.blockCores b).any (fun c => cores.contains c)
  (((s.work.blocks.filter on).map (·.lnum)).eraseDups).foldl (fun (s : State) n => s.killLaunch n) s

/-- Are teams, or commands of their engines, still on these cores? -/
def State.coresBusy (s : State) (cores : List Nat) : Bool :=
  s.work.teams.any (fun t => t.2.resident && cores.contains t.2.core)
    || s.svc.cmds.any (fun c => c.q ≤ 4 && cores.contains c.mid)

/-- The lowest-numbered bay of a die in service, `bay` set apart. -/
def State.spareBay (s : State) (die bay : Nat) : Nat :=
  match (upto 48).find? (fun b => b != bay && !(s.fenced (48 * die + b))) with
  | some b => b
  | none => 0

/-- Load the first free substitution of `PTN.SLSUB`; one that led to the bay leads to the spare bay too (R22: `TO` is never a fenced
bay). -/
def slsubFence (w : Word) (bay to_ : Nat) : Word :=
  let w := if w.getLsbD 4 && bitsAt w 11 6 == bay then setBits w 11 6 to_ else w
  let w := if w.getLsbD 17 && bitsAt w 24 6 == bay then setBits w 24 6 to_ else w
  if !(w.getLsbD 4) then setBits (setBits (setBits w 4 1 1) 5 6 bay) 11 6 to_
  else setBits (setBits (setBits w 17 1 1) 18 6 bay) 24 6 to_

/-- A die leaves its partition and service. -/
def State.clearDie (s : State) (part die : Nat) : State :=
  { s with pkg := { s.pkg with
      nbnd := s.pkg.nbnd.put part (setBits (s.pkg.nbnd.getD part 0) (36 + die) 1 0),
      deadDies := insertNat s.pkg.deadDies die } }

/-- PM_FENCE, R408: the launches on the bay are killed; once they have left, its lines are home and its slots are redirected. A third
fenced bay takes the die out of its partition. That a bay which does not exist is answered with `ST` 2, and one already fenced with 0,
are the model's choices (log entry 52). -/
def execPmFence (cmd : Nat) (s : State) : Out :=
  s.onCmd cmd 0x63 (fun c => s.managerTurn c) (fun s c =>
    let die := c.fenceDie
    let bay := c.fenceBay
    let core := 48 * die + bay
    let part := s.partOfDie die
    let ps := part.toList
    if !c.started && (part.isNone || 48 ≤ bay) then s.managerDone c 2 ps
    else if !c.started && s.issuerAt c ≠ part then s.managerDone c 3 ps
    else if !c.started && s.fenced core then s.managerDone c 0 ps
    else
      let w := s.pkg.slsub.getD die 0
      let third := w.getLsbD 4 && w.getLsbD 17
      let cores := if third then coresOf die else [core]
      let c := { c with st := .running, started := true }
      let s := (s.putCmd c).killOn cores
      if s.coresBusy cores || s.mem.net.any (fun m =>
          if third then classOf (128 * m.line) == die else s.sliceOf (128 * m.line) == core) then s
      else match s.flushCores cores with
        | none => s
        | some s =>
          if cores.any (fun k => s.mwbOut k 2) then s
          else
            let s := cores.foldl (fun (s : State) k => (s.linesIn k).foldl (fun (s : State) l => s.wipeLine k l) s) s
            let s := s.emptyHomes (fun l => if third then classOf (128 * l) == die else s.sliceOf (128 * l) == core)
            if third then (s.clearDie (part.getD 0) die).managerDone c 0 ps
            else { s with pkg := { s.pkg with
                slsub := s.pkg.slsub.put die (slsubFence w bay (s.spareBay die bay)) } }.managerDone c 0 ps)

/-! ## RESTART (R409) -/

/-- Start a stopped thread at an address. -/
def Thread.restart (t : Thread) (priv : Bool) (addr : Word) : Thread :=
  { t with
    status := .running, priv := priv, wait := .none, trap := { t.trap with tcs := setBits t.trap.tcs 63 1 0 },
    fetch := ⟨addr, 0, []⟩ }

/-- RESTART, R409. -/
def execRestart (cmd : Nat) (s : State) : Out :=
  s.onCmd cmd 0x64 (fun c => s.managerTurn c) (fun s c =>
    let dc := bitsAt (c.w 1) 0 6
    let k := distaffKey dc (bitsAt (c.w 1) 8 2)
    let t := s.thread k
    let part := s.partOfDistaff dc
    let ps := part.toList
    if part.isNone || !(t.status = .stopped || t.status = .idle) || (c.w 2).toNat % 4 ≠ 0 then s.managerDone c 2 ps
    else if s.issuerAt c ≠ part then s.managerDone c 3 ps
    else (s.putThread k (t.restart ((c.w 1).getLsbD 16) (c.w 2))).managerDone c 0 ps)

end Sys2Proof.Machine
end

