-- ==== Sys2Proof/Machine/Matrix.lean ====
section
/-! DEFINITION. The matrix engine (spec/12_matrix_instructions.md, R248 to R270): gangs, the rendezvous latch, operations, and
accumulator management. -/

namespace Sys2Proof.Machine

/-! ## Accumulator tiles -/

/-- The key of an accumulator element (R248). -/
def accKey (k r c : Nat) : Nat := 6144 * k + 64 * r + c

/-- An element of a tile; an unlisted element is +0. -/
def Team.accAt (t : Team) (k r c : Nat) : Lane := t.acc.getD (accKey k r c) 0

/-- Write an element. -/
def Team.setAcc (t : Team) (k r c : Nat) (v : Lane) : Team := { t with acc := t.acc.putD 0 (accKey k r c) v }

/-- The 8-byte unit of an element. -/
def accUnit (k r c : Nat) : Nat := accKey k r c / 2

/-- Poison or clear accumulator units. -/
def Team.markAcc (t : Team) (us : List Nat) (b : Bool) : Team :=
  { t with accPoison := if b then us.foldl insertNat t.accPoison else t.accPoison.filter (fun u => !(us.contains u)) }

/-! ## Operands -/

/-- Bytes of one row of A (Table 12.1). -/
def rowBytes (fmt : Nat) : Nat := if fmt = 1 then 48 else 32

/-- `n(W)`: the registers of the A slice. -/
def sliceRegs (fmt w : Nat) : Nat := 16 * rowBytes fmt / (4 * w)

/-- Bytes of one column of B (Table 12.1). -/
def colBytes (fmt : Nat) : Nat := if fmt = 1 then 64 else 32

/-- Bytes of a column that are read. -/
def colUsed (fmt : Nat) : Nat := if fmt = 1 then 48 else 32

/-- Has the format scales (Table 12.1)? -/
def scaled (fmt : Nat) : Bool := fmt ≤ 2

/-- Blocks of one operation along K. -/
def blocksOf (fmt : Nat) : Nat := if fmt = 1 then 2 else 1

/-- Positions of one block. -/
def blockLen (fmt : Nat) : Nat := if fmt ≤ 2 then 32 else 16

/-- Registers from VA on that an operation reads beside its slice, as offsets from VA + n (Table 12.2). -/
def extraRegs (fmt w : Nat) (sparse : Bool) : List Nat :=
  (if scaled fmt then [0, 1] else []) ++ (if sparse then [2] else []) ++ (if fmt = 1 && w = 16 then [3] else [])
    ++ (if fmt = 1 && w = 16 && sparse then [4] else [])

/-- The registers from VA to the highest one read (R253). -/
def regSpan (fmt w : Nat) (sparse : Bool) : Nat := sliceRegs fmt w + (extraRegs fmt w sparse).foldl (fun a k => max a (k + 1)) 0

/-- R251: the byte stream of the slice that begins at register `va`. -/
def Thread.sliceBytes (t : Thread) (fmt va : Nat) : List Nat :=
  (upto (16 * rowBytes fmt)).map (fun b =>
    (t.regs.v (va + b / (4 * t.width)) (b / 4 % t.width)).toNat / 2 ^ (8 * (b % 4)) % 256)

/-- Element `e` of a row or column of bytes (R251, R252). -/
def elemOf (fmt : Nat) (bs : List Nat) (e : Nat) : FVal :=
  match fmt with
  | 0 => Fmt.decode .zt8 (nth bs e 0)
  | 1 =>
    let g := nth bs (3 * (e / 4)) 0 + 256 * nth bs (3 * (e / 4) + 1) 0 + 65536 * nth bs (3 * (e / 4) + 2) 0
    Fmt.decode .zt6 (g / 2 ^ (6 * (e % 4)) % 64)
  | 2 => ofInteger (signedOf 8 (nth bs e 0))
  | 3 => Fmt.decode .b16 (nth bs (2 * e) 0 + 256 * nth bs (2 * e + 1) 0)
  | _ => Fmt.decode .f16 (nth bs (2 * e) 0 + 256 * nth bs (2 * e + 1) 0)

/-- A byte of a lane. -/
def Thread.vbyte (t : Thread) (k l i : Nat) : Nat := (t.regs.v k l).toNat / 2 ^ (8 * i) % 256

/-- Table 8.4: the A scales of a member, row by row and block by block. -/
def Thread.aScales (t : Thread) (fmt va bsel : Nat) : List Nat :=
  (upto 16).flatMap (fun r => (upto (blocksOf fmt)).map (fun j => t.vbyte (va + sliceRegs fmt t.width) r (bsel ^^^ j)))

/-- Table 8.4: the B scales of a member, column by column and block by block. -/
def Thread.bScales (t : Thread) (fmt va : Nat) : List Nat :=
  let n := sliceRegs fmt t.width
  (upto 64).flatMap (fun c => (upto (blocksOf fmt)).map (fun j =>
    if j = 0 then t.vbyte (va + n + 1) (c % 16) (c / 16)
    else if t.width = 16 then t.vbyte (va + n + 3) (c % 16) (c / 16)
    else t.vbyte (va + n + 1) (16 + c % 16) (c / 16)))

/-- Table 12.2: the position masks of a member, row by row and block by block. -/
def Thread.posMasks (t : Thread) (fmt va : Nat) : List Nat :=
  let n := sliceRegs fmt t.width
  (upto 16).flatMap (fun r => (upto (blocksOf fmt)).map (fun j =>
    if j = 0 then (t.regs.v (va + n + 2) r).toNat
    else if t.width = 16 then (t.regs.v (va + n + 4) r).toNat
    else (t.regs.v (va + n + 2) (16 + r)).toNat))

/-- R260: the positions of a block that are present: the `n` lowest set bits of the mask. -/
def present (mask n len : Nat) : List Nat := ((upto len).filter mask.testBit).take n

/-! ## One operation -/

/-- R175: update one element with every block of the operation. -/
def updateElem (o : MatOp) (row col : List Nat) (sa sb masks : List Nat) (acc : Lane) : Lane :=
  (upto (blocksOf o.fmt)).foldl (fun (acc : Lane) j =>
    let len := blockLen o.fmt
    let pos := if o.sparse then present (nth masks j 0) (if o.sp then 8 else 16) len else upto len
    let terms := pos.map (fun e => (elemOf o.fmt row (len * j + e), elemOf o.fmt col (len * j + e)))
    let scale : Option Int :=
      if scaled o.fmt then
        (if nth sa j 0 = 255 || nth sb j 0 = 255 then none else some (((nth sa j 0 + nth sb j 0 : Nat) : Int) - 254))
      else some 0
    BitVec.ofNat 32 (blockUpdate (!(scaled o.fmt)) terms scale acc.toNat)) acc

/-- The `n` elements of a list that begin at place `i * n`. -/
def chunk (l : List Nat) (n i : Nat) : List Nat := (l.drop (n * i)).take n

/-- R259: the operation updates rows 0 to 16 g - 1 of its tile. -/
def Team.perform (t : Team) (j : MatJob) : Team :=
  let o := j.op
  let b := blocksOf o.fmt
  let cols := (upto 64).map (fun c => t.sbytes o.bswz (o.badr + c * colBytes o.fmt) (colUsed o.fmt))
  (upto j.members.length).foldl (fun (t : Team) p =>
    (upto 16).foldl (fun (t : Team) r =>
      let row := chunk (nth j.slices p []) (rowBytes o.fmt) r
      (upto 64).foldl (fun (t : Team) c =>
        t.setAcc o.acc (16 * p + r) c (updateElem o row (nth cols c []) (chunk (nth j.ascale p []) b r)
          (chunk (nth j.bscale p []) b c) (chunk (nth j.masks p []) b r) (t.accAt o.acc (16 * p + r) c))) t) t) t

/-- R262, check 4: poison in a register, in B, or in the target rows. -/
def Team.jobPoisoned (t : Team) (j : MatJob) : Bool :=
  j.poisoned
    || (upto 64).any (fun c => t.spoisoned j.op.bswz (j.op.badr + c * colBytes j.op.fmt) (colUsed j.op.fmt))
    || t.accPoison.any (fun u => accKey j.op.acc 0 0 ≤ 2 * u && 2 * u < accKey j.op.acc (16 * j.members.length) 0)

/-- MXE_OPERATION, R267: the engine of a core performs the oldest operation it has accepted. Poison leaves the tile and raises cause 0x10 on
every member, before its next clause issues (R262). -/
def execMxeOperation (core : Nat) (s : State) : Out :=
  .next (
    match (s.core core).mxq with
    | [] => s
    | j :: rest =>
      let s := s.mapCore core (fun c => { c with mxq := rest })
      if (s.team j.team).jobPoisoned j then
        j.members.foldl (fun (s : State) k => s.defer k ⟨0x10, 1, 0, (s.thread k).active, 0, false, none, none⟩) s
      else s.mapTeam j.team (fun t => t.perform j))

/-! ## The rendezvous latch -/

/-- The threads of the current thread's team, by group number: the key of each resident group. -/
def State.members (s : State) (team : Nat) : List (Nat × Nat) :=
  (s.work.threads.filter (fun p => p.2.kind = .group && p.2.ident.team == team && p.2.status != .vacant)).map
    (fun p => (p.2.ident.gnum, p.1))

/-- The key of a group of a team. -/
def State.groupOf (s : State) (team g : Nat) : Option Nat := ((s.members team).find? (fun p => p.1 == g)).map (·.2)

/-- The operation with which a group waits in the latch. -/
def Thread.latched (t : Thread) : Option MatOp :=
  match t.wait with
  | .latch o => if t.status = .running then some o else none
  | _ => none

/-- The groups of a gang mask, in rising order. -/
def gangGroups (g : Nat) : List Nat := (upto 32).filter g.testBit

/-- Trap every waiting group of a team whose gang register is one of `gs` (R257). -/
def State.gangTrap (s : State) (team : Nat) (gs : List Nat) (cause reason : Nat) : State :=
  (s.members team).foldl (fun (s : State) m =>
    let t := s.thread m.2
    if t.latched.isSome && gs.contains t.gang then s.trap m.2 ⟨cause, reason, 0, t.active, 0, false, t.here⟩ else s) s

/-- R257, case 3: the gang registers of the waiting groups of the team that disagree about the gang with this one. -/
def State.disagrees (s : State) (team : Nat) (t : Thread) : List Nat :=
  (s.members team).filterMap (fun m =>
    let u := s.thread m.2
    if u.latched.isSome && u.gang != t.gang && (t.gang.testBit m.1 || u.gang.testBit t.ident.gnum) then some u.gang else none)

/-- What an operation reads of a member's vector registers: the slice unless the latch serves it, scales and masks. -/
def Thread.matRegs (t : Thread) (o : MatOp) (held : Bool) : List Nat :=
  (if held then [] else (upto (sliceRegs o.fmt t.width)).map (fun i => o.va + i))
    ++ (extraRegs o.fmt t.width o.sparse).map (fun i => o.va + sliceRegs o.fmt t.width + i)

/-- R261: the reuse latch holds the slice of this operation. -/
def Thread.reuses (t : Thread) (fmt va : Nat) : Option Reuse :=
  match t.reuse with
  | some r => if r.va = va && r.fmt = fmt then some r else none
  | none => none

/-- The slice of a member: from the reuse latch, or from its registers (R261). -/
def Thread.slice (t : Thread) (o : MatOp) : List Nat :=
  match t.reuses o.fmt o.va with
  | some r => r.bytes
  | none => t.sliceBytes o.fmt o.va

/-- Is any register the operation reads poisoned? -/
def Thread.matPoison (t : Thread) (o : MatOp) : Bool :=
  (t.matRegs o (t.reuses o.fmt o.va).isSome).any (fun k => (upto t.width).any (fun l => t.regs.vPoison.contains (64 * k + l)))

/-- R256: do two members' operations agree? -/
def MatOp.agrees (a b : MatOp) : Bool :=
  a.sparse == b.sparse && a.fmt == b.fmt && a.acc == b.acc && a.sp == b.sp && a.badr == b.badr && a.bswz == b.bswz

/-- R256: acceptance reads every member's operands, and every member goes on with its next word (R269). -/
def State.accept (s : State) (team : Nat) (o : MatOp) (ks : List Nat) : State :=
  let ops := ks.map (fun k => (s.thread k, ((s.thread k).latched.getD o)))
  let job : MatJob :=
    { team := team, op := o, members := ks, slices := ops.map (fun p => p.1.slice p.2),
      ascale := ops.map (fun p => p.1.aScales o.fmt p.2.va p.2.bsel), bscale := ops.map (fun p => p.1.bScales o.fmt p.2.va),
      masks := ops.map (fun p => if o.sparse then p.1.posMasks o.fmt p.2.va else []),
      poisoned := ops.any (fun p => p.2.bad || p.1.matPoison p.2) }
  let s := s.mapCore (s.team team).core (fun c => { c with mxq := c.mxq ++ [job] })
  ks.foldl (fun (s : State) k => s.mapThread k (fun t =>
    let op := t.latched.getD o
    (({ t with wait := .none, reuse := if op.reuse then some ⟨op.va, op.fmt, t.slice op⟩ else none }).endRegion true).advance)) s

/-- R256, R262: is a gang complete, and do its members' operations pass the checks before acceptance? Its members, where it is. -/
def State.acceptable (s : State) (team gang : Nat) (o : MatOp) : Option (List Nat) :=
  let gs := gangGroups gang
  let ks := gs.filterMap (s.groupOf team)
  let op (k : Nat) : Option MatOp := if (s.thread k).gang = gang then (s.thread k).latched else none
  if ks.length = gs.length && ks.all (fun k => match op k with
      | some p => p.agrees o
      | none => false)
      && o.badr % 128 = 0 && (s.team team).holds o.badr (63 * colBytes o.fmt + colUsed o.fmt) then some ks else none

/-- R267: the complete gangs that wait in a core's latch, each by its lowest group: number, key and members. -/
def State.complete? (s : State) (core : Nat) : List (Nat × Nat × List Nat) :=
  (upto 32).filterMap (fun sl =>
    let k := groupKey core sl
    let t := s.thread k
    match t.latched with
    | some o =>
      if gangGroups t.gang |>.head? |>.any (· == t.ident.gnum) then
        (s.acceptable t.ident.team t.gang o).map (fun ks => (t.ident.gnum, k, ks))
      else none
    | none => none)

/-- The complete gang that is accepted first: the one whose lowest group has the lowest number (R267). -/
def firstGang : List (Nat × Nat × List Nat) → Option (Nat × Nat × List Nat)
  | [] => none
  | g :: r => match firstGang r with
    | some h => if h.1 < g.1 then some h else some g
    | none => some g

/-- A place of the engine's queue goes to the complete gang that comes first. -/
def State.acceptFirst (s : State) (core : Nat) : State :=
  match firstGang (s.complete? core) with
  | some (_, k, ks) => match (s.thread k).latched with
    | some o => s.accept (s.thread k).ident.team o ks
    | none => s
  | none => s

/-- R256, R257, R262: what the latch does with the gang of the current thread, which waits in it. -/
def State.rendezvous (s : State) (o : MatOp) : State :=
  let t := s.th
  let team := t.ident.team
  let gs := gangGroups t.gang
  let ks := gs.filterMap (s.groupOf team)
  let other := s.disagrees team t
  if t.gang = 0 then s.gangTrap team [0] 0x0B 2
  else if !other.isEmpty then s.gangTrap team (t.gang :: other) 0x0B 3
  else if ks.any (fun k => (s.thread k).status = .ended) || ks.length < gs.length then s.gangTrap team [t.gang] 0x0B 4
  else if ks.all (fun k => (s.thread k).latched.isSome && (s.thread k).gang == t.gang) then
    if !(ks.all (fun k => (((s.thread k).latched).getD o).agrees o)) then s.gangTrap team [t.gang] 0x0B 5
    else if o.badr % 128 ≠ 0 then s.gangTrap team [t.gang] 0x06 0
    else if !((s.team team).holds o.badr (63 * colBytes o.fmt + colUsed o.fmt)) then s.gangTrap team [t.gang] 0x08 6
    else if (s.core t.ident.core).mxq.length < 4 then s.acceptFirst t.ident.core
    else s
  else s

/-- The operation a word names, with the B descriptor in its scalar (R252). -/
def matOp (sparse : Bool) (fmt acc : Nat) (sp : Bool) (desc : Word) (va bsel : Nat) (reuse bad : Bool) : MatOp :=
  ⟨sparse, fmt, acc, sp, bitsAt desc 0 19, bitsAt desc 20 2, va, bsel, reuse, bad⟩

/-- MMA and MMAS (R253, R254, R256): the group enters the latch, behind no acquire that has not landed (R268, R283), and waits there
until its gang is accepted or traps. A poisoned descriptor is consumed by the engine, as the other registers are (R262). -/
def State.matrixWord (s : State) (sparse : Bool) (fmt acc : Nat) (sp : Bool) (a b : BitVec 7) (reuse : Bool) (bsel : Nat)
    (x y : Bool) : State :=
  s.issue (fun t =>
      { role := .gang, illegal := t.badV a (regSpan fmt t.width sparse),
        reads := ((t.matRegs (matOp sparse fmt acc sp 0 a.toNat bsel reuse false) (t.reuses fmt a.toNat).isSome).map
            (fun k => ⟨true, k, x && k == a.toNat, false⟩)) ++ [{ t.srcS b y with consumed := false }] })
    (fun s =>
      match s.th.latched with
      | some o => .moved (s.rendezvous o)
      | none =>
        if s.th.acqPending then .stay s
        else
          let o := matOp sparse fmt acc sp (s.th.valS b) a.toNat bsel reuse (s.th.regs.sPoison.contains (s.th.abs b))
          .moved ((s.mapTh (fun t => { t with wait := .latch o })).rendezvous o))

/-- MMA, R259. -/
def execMma (f c : BitVec 3) (a b : BitVec 7) (r : Bool) (e : BitVec 2) (x y : Bool) (s : State) : Out :=
  .next (s.matrixWord false f.toNat c.toNat false a b r e.toNat x y)

/-- MMAS, R260. -/
def execMmas (f c : BitVec 3) (a b : BitVec 7) (r : Bool) (e : BitVec 2) (p x y : Bool) (s : State) : Out :=
  .next (s.matrixWord true f.toNat c.toNat p a b r e.toNat x y)

/-- R255: is a gang mask acceptable for the thread? -/
def State.gangOk (s : State) (t : Thread) (g : Nat) : Bool :=
  let gs := gangGroups g
  g == 0 || (2 ≤ gs.length && gs.length ≤ 6 && g.testBit t.ident.gnum
    && gs.all (fun n => decide (n < s.tm.groups) &&
        match s.groupOf t.ident.team n with
        | some k => (s.thread k).ident.role == 1
        | none => false))

/-- MGANG, R255. -/
def execMgang (a : BitVec 7) (x : Bool) (s : State) : Out :=
  .next (s.issue (fun t => { role := .gang, reads := [t.srcS a x] })
    (fun s =>
      let g := bitsAt (s.th.valS a) 0 32
      if s.gangOk s.th g then .done (s.mapTh (fun t => { t with gang := g, reuse := none }))
      else .moved (s.trapHere 0x0B 1)))

/-! ## Accumulator management -/

/-- R267: an instruction of the engine is performed once everything accepted before it has been. -/
def State.engineIdle (s : State) : Bool := (s.core s.th.ident.core).mxq.isEmpty

/-- An accumulator word: it waits for the operations accepted before it. -/
def State.tileWord (s : State) (need : Thread → Need) (body : State → Res) : State :=
  s.issue need (fun s => if s.engineIdle then body s else .stay s)

/-- MZERO, R263. -/
def execMzero (c : BitVec 3) (s : State) : Out :=
  .next (s.tileWord (fun _ => { role := .tile, ends := true })
    (fun s =>
      let lo := accKey c.toNat 0 0
      let inTile (k : Nat) : Bool := lo ≤ k && k < lo + 6144
      .done (s.mapTeam s.th.ident.team (fun t =>
        { t with acc := t.acc.filter (fun p => !(inTile p.1)), accPoison := t.accPoison.filter (fun u => !(inTile (2 * u))) }))))

/-- MACCR, R264: the values are those of every operation accepted before it; they land later. -/
def execMaccr (d : BitVec 7) (c : BitVec 3) (b : BitVec 7) (y : Bool) (s : State) : Out :=
  .next (s.tileWord (fun t =>
      { role := .tile, illegal := t.badDest d 4, reads := [t.srcS b y], vdests := destsV d 4 })
    (fun s =>
      let t := s.th
      let m := s.tm
      let r0 := bitsAt (t.valS b) 0 7
      let c0 := bitsAt (t.valS b) 8 6
      let cells := (upto 4).flatMap (fun j => (upto t.width).map (fun l => (j, l)))
      let inside (p : Nat × Nat) : Bool := r0 + p.2 < 96 && c0 + p.1 < 64
      let dest (p : Nat × Nat) : Dest := .v (d.toNat + p.1) p.2
      let pr := { t.producer Form.none [] (destsV d 4) with
        vals := cells.map (fun p =>
          (dest p, if inside p then (m.accAt c.toNat (r0 + p.2) (c0 + p.1)).zeroExtend 64 else 0)),
        poison := (cells.filter (fun p =>
          inside p && m.accPoison.contains (accUnit c.toNat (r0 + p.2) (c0 + p.1)))).map dest }
      .done (s.mapTh (fun t => t.produce pr))))

/-- MACCW, R265. A unit takes the poison of what is written to it; a unit written whole with clean data loses its own (R83). -/
def execMaccw (c : BitVec 3) (a b : BitVec 7) (x y : Bool) (s : State) : Out :=
  .next (s.tileWord (fun t =>
      { role := .tile, ends := true, illegal := t.badV a 4,
        reads := ⟨true, a.toNat, x, false⟩ :: (upto 3).map (fun i => ⟨true, a.toNat + 1 + i, false, false⟩) ++ [t.srcS b y] })
    (fun s =>
      let t := s.th
      let r0 := bitsAt (t.valS b) 0 7
      let c0 := bitsAt (t.valS b) 8 6
      let cells := ((upto t.width).flatMap (fun l => (upto 4).map (fun j => (j, l)))).filter
        (fun p => r0 + p.2 < 96 && c0 + p.1 < 64)
      let written := cells.map (fun p => accKey c.toNat (r0 + p.2) (c0 + p.1))
      let bad := cells.filter (fun p => t.regs.vPoison.contains (64 * (a.toNat + p.1) + p.2))
      .done (s.mapTeam t.ident.team (fun m =>
        let m := cells.foldl (fun (m : Team) p =>
          m.setAcc c.toNat (r0 + p.2) (c0 + p.1) (t.regs.v (a.toNat + p.1) p.2)) m
        let whole := (written.filter (fun k => k % 2 == 0 && written.contains (k + 1))).map (· / 2)
        (m.markAcc whole false).markAcc (bad.map (fun p => accUnit c.toNat (r0 + p.2) (c0 + p.1))) true))))

/-- R266: the rows that MACCST and MACCLD move. -/
def tileRows (v : Word) : List Nat :=
  let r0 := bitsAt v 24 7
  (upto (min (r0 + bitsAt v 32 7) 96 - r0)).map (fun i => r0 + i)

/-- R266: the checks of MACCST and MACCLD, then the move, which is made after every acquire of the group (R268, R283). -/
def State.tileMove (s : State) (c : BitVec 3) (a : BitVec 7) (x ends : Bool) (f : Team → Nat → Nat → Nat → Nat → Team) :
    State :=
  s.tileWord (fun t => { role := .tile, ends := ends, reads := [t.srcS a x] })
    (fun s =>
      let v := s.th.valS a
      let adr := bitsAt v 0 19
      let rows := tileRows v
      if s.th.acqPending then .stay s
      else if adr % 128 ≠ 0 then .moved (s.trapHere 0x06 0)
      else if !rows.isEmpty && !(s.tm.holds adr (256 * rows.length)) then .moved (s.trapHere 0x08 6)
      else .done (s.mapTeam s.th.ident.team (fun m =>
        rows.foldl (fun (m : Team) i => f m c.toNat i (bitsAt v 20 2) (adr + 256 * (i - bitsAt v 24 7))) m)))

/-- One row of a tile to the scratchpad. -/
def Team.storeRow (m : Team) (k r mode adr : Nat) : Team :=
  (upto 32).foldl (fun (m : Team) u =>
    let bs := toBytes (m.accAt k r (2 * u)).toNat 4 ++ toBytes (m.accAt k r (2 * u + 1)).toNat 4
    m.storeScratch mode (adr + 8 * u) bs (if m.accPoison.contains (accUnit k r (2 * u)) then 255 else 0)) m

/-- One row of a tile from the scratchpad. -/
def Team.loadRow (m : Team) (k r mode adr : Nat) : Team :=
  (upto 32).foldl (fun (m : Team) u =>
    let w (i : Nat) : Lane := BitVec.ofNat 32 (ofBytes (m.sbytes mode (adr + 8 * u + 4 * i) 4))
    let poison := m.scratchPoison.contains (sunit mode (adr + 8 * u))
    ((m.setAcc k r (2 * u) (w 0)).setAcc k r (2 * u + 1) (w 1)).markAcc [accUnit k r (2 * u)] poison) m

/-- MACCST, R266. -/
def execMaccst (c : BitVec 3) (a : BitVec 7) (x : Bool) (s : State) : Out :=
  .next (s.tileMove c a x false Team.storeRow)

/-- MACCLD, R266. -/
def execMaccld (c : BitVec 3) (a : BitVec 7) (x : Bool) (s : State) : Out :=
  .next (s.tileMove c a x true Team.loadRow)

end Sys2Proof.Machine
end

