-- ==== Sys2Proof/Machine/Outside.lean ====
section
/-! DEFINITION. The outside (spec/19_partitions_security_links.md, R404, R410 to R414; spec/01_memory_and_homes.md, R37): messages
to and from other nodes, the ports, the links, power, and the reset of the package. -/

namespace Sys2Proof.Machine

/-! ## Sending (R413) -/

/-- Does a SEND name a package of this node? Other packages of the node are outside this model (log entry 16). -/
def State.ownNodeSend (s : State) (c : Cmd) : Bool := bitsAt (c.w 1) 16 10 == s.ownNode

/-- SEND, R413: the payload is read in the issuer's address space, and the message leaves on the destination's port. Whether another
node receives it is open (log entry 20). -/
def execSend (cmd : Nat) (s : State) : Out :=
  s.onCmd cmd 0x70 (fun c => c.q = 7 && c.st = .queued && s.firstOfIssuer c) (fun s c =>
    match s.engRead c.space (s.engineMid c) (c.w 2).toNat (c.w 3).toNat with
    | .busy q => s.await q
    | .fault s cause reason va =>
      if parks cause reason then s.parkCmd c cause reason 0 va else s.putCmd (c.finish [BitVec.ofNat 64 2])
    | .ok s bs =>
      if refused bs then s.putCmd (c.finish [2])
      else if s.ownNodeSend c || (s.sendPort c).isNone then s.putCmd (c.finish [1])
      else s.tick.putCmd (c.finish [if Config.reaches s.free then 0 else 1]))

/-! ## Receiving (R413) -/

/-- The partition that owns an Ethernet port. -/
def State.portPart (s : State) (port : Nat) : Option Nat := if port < 8 then s.partWith (48 + port) else none

/-- Is a receive ring enabled? -/
def NetRx.enabled (n : NetRx) : Bool := n.rxa.getLsbD 0

/-- Is every slot of a ring taken? -/
def NetRx.isFull (n : NetRx) : Bool := 2 ^ bitsAt n.rx 0 4 ≤ (n.rxh + 2 ^ 32 - n.rxt) % 2 ^ 32

/-- The virtual address of the next slot. -/
def NetRx.slot (n : NetRx) : Nat := bitsAt n.rx 12 44 * 4096 + 4096 * (n.rxh % 2 ^ bitsAt n.rx 0 4)

/-- The space in which the network engine writes a ring: its walks and writes are those of the port's master. -/
def NetRx.space (n : NetRx) (port : Nat) : Space := ⟨n.rxa, bitsAt n.rxs 0 16, true, [], 4, 648 + port⟩

/-- Table 19.7: the header of a received message. -/
def Mail.header (m : Mail) (armed : Bool) (seq : Nat) : List Nat :=
  toBytes m.tag 4 ++ toBytes m.node 2 ++ toBytes m.pkg 1 ++ [bit armed] ++ toBytes m.payload.length 4 ++ toBytes seq 4
    ++ List.replicate 48 0

/-- R328, R368: an arm fires: its launch proceeds as LAUNCH, with the payload's address for its argument block. -/
def State.fire (s : State) (a : Arm) (payload port : Nat) : State :=
  let s := { s with svc := { s.svc with arms := s.svc.arms.filter (fun b => !(b == a)) } }
  (s.acceptCmd { a.cmd with id := s.svc.cmdNext, recs := [BitVec.ofNat 64 payload, BitVec.ofNat 64 port] }).1

/-- R160: would the firing of an arm take its issuer's wait counter above 1,023? The message then waits at its port (log entry 43). -/
def State.fireWaits (s : State) (a : Arm) : Bool :=
  a.cmd.sigt == 1 && (match s.pusher a.cmd with
    | some k => 1023 ≤ (s.thread k).wc.getD a.cmd.sigx 0
    | none => s.work.saved.any (fun p => p.2.thread.ident.team == a.cmd.team && p.2.thread.ident.gnum == a.cmd.gnum
        && 1023 ≤ p.2.thread.wc.getD a.cmd.sigx 0))

/-- The message that a port writes next. -/
def State.nextMail (s : State) (port : Nat) : Option Mail := s.svc.portWait.find? (fun m => m.port == port)

/-- Drop the message that a port writes next. -/
def State.dropMail (s : State) (port : Nat) : State :=
  match placeOf (fun m : Mail => m.port == port) s.svc.portWait 0 with
  | some i => { s with svc := { s.svc with portWait := dropNth s.svc.portWait i } }
  | none => s

/-- The message is in its slot: the count advances, and an arm fires or bit 3 is set. -/
def State.received (s : State) (part : Nat) (m : Mail) (arm : Option Arm) (slot : Nat) : State :=
  let s := (s.dropMail m.port).mapNet part (fun n => { n with rxh := (n.rxh + 1) % 2 ^ 32 })
  match arm with
  | some a => s.fire a (slot + 64) m.port
  | none => s.interrupt part 3

/-- A port writes its next message where the ring has a free slot. A fault on the ring pauses the port until the handler answers
its record. -/
def State.deliverMail (s : State) (port : Nat) : State :=
  match s.portPart port, s.nextMail port with
  | some part, some m =>
    let n := s.netOf part
    if m.token.isSome || !n.enabled || n.isFull then s
    else
      let arm := s.svc.arms.find? (fun a => a.part == part && a.tag == m.tag)
      let bs := m.header arm.isSome n.rxh ++ m.payload
      if (arm.map s.fireWaits).getD false then s
      else
      (match s.engWrite (n.space port) (648 + port) n.slot bs with
      | .ok s _ => s.received part m arm n.slot
      | .busy q => s.await q
      | .fault s cause reason va =>
        if !(s.recordRoom 4 1) then s
        else
          let s := s.report part 4
            ⟨3, cause, reason, 648 + port, 0, 1, bitsAt n.rxs 0 16, BitVec.ofNat 64 va, 0, 0, BitVec.ofNat 64 (7 * 2 ^ 60), 0, 0⟩
            (.port port)
          let token := s.lastToken part
          { s with svc := { s.svc with portWait := s.svc.portWait.map (fun x =>
              if x == m then { x with token := some token } else x) } })
  | _, _ => s

/-- ETH_MESSAGE_RECEIVE, R413: a message arrives on a port; a partition whose ring is not enabled receives nothing. -/
def execEthMessageReceive (port tag node pkg : Nat) (payload : List Nat) (s : State) : Out :=
  .next (match s.portPart port with
    | none => s
    | some part =>
      if !((s.netOf part).enabled) || payload.isEmpty || 4032 < payload.length then s
      else
        let m : Mail := ⟨port, tag % 2 ^ 32, node % 2 ^ 10, pkg % 8, payload, none⟩
        { s with svc := { s.svc with portWait := s.svc.portWait ++ [m] } }.deliverMail port)

/-! ## PCIe and CXL -/

/-- The port of a PCIe/CXL function (Table 1.8). -/
def portOfFunction (mid : Nat) : Option Nat := if 1024 ≤ mid && mid < 4096 then some ((mid - 1024) / 768) else none

/-- A function reads or writes bytes of one line of memory; a refused access is answered with Completer Abort. One that its home does
not serve yet is still to come: it is performed when the event comes again. -/
def State.functionAccess (s : State) (mid : Nat) (pa : Word) (write : Bool) (bytes : List Nat) : State :=
  match s.vet mid (if write then .write else .read) pa with
  | .error _ => s
  | .ok a =>
    if bytes.isEmpty || 128 < a % 128 + bytes.length || s.windowHeld pa then s
    else if write then (if s.pokeReady a bytes.length then s.poke a (keyOf pa) bytes mid else s)
    else if s.lineBusy ((s.steer a 0).1 / 128) then s
    else s.readAt a (keyOf pa) bytes.length mid

/-- PCIE_FUNCTION_REQUEST, R37, R402: checked at its target, and performed or refused. A configuration access reaches no register
that the manual gives a function. -/
def execPcieFunctionRequest (mid : Nat) (pa : BitVec 64) (write : Bool) (config : Bool) (bytes : List Nat) (s : State) : Out :=
  .next (if (portOfFunction mid).isNone || config then s
    else if isMmio pa then (if write then s.mmioWrite mid pa bytes.length (ofBytes bytes) else s)
    else s.functionAccess mid pa write bytes)

/-- CXL_DOORBELL, R411, R404: bit 2 on the interrupt thread of the port's partition. -/
def execCxlDoorbell (port : Nat) (s : State) : Out :=
  .next (match (if port < 4 then s.partWith (44 + port) else none) with
    | some p => s.interrupt p 2
    | none => s)

/-- CXL_MEM_REQUEST, R411: the external host's request in the class 4 range that `CXL.T2` of the port gives, as one of the port's
functions. -/
def execCxlMemRequest (port mid key offset : Nat) (write : Bool) (bytes : List Nat) (s : State) : Out :=
  .next (
    let v := s.pkg.cxlT2.getD port 0
    let base := bitsAt v 30 16 * 2 ^ 30
    let pa : Word := setBits (setBits (setBits (setBits 0 52 10 key) 49 3 s.ownPkg) 46 3 4) 0 46 offset
    if portOfFunction mid = some port && v.getLsbD 63 && base ≤ offset && offset + bytes.length ≤ base + bitsAt v 14 16 * 2 ^ 30 then
      s.functionAccess mid pa write bytes
    else s)

/-! ## Links, power, notices -/

/-- LINK_TRAINING_FAILURE, R412: the link is fenced; its traffic goes over two hops, and no request is refused. -/
def execLinkTrainingFailure (link : Nat) (s : State) : Out :=
  .next { s with pkg := { s.pkg with links := eraseNat s.pkg.links link } }

/-- POWER_THROTTLE, R414: clocks are lowered, which changes timing only, and bit 5 is set for every partition. -/
def execPowerThrottle (s : State) : Out := .next ((upto 4).foldl (fun (s : State) p => s.interrupt p 5) s)

/-- ROOT_OF_TRUST_NOTICE, R404. -/
def execRootOfTrustNotice (part : Nat) (s : State) : Out := .next (if part < 4 then s.interrupt part 4 else s)

/-- R95: a router fails its self-test, which takes its die out of service whole. The test is made while nothing runs on the die. -/
def State.routerFails (s : State) (die router : Nat) : State :=
  let busy := s.work.threads.any (fun p => isGroupKey p.1 && dieOf p.2.ident.core == die && p.2.status != .vacant)
    || s.mem.net.any (fun m => classOf (128 * m.line) == die) || s.svc.cmds.any (fun c => c.die == die)
  if 4 ≤ die || 50 ≤ router || busy then s
  else
    let r := s.pkg.routers.getD (50 * die + router) (Router.reset router)
    { s with pkg := { s.pkg with
        routers := s.pkg.routers.put (50 * die + router) { r with failed := true }, deadDies := insertNat s.pkg.deadDies die } }

/-! ## Reset (R410) -/

/-- The digests of the firmware stages that run: those before the first whose verification fails. -/
def ranStages (stages : List (Bool × List Nat)) : List (List Nat) := (stages.takeWhile (·.1)).map (·.2)

/-- PACKAGE_RESET, R410: the state of reset, with the measured stages and `DSP.NODE` of the boot configuration. A stage that fails its
verification, which the event tells, leaves the package in reset. The installed modules stay, and a die with a router that has failed
its self-test stays out of service (R95). -/
def execPackageReset (node : Nat) (stages : List (Bool × List Nat)) (s : State) : Out :=
  let r := State.reset
  .next { r with
    svc := { r.svc with measure := ranStages stages },
    pkg := { r.pkg with
      node := BitVec.ofNat 64 node &&& 0x03FF0007, modules := s.pkg.modules, routers := s.pkg.routers,
      deadDies := (upto 4).filter (fun d => s.pkg.routers.any (fun r => r.1 / 50 == d && r.2.failed)), booted := stages.all (·.1) },
    agenda := s.agenda, turn := s.turn, free := s.free }

end Sys2Proof.Machine
end

