-- ==== Sys2Proof/Machine/Scalar.lean ====
section
/-! DEFINITION. Scalar instructions (spec/10_scalar_control_instructions.md, R201 to R211) -/

namespace Sys2Proof.Machine

/-- A scalar word of two sources under their policies (R201). -/
def State.scalar2 (s : State) (d a b : BitVec 7) (x y : Bool) (f : Word → Word → Word) : State :=
  s.issue (fun t => { distaff := true, reads := [t.srcS a x, t.srcS b y], sdests := [t.abs d] })
    (fun s => .done (s.setS d (f (s.th.valS a) (s.th.valS b))))

/-- A scalar word that reads its destination as a third source, which blocks (R201). -/
def State.scalar3 (s : State) (d a b : BitVec 7) (x y : Bool) (f : Word → Word → Word → Word) : State :=
  s.issue (fun t => { distaff := true, reads := [t.srcS a x, t.srcS b y, t.srcS d false], sdests := [t.abs d] })
    (fun s => .done (s.setS d (f (s.th.valS d) (s.th.valS a) (s.th.valS b))))

/-- A scalar word of one source (R201). -/
def State.scalar1 (s : State) (d a : BitVec 7) (x : Bool) (f : Word → Word) : State :=
  s.issue (fun t => { distaff := true, reads := [t.srcS a x], sdests := [t.abs d] })
    (fun s => .done (s.setS d (f (s.th.valS a))))

/-- A scalar floating-point word: the rounding mode is sampled at issue (R177). -/
def State.scalarF (s : State) (d a b : BitVec 7) (x y : Bool) (f : Mode → Word → Word → Word) : State :=
  s.issue (fun t => { distaff := true, reads := [t.srcS a x, t.srcS b y], sdests := [t.abs d] })
    (fun s => .done (s.setS d (f s.th.mode (s.th.valS a) (s.th.valS b))))

/-- The format a type bit selects: `.f32` or `.f64` (R209). -/
def fmtOf (t : Bool) : Fmt := if t then .f64 else .f32

/-- The source bits a type bit selects. -/
def fbits (t : Bool) (v : Word) : Nat := if t then v.toNat else v.toNat % 2 ^ 32

/-- Table 9.7: the codes of SFCVT. -/
def scalarCode (c : BitVec 2) : Code :=
  match c.toNat with
  | 0 => .flt .f32
  | 1 => .flt .f64
  | 2 => .int true 64
  | _ => .int false 64

/-- The high half of a product of two integers. -/
def mulHigh (a b : Int) : Word := BitVec.ofInt 64 (a * b / (2 ^ 64 : Nat))

/-- A field descriptor of R205: position, width and sign flag. -/
def fieldOf (b : Word) : Nat × Nat × Bool := (bitsAt b 0 6, bitsAt b 8 7, b.getLsbD 15)

/-- SADD, R203, Table 10.1. -/
def execSadd (d a b : BitVec 7) (x y : Bool) (s : State) : Out :=
  .next (s.scalar2 d a b x y (fun a b => a + b))

/-- SSUB, R203, Table 10.1. -/
def execSsub (d a b : BitVec 7) (x y : Bool) (s : State) : Out :=
  .next (s.scalar2 d a b x y (fun a b => a - b))

/-- SMUL, R203, Table 10.1. -/
def execSmul (d a b : BitVec 7) (x y : Bool) (s : State) : Out :=
  .next (s.scalar2 d a b x y (fun a b => a * b))

/-- SMULH, R203, Table 10.1. -/
def execSmulh (d a b : BitVec 7) (x y : Bool) (s : State) : Out :=
  .next (s.scalar2 d a b x y (fun a b => mulHigh a.toInt b.toInt))

/-- SMULHN, R203, Table 10.1. -/
def execSmulhn (d a b : BitVec 7) (x y : Bool) (s : State) : Out :=
  .next (s.scalar2 d a b x y (fun a b => mulHigh a.toNat b.toNat))

/-- SDIV, R204. -/
def execSdiv (d a b : BitVec 7) (x y : Bool) (s : State) : Out :=
  .next (s.scalar2 d a b x y (fun a b => BitVec.ofInt 64 (sdivmod a.toNat b.toNat).1))

/-- SDIVN, R204: a divisor of 0 gives 0. -/
def execSdivn (d a b : BitVec 7) (x y : Bool) (s : State) : Out :=
  .next (s.scalar2 d a b x y (fun a b => BitVec.ofNat 64 (a.toNat / b.toNat)))

/-- SREM, R204. -/
def execSrem (d a b : BitVec 7) (x y : Bool) (s : State) : Out :=
  .next (s.scalar2 d a b x y (fun a b => BitVec.ofInt 64 (sdivmod a.toNat b.toNat).2))

/-- SREMN, R204: a divisor of 0 gives the dividend. -/
def execSremn (d a b : BitVec 7) (x y : Bool) (s : State) : Out :=
  .next (s.scalar2 d a b x y (fun a b => BitVec.ofNat 64 (a.toNat % b.toNat)))

/-- SAND, R203, Table 10.1. -/
def execSand (d a b : BitVec 7) (x y : Bool) (s : State) : Out :=
  .next (s.scalar2 d a b x y (fun a b => a &&& b))

/-- SOR, R203, Table 10.1. -/
def execSor (d a b : BitVec 7) (x y : Bool) (s : State) : Out :=
  .next (s.scalar2 d a b x y (fun a b => a ||| b))

/-- SXOR, R203, Table 10.1. -/
def execSxor (d a b : BitVec 7) (x y : Bool) (s : State) : Out :=
  .next (s.scalar2 d a b x y (fun a b => a ^^^ b))

/-- SANDN, R203, Table 10.1. -/
def execSandn (d a b : BitVec 7) (x y : Bool) (s : State) : Out :=
  .next (s.scalar2 d a b x y (fun a b => a &&& ~~~b))

/-- SSHL, R203, Table 10.1. -/
def execSshl (d a b : BitVec 7) (x y : Bool) (s : State) : Out :=
  .next (s.scalar2 d a b x y (fun a b => a <<< (b.toNat % 64)))

/-- SSHR, R203, Table 10.1. -/
def execSshr (d a b : BitVec 7) (x y : Bool) (s : State) : Out :=
  .next (s.scalar2 d a b x y (fun a b => a >>> (b.toNat % 64)))

/-- SSRA, R203, Table 10.1. -/
def execSsra (d a b : BitVec 7) (x y : Bool) (s : State) : Out :=
  .next (s.scalar2 d a b x y (fun a b => a.sshiftRight (b.toNat % 64)))

/-- SROT, R203, Table 10.1. -/
def execSrot (d a b : BitVec 7) (x y : Bool) (s : State) : Out :=
  .next (s.scalar2 d a b x y (fun a b => a.rotateLeft (b.toNat % 64)))

/-- SMIN, R203, Table 10.1. -/
def execSmin (d a b : BitVec 7) (x y : Bool) (s : State) : Out :=
  .next (s.scalar2 d a b x y (fun a b => if b.toInt < a.toInt then b else a))

/-- SMAX, R203, Table 10.1. -/
def execSmax (d a b : BitVec 7) (x y : Bool) (s : State) : Out :=
  .next (s.scalar2 d a b x y (fun a b => if a.toInt < b.toInt then b else a))

/-- SMINN, R203, Table 10.1. -/
def execSminn (d a b : BitVec 7) (x y : Bool) (s : State) : Out :=
  .next (s.scalar2 d a b x y (fun a b => if b.toNat < a.toNat then b else a))

/-- SMAXN, R203, Table 10.1. -/
def execSmaxn (d a b : BitVec 7) (x y : Bool) (s : State) : Out :=
  .next (s.scalar2 d a b x y (fun a b => if a.toNat < b.toNat then b else a))

/-- SSEL, R203: reads its destination. -/
def execSsel (d a b : BitVec 7) (x y : Bool) (s : State) : Out :=
  .next (s.scalar3 d a b x y (fun d a b => if d ≠ 0 then a else b))

/-- SCLZ, R205. -/
def execSclz (d a : BitVec 7) (x : Bool) (s : State) : Out :=
  .next (s.scalar1 d a x (fun a => BitVec.ofNat 64 (clz 64 a.toNat)))

/-- SCTZ, R205. -/
def execSctz (d a : BitVec 7) (x : Bool) (s : State) : Out :=
  .next (s.scalar1 d a x (fun a => BitVec.ofNat 64 (ctz 64 a.toNat)))

/-- SPOPC, R205. -/
def execSpopc (d a : BitVec 7) (x : Bool) (s : State) : Out :=
  .next (s.scalar1 d a x (fun a => BitVec.ofNat 64 (popc 64 a.toNat)))

/-- SBFE, R205. -/
def execSbfe (d a b : BitVec 7) (x y : Bool) (s : State) : Out :=
  .next (s.scalar2 d a b x y (fun a b => let f := fieldOf b; BitVec.ofNat 64 (bitField 64 a.toNat f.1 f.2.1 f.2.2)))

/-- SBFI, R205: reads its destination, ignores S. -/
def execSbfi (d a b : BitVec 7) (x y : Bool) (s : State) : Out :=
  .next (s.scalar3 d a b x y (fun d a b => let f := fieldOf b; BitVec.ofNat 64 (bitInsert 64 d.toNat a.toNat f.1 f.2.1)))

/-- SSET, R206. -/
def execSset (c : BitVec 3) (d a b : BitVec 7) (x y : Bool) (s : State) : Out :=
  .next (s.scalar2 d a b x y (fun a b => bitW (icmp 64 c.toNat a.toNat b.toNat)))

/-- SADDI, R207. -/
def execSaddi (d a : BitVec 7) (i : BitVec 10) (s : State) : Out := .next (s.scalar1 d a false (fun a => a + simm10 i))

/-- SANDI, R207. -/
def execSandi (d a : BitVec 7) (i : BitVec 10) (s : State) : Out := .next (s.scalar1 d a false (fun a => a &&& simm10 i))

/-- SORI, R207. -/
def execSori (d a : BitVec 7) (i : BitVec 10) (s : State) : Out := .next (s.scalar1 d a false (fun a => a ||| simm10 i))

/-- SXORI, R207. -/
def execSxori (d a : BitVec 7) (i : BitVec 10) (s : State) : Out := .next (s.scalar1 d a false (fun a => a ^^^ simm10 i))

/-- SSHLI, R207. -/
def execSshli (d a : BitVec 7) (n : BitVec 6) (s : State) : Out := .next (s.scalar1 d a false (fun a => a <<< n.toNat))

/-- SSHRI, R207. -/
def execSshri (d a : BitVec 7) (n : BitVec 6) (s : State) : Out := .next (s.scalar1 d a false (fun a => a >>> n.toNat))

/-- SSRAI, R207. -/
def execSsrai (d a : BitVec 7) (n : BitVec 6) (s : State) : Out := .next (s.scalar1 d a false (fun a => a.sshiftRight n.toNat))

/-- SMOVI, R208. -/
def execSmovi (d : BitVec 7) (i : BitVec 19) (s : State) : Out :=
  .next (s.issue (fun t => { distaff := true, sdests := [t.abs d] }) (fun s => .done (s.setS d (simm19 i))))

/-- SHIGH, R208: reads its destination. -/
def execShigh (d : BitVec 7) (i : BitVec 19) (s : State) : Out :=
  .next (s.scalar1 d d false (fun v => (v <<< (19 : Nat)) ||| i.zeroExtend 64))

/-- SFADD, R209. -/
def execSfadd (t : Bool) (d a b : BitVec 7) (x y : Bool) (s : State) : Out :=
  .next (s.scalarF d a b x y (fun m a b => BitVec.ofNat 64 (fadd (fmtOf t) m (fbits t a) (fbits t b))))

/-- SFMUL, R209. -/
def execSfmul (t : Bool) (d a b : BitVec 7) (x y : Bool) (s : State) : Out :=
  .next (s.scalarF d a b x y (fun m a b => BitVec.ofNat 64 (fmul (fmtOf t) m (fbits t a) (fbits t b))))

/-- SFDIV, R209. -/
def execSfdiv (t : Bool) (d a b : BitVec 7) (x y : Bool) (s : State) : Out :=
  .next (s.scalarF d a b x y (fun m a b => BitVec.ofNat 64 (fdiv (fmtOf t) m (fbits t a) (fbits t b))))

/-- SFFMA, R209: reads its destination; one rounding. -/
def execSffma (t : Bool) (d a b : BitVec 7) (x y : Bool) (s : State) : Out :=
  let m := s.th.mode
  .next (s.scalar3 d a b x y (fun d a b => BitVec.ofNat 64 (ffma (fmtOf t) m (fbits t a) (fbits t b) (fbits t d))))

/-- SFSET, R210: exact. -/
def execSfset (t : Bool) (c : BitVec 2) (d a b : BitVec 7) (x y : Bool) (s : State) : Out :=
  .next (s.scalar2 d a b x y (fun a b =>
    bitW (fcmp c.toNat ((fmtOf t).decode (fbits t a)) ((fmtOf t).decode (fbits t b)))))

/-- SFCVT, R211: `p` is the destination code, `q` the source code. -/
def execSfcvt (p q : BitVec 2) (d a : BitVec 7) (x : Bool) (s : State) : Out :=
  let m := s.th.mode
  .next (s.scalar1 d a x (fun a => BitVec.ofNat 64 (convert m (scalarCode p) (scalarCode q) a.toNat)))

end Sys2Proof.Machine
end

