-- ==== Sys2Proof/Machine/Sched.lean ====
section
/-! DEFINITION. Which groups of a core may issue (spec/07_execution_model.md, R161, R162, R164; spec/17_launch_scheduling.md, R375,
R376), the errors that hardware meets (spec/04_caches_coherence_network.md, R82, R84), and evictions that nothing asks for (R80, R81). -/

namespace Sys2Proof.Machine

/-! ## Throttling (R376) -/

/-- Fields of `CORE.THROTTLE` (Table 17.6). -/
def Core.throttled (c : Core) : Bool := c.throttle.getLsbD 63
def Core.permitCount (c : Core) : Nat := bitsAt c.throttle 48 3 + 1
def Core.permitMin (c : Core) : Nat := bitsAt c.throttle 45 3

/-- *N* from the scores' sum. -/
def Core.nextCount (c : Core) (t : Nat) : Nat :=
  if !c.throttled then 8
  else if bitsAt c.throttle 16 16 < t then max (c.permitCount - 1) (c.permitMin + 1)
  else if t < bitsAt c.throttle 0 16 then min (c.permitCount + 1) 8
  else c.permitCount

/-- The slots of a core that hold a resident group. -/
def State.residents (s : State) (core : Nat) : List Nat := (upto 32).filter (fun sl => (s.residentSlots core).testBit sl)

/-- Does slot `a` receive the permit before slot `b`: withheld longer; or with a lower score; or the lower slot? -/
def Core.permitFirst (c : Core) (a b : Nat) : Bool :=
  let wa := c.withheld.getD a 0
  let wb := c.withheld.getD b 0
  let sa := c.scores.getD a 0
  let sb := c.scores.getD b 0
  wb < wa || (wa = wb && (sa < sb || (sa = sb && a < b)))

/-- Insert a slot in the order of permits. -/
def Core.insertPermit (c : Core) (a : Nat) : List Nat → List Nat
  | [] => [a]
  | b :: r => if c.permitFirst a b then a :: b :: r else b :: c.insertPermit a r

/-- The end of an interval: *N* is computed, the permits go out, and the scores are cleared. -/
def Core.interval (c : Core) (residents : List Nat) : Core :=
  let t := (residents.map (fun sl => c.scores.getD sl 0)).foldl (· + ·) 0
  let n := c.nextCount t
  let order := residents.foldl (fun l sl => c.insertPermit sl l) []
  let out := order.drop n
  { c with
    throttle := setBits c.throttle 48 3 (n - 1), permits := (order.take n).foldl insertNat [],
    withheld := (out.foldl insertNat []).map (fun sl => (sl, c.withheld.getD sl 0 + 1)), scores := [] }

/-- THROTTLE_INTERVAL, R376: every 8,192 clocks the core shares out the permits again. -/
def execThrottleInterval (core : Nat) (s : State) : Out :=
  .next (if core < 192 then s.mapCore core (fun c => c.interval (s.residents core)) else s)

/-- Does a thread stand at the start of a memory-class clause? -/
def Thread.startsMemory (t : Thread) : Bool :=
  t.kind = .group && t.status = .running && t.fetch.wix = 0 && (match t.fetch.words with
    | h :: _ => hdrCls h == 3
    | [] => false)

/-- R376: the permit that a group needs for its next clause: it holds it, or it gets one of those that no group holds (log entry 42). None
where it is withheld: the group is then not ready. -/
def State.permit (s : State) (k : Nat) : Option State :=
  let t := s.thread k
  let c := s.core t.ident.core
  let sl := t.ident.slot
  if !t.startsMemory || c.permits.contains sl then some s
  else if c.permits.length < c.permitCount then
    some (s.mapCore t.ident.core (fun c => { c with permits := insertNat c.permits sl, withheld := c.withheld.del sl }))
  else none

/-- Does a group of a core wait for the permit? The interval then ends by itself. -/
def State.permitWanted (s : State) (core : Nat) : Bool :=
  (s.residents core).any (fun sl => (s.permit (groupKey core sl)).isNone)

/-! ## The active set (R161, R162, R164, R375) -/

/-- Groups of the active set. -/
def activeSize : Nat := 8

/-- How many turns of the longest-waiting ready group may find eight ready groups in the active set before one of these gives way: the
model's count for the 4,096 clocks of R162 (log entry 42). -/
def entryLimit : Nat := 64

/-- Is a slot's group ready as far as its latest turn has found? -/
def State.slotReady (s : State) (core slot : Nat) : Bool :=
  let t := s.thread (groupKey core slot)
  t.status = .running && t.issues && !t.stuck

/-- May a thread issue: is it a distaff thread, or a group of the active set? -/
def State.isActive (s : State) (k : Nat) : Bool :=
  let t := s.thread k
  match t.kind with
  | .distaff => true
  | .group => (s.core t.ident.core).active.contains t.ident.slot

/-- The ready pending groups of a core, once a slot's group has been found to be one, in the order in which they have waited. -/
def State.waitingSlots (s : State) (core slot : Nat) : List Nat :=
  let q := (s.core core).queue.filter (fun q => (s.thread (groupKey core q)).status = .running)
  if q.contains slot then q else q ++ [slot]

/-- R375, R162: the place in the active set that a ready pending group takes: the group has to be the one that has waited longest, and
takes a free place, that of a group that is not ready, or, once it has waited long enough, that of the group that entered first. -/
def State.seat (s : State) (core slot : Nat) : Option (Option Nat) :=
  let c := s.core core
  if (s.waitingSlots core slot).head? ≠ some slot then none
  else if c.active.length < activeSize then some none
  else match c.active.find? (fun o => !(s.slotReady core o)) with
    | some o => some (some o)
    | none => if entryLimit ≤ c.denied then c.active.head?.map some else none

/-- A slot joins the active set. -/
def Core.join (c : Core) (slot : Nat) : Core := { c with active := c.active ++ [slot] }

/-- A group that has joined the active set has taken its place, the one of the group named. -/
def Core.seated (c : Core) (slot : Nat) (gone : Option Nat) : Core :=
  { c with
    active := (match gone with
      | some o => eraseNat c.active o
      | none => c.active),
    queue := eraseNat c.queue slot, denied := 0 }

/-- A ready pending group finds no place. -/
def State.denyEntry (s : State) (core slot : Nat) : State :=
  let q := s.waitingSlots core slot
  s.mapCore core (fun c => { c with queue := q, denied := if q.head? = some slot then c.denied + 1 else c.denied })

/-- Has a thread moved in its turn: to another word, into another state, or into or out of a wait? -/
def Thread.moved (t u : Thread) : Bool := !(u.fetch == t.fetch && u.status = .running && u.wait == t.wait)

/-- After a turn of a group of the active set, or of a distaff thread: it was not ready if it has not moved; a group whose clause with
`YLD` has ended is offered for exchange (R162). -/
def State.noteTurn (s : State) (k : Nat) (t : Thread) : State :=
  let u := s.thread k
  let same := !(t.moved u)
  let yld := t.kind = .group && u.fetch.words.isEmpty && (match t.fetch.words with
    | h :: _ => hdrYld h
    | [] => false)
  let s := if u.stuck = same || !(s.work.threads.has k) then s else s.putThread k { u with stuck := same }
  if yld then s.mapCore t.ident.core (fun c => { c with active := eraseNat c.active t.ident.slot }) else s

/-- A pending group's turn has found it not ready. -/
def State.notReady (s : State) (k : Nat) (t : Thread) : State :=
  (s.mapCore t.ident.core (fun c => { c with
    active := eraseNat c.active t.ident.slot, queue := eraseNat c.queue t.ident.slot })).noteTurn k t

/-! ## Errors (R82, R84) -/

/-- A corrected error of a slice. -/
def State.corrected (s : State) (slice : Nat) : State := if slice ≤ 192 then s.countError slice 40 24 1 else s

/-- An uncorrectable error of a memory line that is read: every sector is poisoned. A line in its home's cache is not read. -/
def State.poisonMemory (s : State) (line : Nat) : State :=
  if (s.dirOf line).resident then s else s.poisonUnits line (upto 16)

/-- An uncorrectable error of an 8-byte unit with dirty bytes in a cached line. -/
def State.poisonCached (s : State) (cache line unit : Nat) : State :=
  match s.cached cache line with
  | some l =>
    if unit < 16 && (l.ownedDirty || (unitsIn (l.dirty ||| l.stageMask)).contains unit) then
      s.putLine cache line { l with poison := l.poison ||| unitMask [unit] }
    else s
  | none => s

/-- An uncorrectable error of a dirty 8-byte unit of a line in its home's cache. -/
def State.poisonHome (s : State) (line unit : Nat) : State :=
  let d := s.dirOf line
  if d.resident && d.dirty.contains unit then s.poisonUnits line [unit] else s

/-- An error in a 32-byte sector of a cached line: its clean bytes are discarded and refetched, with the poison of the place they come
from (R83). -/
def State.sectorError (s : State) (cache line sector : Nat) : State :=
  match s.cached cache line with
  | some l =>
    if 4 ≤ sector || l.ownedDirty || l.stale || s.lineBusy line then s
    else
      let kept := l.dirty ||| l.stageMask
      let data := BitVec.ofNat 1024 (ofBytes (s.peek (128 * line) l.key 128))
      let units := (upto 4).map (fun j => 4 * sector + j)
      let bad := units.filter (fun u => if (unitsIn kept).contains u then l.poison.getLsbD u || (!((unitsFull kept).contains u)
        && s.peekPoison (128 * line + 8 * u) 8) else s.peekPoison (128 * line + 8 * u) 8)
      s.putLine cache line { l with
        data := overlay l.data data (byteMask (32 * sector) 32 &&& ~~~kept),
        poison := (l.poison &&& ~~~(unitMask units)) ||| unitMask bad }
  | none => s

/-- An uncorrectable error of a register. -/
def State.poisonRegister (s : State) (k : Nat) (vector : Bool) (reg lane : Nat) : State :=
  if s.work.threads.has k then
    s.mapThread k (fun t => t.mapRegs (fun r =>
      if vector then { r with vPoison := insertNat r.vPoison (64 * reg + lane) } else { r with sPoison := insertNat r.sPoison reg }))
  else s

/-- An uncorrectable error of an 8-byte unit of a merge-buffer slot. -/
def State.poisonSlot (s : State) (die slot unit : Nat) : State :=
  s.mapPme die (fun m => { m with slots := m.slots.upd slot (fun x => { x with poison := insertNat x.poison unit }) })

/-! ## Evictions -/

/-- A cache evicts a line of which nothing is staged. A line that a committing thread holds stays (R358). -/
def State.evict (s : State) (cache line : Nat) : State :=
  match s.cached cache line with
  | none => s
  | some l => if l.stage.isEmpty && s.evictable cache (line, l) then s.evictLine cache line else s

/-- A TLB drops its entries but those that drain. -/
def State.dropTlb (s : State) (place : Nat) : State := s.dropEntries place (fun e => !e.draining)

end Sys2Proof.Machine
end

