-- ==== Sys2Proof/Machine/Dispatch.lean ====
section
/-! DEFINITION. The dispatch: one arm per constructor of Instr, each a direct call of that instruction's meaning. -/

namespace Sys2Proof.Machine

/-- What an instruction word does for the current thread, or an event does to the machine. -/
def exec (i : Instr) (s : State) : Host.Outcome State Fault Refusal :=
  match i with
  | .sadd d a b x y => Sys2Proof.Machine.execSadd d a b x y s
  | .ssub d a b x y => Sys2Proof.Machine.execSsub d a b x y s
  | .smul d a b x y => Sys2Proof.Machine.execSmul d a b x y s
  | .smulh d a b x y => Sys2Proof.Machine.execSmulh d a b x y s
  | .smulhn d a b x y => Sys2Proof.Machine.execSmulhn d a b x y s
  | .sdiv d a b x y => Sys2Proof.Machine.execSdiv d a b x y s
  | .sdivn d a b x y => Sys2Proof.Machine.execSdivn d a b x y s
  | .srem d a b x y => Sys2Proof.Machine.execSrem d a b x y s
  | .sremn d a b x y => Sys2Proof.Machine.execSremn d a b x y s
  | .sand d a b x y => Sys2Proof.Machine.execSand d a b x y s
  | .sor d a b x y => Sys2Proof.Machine.execSor d a b x y s
  | .sxor d a b x y => Sys2Proof.Machine.execSxor d a b x y s
  | .sandn d a b x y => Sys2Proof.Machine.execSandn d a b x y s
  | .sshl d a b x y => Sys2Proof.Machine.execSshl d a b x y s
  | .sshr d a b x y => Sys2Proof.Machine.execSshr d a b x y s
  | .ssra d a b x y => Sys2Proof.Machine.execSsra d a b x y s
  | .srot d a b x y => Sys2Proof.Machine.execSrot d a b x y s
  | .smin d a b x y => Sys2Proof.Machine.execSmin d a b x y s
  | .smax d a b x y => Sys2Proof.Machine.execSmax d a b x y s
  | .sminn d a b x y => Sys2Proof.Machine.execSminn d a b x y s
  | .smaxn d a b x y => Sys2Proof.Machine.execSmaxn d a b x y s
  | .ssel d a b x y => Sys2Proof.Machine.execSsel d a b x y s
  | .sclz d a x => Sys2Proof.Machine.execSclz d a x s
  | .sctz d a x => Sys2Proof.Machine.execSctz d a x s
  | .spopc d a x => Sys2Proof.Machine.execSpopc d a x s
  | .sbfe d a b x y => Sys2Proof.Machine.execSbfe d a b x y s
  | .sbfi d a b x y => Sys2Proof.Machine.execSbfi d a b x y s
  | .sset c d a b x y => Sys2Proof.Machine.execSset c d a b x y s
  | .saddi d a imm => Sys2Proof.Machine.execSaddi d a imm s
  | .sandi d a imm => Sys2Proof.Machine.execSandi d a imm s
  | .sori d a imm => Sys2Proof.Machine.execSori d a imm s
  | .sxori d a imm => Sys2Proof.Machine.execSxori d a imm s
  | .sshli d a n => Sys2Proof.Machine.execSshli d a n s
  | .sshri d a n => Sys2Proof.Machine.execSshri d a n s
  | .ssrai d a n => Sys2Proof.Machine.execSsrai d a n s
  | .smovi d imm => Sys2Proof.Machine.execSmovi d imm s
  | .shigh d imm => Sys2Proof.Machine.execShigh d imm s
  | .sfadd t d a b x y => Sys2Proof.Machine.execSfadd t d a b x y s
  | .sfmul t d a b x y => Sys2Proof.Machine.execSfmul t d a b x y s
  | .sffma t d a b x y => Sys2Proof.Machine.execSffma t d a b x y s
  | .sfdiv t d a b x y => Sys2Proof.Machine.execSfdiv t d a b x y s
  | .sfset t c d a b x y => Sys2Proof.Machine.execSfset t c d a b x y s
  | .sfcvt p q d a x => Sys2Proof.Machine.execSfcvt p q d a x s
  | .ppush k => Sys2Proof.Machine.execPpush k s
  | .pinv => Sys2Proof.Machine.execPinv s
  | .ppop => Sys2Proof.Machine.execPpop s
  | .psetm k a x => Sys2Proof.Machine.execPsetm k a x s
  | .pgetm d k => Sys2Proof.Machine.execPgetm d k s
  | .mlog o d a b => Sys2Proof.Machine.execMlog o d a b s
  | .br o => Sys2Proof.Machine.execBr o s
  | .brz a o => Sys2Proof.Machine.execBrz a o s
  | .brnz a o => Sys2Proof.Machine.execBrnz a o s
  | .brany k o => Sys2Proof.Machine.execBrany k o s
  | .brall k o => Sys2Proof.Machine.execBrall k o s
  | .call a o => Sys2Proof.Machine.execCall a o s
  | .ret a x => Sys2Proof.Machine.execRet a x s
  | .jmpi a x => Sys2Proof.Machine.execJmpi a x s
  | .yield => Sys2Proof.Machine.execYield s
  | .haltg => Sys2Proof.Machine.execHaltg s
  | .nop => Sys2Proof.Machine.execNop s
  | .region imm => Sys2Proof.Machine.execRegion imm s
  | .vand d a b x y => Sys2Proof.Machine.execVand d a b x y s
  | .vor d a b x y => Sys2Proof.Machine.execVor d a b x y s
  | .vxor d a b x y => Sys2Proof.Machine.execVxor d a b x y s
  | .viota d b y => Sys2Proof.Machine.execViota d b y s
  | .vmovs d b y => Sys2Proof.Machine.execVmovs d b y s
  | .vsel k d a b x y => Sys2Proof.Machine.execVsel k d a b x y s
  | .vcmp w c m a b x y => Sys2Proof.Machine.execVcmp w c m a b x y s
  | .vadd32 d a b x y => Sys2Proof.Machine.execVadd32 d a b x y s
  | .vsub32 d a b x y => Sys2Proof.Machine.execVsub32 d a b x y s
  | .vmul32 d a b x y => Sys2Proof.Machine.execVmul32 d a b x y s
  | .vmad32 d a b x y => Sys2Proof.Machine.execVmad32 d a b x y s
  | .vshl32 d a b x y => Sys2Proof.Machine.execVshl32 d a b x y s
  | .vshr32 d a b x y => Sys2Proof.Machine.execVshr32 d a b x y s
  | .vsra32 d a b x y => Sys2Proof.Machine.execVsra32 d a b x y s
  | .vmulhI32 d a b x y => Sys2Proof.Machine.execVmulhI32 d a b x y s
  | .vmulhN32 d a b x y => Sys2Proof.Machine.execVmulhN32 d a b x y s
  | .vminI32 d a b x y => Sys2Proof.Machine.execVminI32 d a b x y s
  | .vminN32 d a b x y => Sys2Proof.Machine.execVminN32 d a b x y s
  | .vmaxI32 d a b x y => Sys2Proof.Machine.execVmaxI32 d a b x y s
  | .vmaxN32 d a b x y => Sys2Proof.Machine.execVmaxN32 d a b x y s
  | .vsaddI32 d a b x y => Sys2Proof.Machine.execVsaddI32 d a b x y s
  | .vsaddN32 d a b x y => Sys2Proof.Machine.execVsaddN32 d a b x y s
  | .vssubI32 d a b x y => Sys2Proof.Machine.execVssubI32 d a b x y s
  | .vssubN32 d a b x y => Sys2Proof.Machine.execVssubN32 d a b x y s
  | .vbfeI32 d a b x y => Sys2Proof.Machine.execVbfeI32 d a b x y s
  | .vbfeN32 d a b x y => Sys2Proof.Machine.execVbfeN32 d a b x y s
  | .vadd64 d a b x y => Sys2Proof.Machine.execVadd64 d a b x y s
  | .vsub64 d a b x y => Sys2Proof.Machine.execVsub64 d a b x y s
  | .vshl64 d a b x y => Sys2Proof.Machine.execVshl64 d a b x y s
  | .vshr64 d a b x y => Sys2Proof.Machine.execVshr64 d a b x y s
  | .vsra64 d a b x y => Sys2Proof.Machine.execVsra64 d a b x y s
  | .vadd16 d a b x y => Sys2Proof.Machine.execVadd16 d a b x y s
  | .vsub16 d a b x y => Sys2Proof.Machine.execVsub16 d a b x y s
  | .vsaddI16 d a b x y => Sys2Proof.Machine.execVsaddI16 d a b x y s
  | .vssubI16 d a b x y => Sys2Proof.Machine.execVssubI16 d a b x y s
  | .vadd8 d a b x y => Sys2Proof.Machine.execVadd8 d a b x y s
  | .vsub8 d a b x y => Sys2Proof.Machine.execVsub8 d a b x y s
  | .vsaddI8 d a b x y => Sys2Proof.Machine.execVsaddI8 d a b x y s
  | .vssubI8 d a b x y => Sys2Proof.Machine.execVssubI8 d a b x y s
  | .vfadd t d a b x y => Sys2Proof.Machine.execVfadd t d a b x y s
  | .vfsub t d a b x y => Sys2Proof.Machine.execVfsub t d a b x y s
  | .vfmul t d a b x y => Sys2Proof.Machine.execVfmul t d a b x y s
  | .vffma t d a b x y => Sys2Proof.Machine.execVffma t d a b x y s
  | .vfmin t d a b x y => Sys2Proof.Machine.execVfmin t d a b x y s
  | .vfmax t d a b x y => Sys2Proof.Machine.execVfmax t d a b x y s
  | .vfdiv t d a b x y => Sys2Proof.Machine.execVfdiv t d a b x y s
  | .vfcmp t c m a b x y => Sys2Proof.Machine.execVfcmp t c m a b x y s
  | .vpack f d a b x y => Sys2Proof.Machine.execVpack f d a b x y s
  | .vunpk d a f j => Sys2Proof.Machine.execVunpk d a f j s
  | .vscale d a imm => Sys2Proof.Machine.execVscale d a imm s
  | .vshuf sc d a b x y => Sys2Proof.Machine.execVshuf sc d a b x y s
  | .vbcast d a b x y => Sys2Proof.Machine.execVbcast d a b x y s
  | .vballot d a x => Sys2Proof.Machine.execVballot d a x s
  | .vxch d b y => Sys2Proof.Machine.execVxch d b y s
  | .vrebal k d a b x y => Sys2Proof.Machine.execVrebal k d a b x y s
  | .vabs w d a x => Sys2Proof.Machine.execVabs w d a x s
  | .vneg w d a x => Sys2Proof.Machine.execVneg w d a x s
  | .vclz w d a x => Sys2Proof.Machine.execVclz w d a x s
  | .vpopc w d a x => Sys2Proof.Machine.execVpopc w d a x s
  | .vmov w d a x => Sys2Proof.Machine.execVmov w d a x s
  | .vfsqrt t d a x => Sys2Proof.Machine.execVfsqrt t d a x s
  | .vfrcp t d a x => Sys2Proof.Machine.execVfrcp t d a x s
  | .vfrsq t d a x => Sys2Proof.Machine.execVfrsq t d a x s
  | .vfexp2 t d a x => Sys2Proof.Machine.execVfexp2 t d a x s
  | .vflog2 t d a x => Sys2Proof.Machine.execVflog2 t d a x s
  | .vfclass t d a x => Sys2Proof.Machine.execVfclass t d a x s
  | .vfabs t d a x => Sys2Proof.Machine.execVfabs t d a x s
  | .vfneg t d a x => Sys2Proof.Machine.execVfneg t d a x s
  | .vcvt p q d a x => Sys2Proof.Machine.execVcvt p q d a x s
  | .vred o t d a x => Sys2Proof.Machine.execVred o t d a x s
  | .vscan o t d a x => Sys2Proof.Machine.execVscan o t d a x s
  | .mma f c a b r e x y => Sys2Proof.Machine.execMma f c a b r e x y s
  | .mmas f c a b r e p x y => Sys2Proof.Machine.execMmas f c a b r e p x y s
  | .mxeOperation core => Sys2Proof.Machine.execMxeOperation core s
  | .mgang a x => Sys2Proof.Machine.execMgang a x s
  | .mzero c => Sys2Proof.Machine.execMzero c s
  | .maccr d c b y => Sys2Proof.Machine.execMaccr d c b y s
  | .maccw c a b x y => Sys2Proof.Machine.execMaccw c a b x y s
  | .maccst c a x => Sys2Proof.Machine.execMaccst c a x s
  | .maccld c a x => Sys2Proof.Machine.execMaccld c a x s
  | .vld f d a b x y => Sys2Proof.Machine.execVld f d a b x y s
  | .vst f d a b x y => Sys2Proof.Machine.execVst f d a b x y s
  | .vlds f d a b x y => Sys2Proof.Machine.execVlds f d a b x y s
  | .vldp w d a x => Sys2Proof.Machine.execVldp w d a x s
  | .vstp w d a x => Sys2Proof.Machine.execVstp w d a x s
  | .vgath w d a b x y => Sys2Proof.Machine.execVgath w d a b x y s
  | .vscat w d a b x y => Sys2Proof.Machine.execVscat w d a b x y s
  | .vldo d a x p t o sc => Sys2Proof.Machine.execVldo d a x p t o sc s
  | .sldo d a x p t o sc => Sys2Proof.Machine.execSldo d a x p t o sc s
  | .vsto d a x t o sc => Sys2Proof.Machine.execVsto d a x t o sc s
  | .ssto d a x t o sc => Sys2Proof.Machine.execSsto d a x t o sc s
  | .swaitge d a x p t o sc => Sys2Proof.Machine.execSwaitge d a x p t o sc s
  | .sld d a x t => Sys2Proof.Machine.execSld d a x t s
  | .sst d a x t => Sys2Proof.Machine.execSst d a x t s
  | .pollReperform agent id => Sys2Proof.Machine.execPollReperform agent id s
  | .xld m z d a b x y => Sys2Proof.Machine.execXld m z d a b x y s
  | .xst m z d a b x y => Sys2Proof.Machine.execXst m z d a b x y s
  | .vatom o d a x t r sc => Sys2Proof.Machine.execVatom o d a x t r sc s
  | .satom o d a x t r sc => Sys2Proof.Machine.execSatom o d a x t r sc s
  | .fence o sc => Sys2Proof.Machine.execFence o sc s
  | .zld d a b x y => Sys2Proof.Machine.execZld d a b x y s
  | .zst d a b x y => Sys2Proof.Machine.execZst d a b x y s
  | .zcurOpen d a b x y => Sys2Proof.Machine.execZcurOpen d a b x y s
  | .zcurClose d a x => Sys2Proof.Machine.execZcurClose d a x s
  | .znext k d a b x y => Sys2Proof.Machine.execZnext k d a b x y s
  | .zgen d a b x y => Sys2Proof.Machine.execZgen d a b x y s
  | .zatom o d a b x y => Sys2Proof.Machine.execZatom o d a b x y s
  | .reclaimSweep region => Sys2Proof.Machine.execReclaimSweep region s
  | .push d a q => Sys2Proof.Machine.execPush d a q s
  | .waitc m => Sys2Proof.Machine.execWaitc m s
  | .sgetwp d c => Sys2Proof.Machine.execSgetwp d c s
  | .trecld d a k x => Sys2Proof.Machine.execTrecld d a k x s
  | .barinit a b x => Sys2Proof.Machine.execBarinit a b x s
  | .bararv b => Sys2Proof.Machine.execBararv b s
  | .bararw b => Sys2Proof.Machine.execBararw b s
  | .barw b => Sys2Proof.Machine.execBarw b s
  | .ringputClaim d r => Sys2Proof.Machine.execRingputClaim d r s
  | .ringputPub d r => Sys2Proof.Machine.execRingputPub d r s
  | .ringgetTake d r => Sys2Proof.Machine.execRinggetTake d r s
  | .ringgetFree d r => Sys2Proof.Machine.execRinggetFree d r s
  | .mbpost a b x y => Sys2Proof.Machine.execMbpost a b x y s
  | .mbtake d a b x y => Sys2Proof.Machine.execMbtake d a b x y s
  | .txbegin d n => Sys2Proof.Machine.execTxbegin d n s
  | .txend d => Sys2Proof.Machine.execTxend d s
  | .txabort n => Sys2Proof.Machine.execTxabort n s
  | .txstat d => Sys2Proof.Machine.execTxstat d s
  | .srd d n => Sys2Proof.Machine.execSrd d n s
  | .swr d n => Sys2Proof.Machine.execSwr d n s
  | .trap n => Sys2Proof.Machine.execTrap n s
  | .eret => Sys2Proof.Machine.execEret s
  | .tinva d a b x y => Sys2Proof.Machine.execTinva d a b x y s
  | .tinvc d a x => Sys2Proof.Machine.execTinvc d a x s
  | .launch d a => Sys2Proof.Machine.execLaunch d a s
  | .arml d a b x y => Sys2Proof.Machine.execArml d a b x y s
  | .ctxsave d a x => Sys2Proof.Machine.execCtxsave d a x s
  | .ctxload d a x => Sys2Proof.Machine.execCtxload d a x s
  | .idle => Sys2Proof.Machine.execIdle s
  | .keysel a x => Sys2Proof.Machine.execKeysel a x s
  | .rtcall d a x => Sys2Proof.Machine.execRtcall d a x s
  | .rtMeasurementLog agent id => Sys2Proof.Machine.execRtMeasurementLog agent id s
  | .rtQuote agent id => Sys2Proof.Machine.execRtQuote agent id s
  | .rtRandom agent id => Sys2Proof.Machine.execRtRandom agent id s
  | .spdmRequest request => Sys2Proof.Machine.execSpdmRequest request s
  | .clauseFetch agent => Sys2Proof.Machine.execClauseFetch agent s
  | .longLatencyLanding agent id => Sys2Proof.Machine.execLongLatencyLanding agent id s
  | .vxchMatch agent partner => Sys2Proof.Machine.execVxchMatch agent partner s
  | .vxchTimeout agent => Sys2Proof.Machine.execVxchTimeout agent s
  | .throttleInterval core => Sys2Proof.Machine.execThrottleInterval core s
  | .copy cmd => Sys2Proof.Machine.execCopy cmd s
  | .multicastCopy cmd => Sys2Proof.Machine.execMulticastCopy cmd s
  | .densify cmd => Sys2Proof.Machine.execDensify cmd s
  | .qfence cmd => Sys2Proof.Machine.execQfence cmd s
  | .gather cmd => Sys2Proof.Machine.execGather cmd s
  | .sectorDelivery cmd => Sys2Proof.Machine.execSectorDelivery cmd s
  | .commandComplete cmd => Sys2Proof.Machine.execCommandComplete cmd s
  | .rqcWindowTimeout core => Sys2Proof.Machine.execRqcWindowTimeout core s
  | .rqcLineReturn core line => Sys2Proof.Machine.execRqcLineReturn core line s
  | .passOpen cmd => Sys2Proof.Machine.execPassOpen cmd s
  | .subscribe cmd => Sys2Proof.Machine.execSubscribe cmd s
  | .start cmd => Sys2Proof.Machine.execStart cmd s
  | .abort cmd => Sys2Proof.Machine.execAbort cmd s
  | .sweepFetch die pix => Sys2Proof.Machine.execSweepFetch die pix s
  | .catchupFetch die pix share => Sys2Proof.Machine.execCatchupFetch die pix share s
  | .deliver die image share => Sys2Proof.Machine.execDeliver die image share s
  | .mergeRecord die => Sys2Proof.Machine.execMergeRecord die s
  | .migration cmd => Sys2Proof.Machine.execMigration cmd s
  | .migrationRelease cmd => Sys2Proof.Machine.execMigrationRelease cmd s
  | .migrationLine ctx => Sys2Proof.Machine.execMigrationLine ctx s
  | .migrationLineLands ctx => Sys2Proof.Machine.execMigrationLineLands ctx s
  | .walkComplete walk => Sys2Proof.Machine.execWalkComplete walk s
  | .invalidationComplete num => Sys2Proof.Machine.execInvalidationComplete num s
  | .gets msg => Sys2Proof.Machine.execGets msg s
  | .getx msg => Sys2Proof.Machine.execGetx msg s
  | .upg msg => Sys2Proof.Machine.execUpg msg s
  | .rdu msg => Sys2Proof.Machine.execRdu msg s
  | .mwb msg => Sys2Proof.Machine.execMwb msg s
  | .farAtomic msg => Sys2Proof.Machine.execFarAtomic msg s
  | .putm msg => Sys2Proof.Machine.execPutm msg s
  | .pute msg => Sys2Proof.Machine.execPute msg s
  | .memoryData msg => Sys2Proof.Machine.execMemoryData msg s
  | .invack msg => Sys2Proof.Machine.execInvack msg s
  | .fwdack msg => Sys2Proof.Machine.execFwdack msg s
  | .doneMsg msg => Sys2Proof.Machine.execDoneMsg msg s
  | .fwdDataCopy msg => Sys2Proof.Machine.execFwdDataCopy msg s
  | .recallAck msg => Sys2Proof.Machine.execRecallAck msg s
  | .grant msg => Sys2Proof.Machine.execGrant msg s
  | .invMsg msg => Sys2Proof.Machine.execInvMsg msg s
  | .fwds msg => Sys2Proof.Machine.execFwds msg s
  | .fwdx msg => Sys2Proof.Machine.execFwdx msg s
  | .fwdd msg => Sys2Proof.Machine.execFwdd msg s
  | .rclMsg msg => Sys2Proof.Machine.execRclMsg msg s
  | .putack msg => Sys2Proof.Machine.execPutack msg s
  | .spillReturn msg => Sys2Proof.Machine.execSpillReturn msg s
  | .errorResponse msg => Sys2Proof.Machine.execErrorResponse msg s
  | .slcPcdump slice value => Sys2Proof.Machine.execSlcPcdump slice value s
  | .pcdumpCopyDone slice => Sys2Proof.Machine.execPcdumpCopyDone slice s
  | .zrgRegister value => Sys2Proof.Machine.execZrgRegister value s
  | .zrgUnregister value => Sys2Proof.Machine.execZrgUnregister value s
  | .teamRingWrite ring value => Sys2Proof.Machine.execTeamRingWrite ring value s
  | .grpRmWrite value => Sys2Proof.Machine.execGrpRmWrite value s
  | .grpTrsmWrite value => Sys2Proof.Machine.execGrpTrsmWrite value s
  | .rqcCtlWrite value => Sys2Proof.Machine.execRqcCtlWrite value s
  | .coreThrottleWrite value => Sys2Proof.Machine.execCoreThrottleWrite value s
  | .slcErrClear slice value => Sys2Proof.Machine.execSlcErrClear slice value s
  | .cpeErrClear channel value => Sys2Proof.Machine.execCpeErrClear channel value s
  | .rqcErrClear value => Sys2Proof.Machine.execRqcErrClear value s
  | .dspSvbaseWrite value => Sys2Proof.Machine.execDspSvbaseWrite value s
  | .dspSvlenWrite value => Sys2Proof.Machine.execDspSvlenWrite value s
  | .frqBaseWrite value => Sys2Proof.Machine.execFrqBaseWrite value s
  | .dtrIrqClear value => Sys2Proof.Machine.execDtrIrqClear value s
  | .netRxWrite part value => Sys2Proof.Machine.execNetRxWrite part value s
  | .netRxtWrite part value => Sys2Proof.Machine.execNetRxtWrite part value s
  | .pwrCapWrite value => Sys2Proof.Machine.execPwrCapWrite value s
  | .accessTableWrite mid pa value => Sys2Proof.Machine.execAccessTableWrite mid pa value s
  | .dbgStop mid pa value => Sys2Proof.Machine.execDbgStop mid pa value s
  | .debugTrap agent => Sys2Proof.Machine.execDebugTrap agent s
  | .sysregWrite number value => Sys2Proof.Machine.execSysregWrite number value s
  | .heldRecordWrite die => Sys2Proof.Machine.execHeldRecordWrite die s
  | .frqRespResume value => Sys2Proof.Machine.execFrqRespResume value s
  | .frqRespKillAccess value => Sys2Proof.Machine.execFrqRespKillAccess value s
  | .frqRespKillLaunch value => Sys2Proof.Machine.execFrqRespKillLaunch value s
  | .launchCommand cmd => Sys2Proof.Machine.execLaunchCommand cmd s
  | .setdet cmd => Sys2Proof.Machine.execSetdet cmd s
  | .startConditionPoll cmd => Sys2Proof.Machine.execStartConditionPoll cmd s
  | .blockPlacement lnum => Sys2Proof.Machine.execBlockPlacement lnum s
  | .blockEnd lnum block => Sys2Proof.Machine.execBlockEnd lnum block s
  | .preemption lnum block => Sys2Proof.Machine.execPreemption lnum block s
  | .stopLimit agent => Sys2Proof.Machine.execStopLimit agent s
  | .blockResume lnum block => Sys2Proof.Machine.execBlockResume lnum block s
  | .orderedFlush lnum block => Sys2Proof.Machine.execOrderedFlush lnum block s
  | .rankEndReport lnum => Sys2Proof.Machine.execRankEndReport lnum s
  | .ticketRequest agent => Sys2Proof.Machine.execTicketRequest agent s
  | .reservationHead slice => Sys2Proof.Machine.execReservationHead slice s
  | .validationAnswers agent => Sys2Proof.Machine.execValidationAnswers agent s
  | .commitWrite slice => Sys2Proof.Machine.execCommitWrite slice s
  | .fallbackLockGrant => Sys2Proof.Machine.execFallbackLockGrant s
  | .merge cmd => Sys2Proof.Machine.execMerge cmd s
  | .split cmd => Sys2Proof.Machine.execSplit cmd s
  | .pmReset cmd => Sys2Proof.Machine.execPmReset cmd s
  | .pmFence cmd => Sys2Proof.Machine.execPmFence cmd s
  | .restart cmd => Sys2Proof.Machine.execRestart cmd s
  | .quiesceDrained => Sys2Proof.Machine.execQuiesceDrained s
  | .quiesceTimeout => Sys2Proof.Machine.execQuiesceTimeout s
  | .phase2Complete => Sys2Proof.Machine.execPhase2Complete s
  | .send cmd => Sys2Proof.Machine.execSend cmd s
  | .ethMessageReceive port tag node pkg payload => Sys2Proof.Machine.execEthMessageReceive port tag node pkg payload s
  | .cxlDoorbell port => Sys2Proof.Machine.execCxlDoorbell port s
  | .cxlMemRequest port mid key offset write bytes => Sys2Proof.Machine.execCxlMemRequest port mid key offset write bytes s
  | .linkTrainingFailure link => Sys2Proof.Machine.execLinkTrainingFailure link s
  | .powerThrottle => Sys2Proof.Machine.execPowerThrottle s
  | .packageReset node stages => Sys2Proof.Machine.execPackageReset node stages s
  | .illegalInstruction agent => Sys2Proof.Machine.execIllegalInstruction agent s
  | .pcieFunctionRequest mid pa write config bytes => Sys2Proof.Machine.execPcieFunctionRequest mid pa write config bytes s
  | .rootOfTrustNotice part => Sys2Proof.Machine.execRootOfTrustNotice part s

end Sys2Proof.Machine
end

