-- ==== Sys2Proof/Machine/Turns.lean ====
section
/-! DEFINITION. Turns: which thread or unit moves next, and what its move does (log entry 11). A move that cannot be made yet leaves
the state as it is. -/

namespace Sys2Proof.Machine

/-! ## Issuing (R162, R187, R386, R393) -/

/-- The region that a word enters, where it is a REGION of its kernel's table. -/
def State.regionHere (s : State) (t : Thread) : Option Nat :=
  match t.instr, s.launch? t.ident.lnum with
  | some (.region i), some l => if t.fetch.wix ≠ 0 && i.toNat < l.regCnt then some i.toNat else none
  | _, _ => none

/-- Is the thread a group of a block that has been asked to stop (R393)? -/
def State.stopping (s : State) (t : Thread) : Bool :=
  t.kind = .group && (match s.block? t.ident.lnum t.ident.block with
    | some b => b.st = .stopping
    | none => false)

/-- What a thread meets at a word boundary before its word: an asynchronous trap, a debug stop, or the stop of its block. -/
def State.boundary (s : State) (k : Nat) : Option State :=
  let t := s.thread k
  if !t.wait.idle then none
  else match t.later with
  | l :: rest =>
    some ((s.putThread k { t with later := rest }).trap k ⟨l.cause, l.reason, l.code, l.lanes, l.va, l.more, l.rsm.getD t.here⟩ l.hdr)
  | [] =>
    if isGroupKey k && (s.core t.ident.core).dbgStop.testBit t.ident.slot then
      (match execDebugTrap k s with
      | .next s => some s
      | _ => none)
    else if s.stopping t && !t.committing then
      (match s.regionHere t with
      | some n => some (s.putThread k (t.stopAtRegion n))
      | none => if t.gap then none else some (s.putThread k { t with status := .halted }))
    else none

/-- The current thread's word: the fetch of its clause, which a memory-class clause needs the permit for, or the word at its position (R183,
R193, R317, R376). -/
def State.issueWord (s : State) : Out :=
  let k := s.work.cur
  let t := s.th
  if t.fetch.words.isEmpty || t.fetch.wix = 0 then
    (match s.permit k with
    | none => .next s
    | some s => execClauseFetch k s)
  else if t.badRestart then .next s.restartTrap
  else match t.instr with
    | some i => exec i s
    | none => execIllegalInstruction k s

/-- The turn of a group of the pending set (R162, R375): one that is ready, which is one that its word moves, enters the active set,
if it has a place there; one that is not ready waits where it is. -/
def State.pendingTurn (s : State) (k : Nat) : Out :=
  let t := s.thread k
  let c := t.ident.core
  let sl := t.ident.slot
  match ((s.mapCore c (fun x => x.join sl)).setCur k).issueWord, s.seat c sl with
  | .next u, place =>
    if !(t.moved (u.thread k)) then .next (u.notReady k t)
    else (match place with
      | some gone => .next ((u.mapCore c (fun x => x.seated sl gone)).noteTurn k t)
      | none => .next (s.denyEntry c sl))
  | r, some _ => r
  | _, none => .next (s.denyEntry c sl)

/-- The turn of a running thread: what the boundary brings, or its word. -/
def State.runTurn (s : State) (k : Nat) : Out :=
  match s.boundary k with
  | some s => .next s
  | none =>
    if s.isActive k then
      (match (s.setCur k).issueWord with
      | .next u => .next (u.noteTurn k (s.thread k))
      | r => r)
    else s.pendingTurn k

/-- A thread's turn. A parked word replays its answered lanes; a thread of a die that a MERGE or SPLIT holds does not issue (R406). -/
def State.issueTurn (s : State) (k : Nat) : Out :=
  let t := s.thread k
  if isGroupKey k && s.dieHeld (dieOf t.ident.core) then .next s
  else match t.status with
    | .running => s.runTurn k
    | .parked => .next (s.replayParked k)
    | _ => .next s

/-! ## What is pending -/

/-- Do one thing after another. -/
def Out.then (r : Out) (f : State → Out) : Out :=
  match r with
  | .next s => f s
  | r => r

/-- A message's turn: it crosses its next link, a request enters the miss table or spill queue of its slice, or it is received (R97,
R98). -/
def State.messageTurn (s : State) (i : Nat) : Out :=
  match s.mem.net[i]? with
  | none => .next s
  | some m =>
    if m.place = .wire then .next (if m.path.isEmpty then s.arriveHome i m else s.hop i m)
    else if m.place = .spill then execSpillReturn i s
    else match m.kind with
      | .getS => execGets i s
      | .getX => execGetx i s
      | .upg => execUpg i s
      | .rdU => execRdu i s
      | .mwb => execMwb i s
      | .fa => execFarAtomic i s
      | .putM => execPutm i s
      | .putE => execPute i s
      | .ev => .next s
      | .visit => .next s
      | .memData => execMemoryData i s
      | .invAck => execInvack i s
      | .fwdAck => execFwdack i s
      | .done => execDoneMsg i s
      | .fdData => execFwdDataCopy i s
      | .rcAck => execRecallAck i s
      | .grant => execGrant i s
      | .inv => execInvMsg i s
      | .fwdS => execFwds i s
      | .fwdX => execFwdx i s
      | .fwdD => execFwdd i s
      | .rcl => execRclMsg i s
      | .putAck => execPutack i s
      | .error => execErrorResponse i s

/-- A command that waits in its queue, or runs: what its code has its engine do next. -/
def State.workTurn (s : State) (c : Cmd) : Out :=
  match c.code with
  | 0x0F => execQfence c.id s
  | 0x01 => execMigration c.id s
  | 0x02 => execMigrationRelease c.id s
  | 0x10 => (execCopy c.id s).then (execSectorDelivery c.id)
  | 0x11 => (execMulticastCopy c.id s).then (execSectorDelivery c.id)
  | 0x20 => (execGather c.id s).then (execSectorDelivery c.id)
  | 0x30 => (execDensify c.id s).then (execSectorDelivery c.id)
  | 0x40 => execPassOpen c.id s
  | 0x41 => execSubscribe c.id s
  | 0x42 => execStart c.id s
  | 0x43 => execAbort c.id s
  | 0x50 => (execStartConditionPoll c.id s).then (execLaunchCommand c.id)
  | 0x51 => execSetdet c.id s
  | 0x60 => execMerge c.id s
  | 0x61 => execSplit c.id s
  | 0x62 => execPmReset c.id s
  | 0x63 => execPmFence c.id s
  | 0x64 => execRestart c.id s
  | 0x70 => execSend c.id s
  | _ => .next s

/-- A command's turn. -/
def State.commandTurn (s : State) (id : Nat) : Out :=
  match s.cmd? id with
  | none => .next s
  | some c =>
    match c.st with
    | .queued => s.workTurn c
    | .running => s.workTurn c
    | .finishing => execCommandComplete id s
    | .faulted _ => .next s

/-- A producer's turn: it is performed again, served, or lands (R150, R286, R410). -/
def State.producerTurn (s : State) (k id : Nat) : Out :=
  match (s.thread k).findProducer id with
  | none => .next s
  | some p =>
    match p.await with
    | .poll _ => execPollReperform k id s
    | .rot _ _ => ((execRtMeasurementLog k id s).then (execRtQuote k id)).then (execRtRandom k id)
    | .take _ _ _ => .next (s.tryTake k id)
    | .none => execLongLatencyLanding k id s

/-- What a pending thing does when it moves. -/
def Mover.run (m : Mover) (s : State) : Out :=
  match m with
  | .message i => s.messageTurn i
  | .walk i => execWalkComplete i s
  | .producer k id => s.producerTurn k id
  | .exchange a b => execVxchMatch a b s
  | .command id => s.commandTurn id
  | .window c => execRqcWindowTimeout c s
  | .line c l => execRqcLineReturn c l s
  | .matrix c => execMxeOperation c s
  | .sweep d p => execSweepFetch d p s
  | .catchup d p x => execCatchupFetch d p x s
  | .page d i x => execDeliver d i x s
  | .record d => execMergeRecord d s
  | .migrate c => (execMigrationLineLands c s).then (execMigrationLine c)
  | .inval n => execInvalidationComplete n s
  | .dump sl => execPcdumpCopyDone sl s
  | .reclaim r => execReclaimSweep r s
  | .held d => execHeldRecordWrite d s
  | .place l => execBlockPlacement l s
  | .block l b => ((((execOrderedFlush l b s).then (fun s => .next (s.raceTurn l b))).then (execBlockEnd l b)).then (execPreemption l b)).then
      (execBlockResume l b)
  | .commit k => (execTicketRequest k s).then (execValidationAnswers k)
  | .slice sl => (execReservationHead sl s).then (execCommitWrite sl)
  | .lock => execFallbackLockGrant s
  | .layout => (execQuiesceDrained s).then execPhase2Complete
  | .replay c => .next (s.replayCore c)
  | .mail p => .next (s.deliverMail p)
  | .access c l => .next (s.retryAccess c l)
  | .report k => .next (s.reportEnded k)
  | .owed d p => execDeliverOwed d p s

/-- The numbers 0 to one less than a list's length. -/
def places0 {α : Type} (l : List α) : List Nat := upto l.length

/-- The pending things of one thread. -/
def State.threadMovers (s : State) (p : Nat × Thread) : List Mover :=
  p.2.producers.map (fun q => Mover.producer p.1 q.id) ++ (match p.2.wait with
    | .exchange _ _ _ => s.work.threads.filterMap (fun q => match q.2.wait with
      | .exchange _ _ _ => if q.1 = p.1 then none else some (Mover.exchange p.1 q.1)
      | _ => none)
    | .commit _ _ _ _ => [.commit p.1]
    | _ => [])
    ++ (if p.2.status = .ended && !p.2.later.isEmpty then [.report p.1] else [])

/-- The pending things of one core. -/
def coreMovers (p : Nat × Core) : List Mover :=
  (if p.2.windows.isEmpty then [] else Mover.window p.1 :: p.2.windows.flatMap (fun w => w.lines.map (fun l => .line p.1 l.1)))
    ++ (if p.2.mxq.isEmpty then [] else [.matrix p.1]) ++ (if p.2.replay.isEmpty then [] else [.replay p.1])

/-- The pending things of one PME. -/
def pmeMovers (p : Nat × Pme) : List Mover :=
  p.2.passes.flatMap (fun q => Mover.sweep p.1 q.1 :: (places0 q.2.shares).map (fun i => .catchup p.1 q.1 i))
    ++ ((places0 p.2.store).zip p.2.store).flatMap (fun q => q.2.goal.map (fun i => Mover.page p.1 q.1 i))
    ++ (if p.2.posts.isEmpty then [] else [.record p.1]) ++ (places0 p.2.owed).map (Mover.owed p.1)

/-- The caches and lines for which accesses wait, each once. -/
def State.accessMovers (s : State) : List Mover :=
  ((s.mem.pend.map (fun a => (s.cacheOf a, a.pa / 128))).foldl (fun l p => if l.contains p then l else l ++ [p]) []).map
    (fun p => .access p.1 p.2)

/-- Everything that is pending. -/
def State.movers (s : State) : List Mover :=
  (places0 s.mem.net).map .message ++ (places0 s.xlt.walks).map .walk ++ s.work.threads.flatMap s.threadMovers
    ++ s.svc.cmds.map (fun c => .command c.id) ++ s.work.cores.flatMap coreMovers ++ s.svc.pmes.flatMap pmeMovers
    ++ s.mem.migr.map (fun p => .migrate p.1) ++ s.xlt.invals.map (fun v => .inval v.num)
    ++ s.mem.pcDump.map (fun p => .dump p.1) ++ s.svc.regions.map (fun p => .reclaim p.1)
    ++ (upto 5).map .held ++ s.work.launches.map (fun p => .place p.1) ++ s.work.blocks.map (fun b => .block b.lnum b.index)
    ++ s.mem.resv.map (fun r => .slice r.slice) ++ (if s.svc.fblWait.isEmpty then [] else [.lock])
    ++ (if s.pkg.quiesce.isSome then [.layout] else []) ++ s.svc.portWait.map (fun m => .mail m.port) ++ s.accessMovers

/-- Does a request wait for the slice clock that it came in to pass (R89)? -/
def State.clockWanted (s : State) : Bool :=
  s.mem.net.any (fun m => ((m.place = .table || m.place = .spill) && decide (s.mem.sliceClk ≤ m.clk))
    || (m.place = .wire && m.path.isEmpty))

/-- Every turn that something may take by itself: each thread's, each pending thing's, and those of clocks that something waits for. -/
def State.turns (s : State) : List Turn :=
  (s.work.threads.filter (fun p => p.2.status = .running || p.2.status = .parked)).map (fun p => Turn.issue p.1)
    ++ s.movers.map Turn.move ++ (if s.clockWanted then [.sliceClock] else [])
    ++ (s.work.cores.filter (fun p => s.permitWanted p.1)).map (fun p => Turn.event (.throttleInterval p.1))

/-! ## Turns -/

/-- What a turn does. -/
def Turn.act (t : Turn) (s : State) : Out :=
  match t with
  | .issue k => s.issueTurn k
  | .event i => exec i s
  | .move m => m.run s
  | .evict c l => .next (s.evict c l)
  | .replace l => .next (s.homeEvict l)
  | .dropTlb p => .next (s.dropTlb p)
  | .clocks c n => .next (s.mapCore c (fun x => { x with clk := x.clk + n }))
  | .sliceClock => .next { s with mem := { s.mem with sliceClk := s.mem.sliceClk + 1 } }
  | .routerFails d r => .next (s.routerFails d r)
  | .poisonMem l => .next (s.poisonMemory l)
  | .poisonLine c l u => .next (s.poisonCached c l u)
  | .sectorError c l i => .next (s.sectorError c l i)
  | .poisonHome l u => .next (s.poisonHome l u)
  | .poisonScratch g u => .next (if s.work.teams.has g then s.mapTeam g (fun t => t.markUnits [u] true) else s)
  | .poisonReg k v r l => .next (s.poisonRegister k v r l)
  | .poisonAcc g u =>
    .next (if s.work.teams.has g then s.mapTeam g (fun t => { t with accPoison := insertNat t.accPoison u }) else s)
  | .poisonSlot d n u => .next (s.poisonSlot d n u)
  | .loseSpill i => .next (s.loseSpill i)
  | .corrected sl => .next (s.corrected sl)

/-- Is a turn a reset of the package? -/
def Turn.resets (t : Turn) : Bool :=
  match t with
  | .event (.packageReset _ _) => true
  | _ => false

/-- A turn of the machine: a package that its reset has left unstarted only waits for another (R410). -/
def Turn.run (t : Turn) (s : State) : Out := if s.pkg.booted || t.resets then t.act s else .next s

/-- The turn that comes next, and the state without it: the first of the agenda, or the one that the counter picks among those that
something may take. -/
def State.nextTurn (s : State) : Option Turn × State :=
  match s.agenda with
  | t :: r => (some t, { s with agenda := r })
  | [] => let l := s.turns
    (l[s.turn % l.length]?, { s with turn := s.turn + 1 })

end Sys2Proof.Machine
end

