-- ==== Sys2Proof/Machine/Step.lean ====
section
/-! DEFINITION. One step of the machine: the turn that comes next (log entry 11), and the placement of one instruction where
the next step runs it (log entry 21). -/

namespace Sys2Proof.Machine

/-- One step: the next turn of the agenda, or the turn that the model chooses where the agenda lists none. -/
def step (s : State) : Host.Outcome State Fault Refusal :=
  match s.nextTurn with
  | (some t, s') => t.run s'
  | (none, s') => .next s'

/-- The words of a clause of one word: its header, of the word's class, and the word. -/
def oneWordClause (w : Lane) : List Lane := [BitVec.ofNat 32 (0xC1000000 + (wordClass w).getD 0 * 2 ^ 21), w]

/-- The launch that placing an instruction stands for: one block of one group of 32 lanes with all registers and the whole
scratchpad, privileged, of role `role`. -/
def placedLaunch (role : Nat) : Launch :=
  { cmd := [setBits (setBits (setBits (setBits 0 6 4 1) 15 4 15) 19 2 1) 21 12 2560, 0, 0, BitVec.ofNat 64 role, 0, 0, 0, setBits 0 32 32 1],
    stream := 0, part := 0, root := 0, asid := 0, priv := true, rm := 0, det := 0, st := .running, img := 0, codeOff := 0,
    trapOff := 2 ^ 32 - 1, regOff := 0, regCnt := 0, rank := 0, npkg := 1, bfirst := 0, bcnt := 1, bnext := 0, ended := [],
    killed := false, team := 0, agent := 0, payload := none, rankReady := true }

/-- The role that may issue an instruction: matrix for those of Table 7.3's matrix row, else any. -/
def roleFor (i : Option Instr) : Nat :=
  match i with
  | some (.mgang _ _) => 1
  | some (.mma _ _ _ _ _ _ _ _) => 1
  | some (.mmas _ _ _ _ _ _ _ _ _) => 1
  | _ => 3

/-- Does an instruction exist on distaff cores only? -/
def onDistaff (i : Option Instr) : Bool :=
  match i with
  | some (.ctxsave _ _ _) => true
  | some (.ctxload _ _ _) => true
  | _ => false

/-- Give a thread a fetched clause of one word, and the next turn. -/
def State.giveWord (s : State) (k : Nat) (w : Lane) : State :=
  { s.mapThread k (fun t => { t with fetch := ⟨t.fetch.hdr, 1, oneWordClause w⟩ }) with agenda := .issue k :: s.agenda }

/-- Place one block of one group on core 0 of die 0, as the dispatcher does, and give it the word. -/
def State.placeGroup (s : State) (role : Nat) (w : Lane) : State :=
  let lnum := s.work.lnumNext
  let sl := nth (s.freeSlots 0) 0 0
  let l := placedLaunch role
  let s := { s with work := { s.work with launches := s.work.launches.put lnum l, lnumNext := nextLaunch lnum } }
  (s.placeBlock lnum l 0 [0]).giveWord (groupKey 0 sl) w

/-- `s` with one instruction as the first word of a fetched clause of a thread whose turn comes next. A group takes it, as a launch
brings one to a core; an instruction of distaff cores goes to the first distaff thread. -/
def State.withFetchWord (s : State) (nbits w : Nat) : State :=
  let w : Lane := BitVec.ofNat 32 (w % 2 ^ nbits)
  let i := wordInstr w
  if onDistaff i then s.giveWord (distaffKey 0 0) w else s.placeGroup (roleFor i) w

end Sys2Proof.Machine
end

