-- ==== Sys2Proof/Safety.lean ====
section
/-! DEFINITION. The terms of the claims: a step that goes on, the canonical form of memory, when a thread may issue a word, and
what a word of one shape leaves behind. -/

namespace Sys2Proof.Safety

open Sys2Proof.Machine

/-- A step answers a next state. -/
def Goes (s : State) : Prop := ∃ t, step s = .next t

/-- The memory of a state is in its canonical form. -/
def MemoryForm (s : State) : Prop := Memory.wf s.mem.bytes = true

/-- The current thread may issue a word: its role permits the row, the scalars `ss` that it reads are full and unpoisoned, and the
scalars `ds` and vector registers `vs` are full (R150, R161, R187, Table 7.3). -/
abbrev Ready (s : State) (row : RoleRow) (ss ds vs : List Nat) : Prop :=
  s.th.issues = true ∧ (s.th.kind = .group → row.permits s.th.ident.role = true)
    ∧ (∀ r ∈ ss, s.th.regs.sFull r = true ∧ s.th.regs.sPoison.contains r = false)
    ∧ (∀ r ∈ ds, s.th.regs.sFull r = true) ∧ (∀ r ∈ vs, s.th.regs.vFull r = true)

/-- The same for a word that exists on SIMT cores only. -/
abbrev GroupReady (s : State) (row : RoleRow) (ss ds vs : List Nat) : Prop := s.th.kind = .group ∧ Ready s row ss ds vs

/-- No active lane reads poison in one of these vector registers. -/
abbrev CleanLanes (s : State) (vs : List Nat) : Prop := ∀ l ∈ s.th.lanes, ∀ r ∈ vs, s.th.regs.vPoison.contains (64 * r + l) = false

/-- The thread outside every transaction. -/
abbrev Outside (s : State) : Prop := s.th.tx.live = false

/-- The current thread has performed a word and stands at the next one. -/
def passed (s : State) : State := s.advance false

/-- The same for a word that ends its group's idempotent region (R152). -/
def passedOut (s : State) : State := s.advance true

/-- One scalar register holds a new value, and the thread stands at the next word. -/
def gives (s : State) (d : BitVec 7) (v : Word) : State := passed (s.setS d v)

/-- Every active lane of a vector register holds a new value, and the thread stands at the next word. -/
def givesLanes (s : State) (d : BitVec 7) (f : Nat → Lane) : State :=
  passed (s.mapTh (fun t => t.mapRegs (fun r => r.mapV d.toNat t.lanes f)))

/-- Every active lane of a register pair holds a new value, and the thread stands at the next word. -/
def givesPairs (s : State) (d : BitVec 7) (f : Nat → Word) : State :=
  passed (s.mapTh (fun t => t.mapRegs (fun r => r.mapV64 d.toNat t.lanes f)))

/-- Every active lane of a mask holds a new bit, and the thread stands at the next word. -/
def givesBits (s : State) (k : BitVec 3) (f : Nat → Bool) : State :=
  passed (s.mapTh (fun t => t.mapRegs (fun r => r.mapM k.toNat t.lanes f)))

/-- A 32-bit lane of the current thread. -/
def lane (s : State) (r : BitVec 7) (l : Nat) : Lane := s.th.regs.v r.toNat l

/-- A 64-bit lane of the current thread: an even register and the next one (R12). -/
def pair (s : State) (r : BitVec 7) (l : Nat) : Word := s.th.regs.v64 r.toNat l

/-- The current thread stands at a clause header, which is fetched next. -/
def jumped (s : State) (h : Word) : State := s.mapTh (fun t => t.goto h)

/-- Nothing outside the current thread differs: memory, caches, other threads, cores, teams and everything else. -/
def OnlyThread (s t : State) : Prop :=
  t = s.setThreads t.work.threads ∧ ∀ k, k ≠ s.work.cur → t.thread k = s.thread k

/-- Every byte of home memory, under every key, reads as before, and so do the poison marks. -/
def SameMemory (s t : State) : Prop :=
  t.mem = s.mem ∧ ∀ a key, t.homeByte key a = s.homeByte key a

/-- Every byte of home memory reads as before; other parts of the memory system may differ. -/
def SameMemoryBytes (s t : State) : Prop := ∀ a key, t.homeByte key a = s.homeByte key a

/-! ## Lanes -/

/-- A word-sized vector register may be named: below NVR, or a clause temporary (R144, R145). -/
abbrev Legal32 (s : State) (rs : List (BitVec 7)) : Prop := ∀ r ∈ rs, r.toNat < s.th.ident.nvr ∨ 120 ≤ r.toNat

/-- A register pair may be named: even, and both registers legal. -/
abbrev Legal64 (s : State) (rs : List (BitVec 7)) : Prop :=
  ∀ r ∈ rs, r.toNat % 2 = 0 ∧ (r.toNat + 1 < s.th.ident.nvr ∨ 120 ≤ r.toNat)

/-- The two registers of a pair. -/
def both (r : BitVec 7) : List Nat := [r.toNat, r.toNat + 1]

/-- A lane-by-lane vector word may be performed on every active lane: its registers are full, and no lane it reads is poisoned. -/
abbrev LaneReady (s : State) (reads writes : List Nat) : Prop :=
  GroupReady s .vector [] [] (reads ++ writes) ∧ CleanLanes s reads ∧ s.th.active ≠ 0

/-- Apply a function to the two 16-bit elements of two lane words. -/
def halves (f : BitVec 16 → BitVec 16 → BitVec 16) (u v : Lane) : Lane :=
  f (u.extractLsb' 16 16) (v.extractLsb' 16 16) ++ f (u.extractLsb' 0 16) (v.extractLsb' 0 16)

/-- The same on three lane words. -/
def halves3 (f : BitVec 16 → BitVec 16 → BitVec 16 → BitVec 16) (u v w : Lane) : Lane :=
  f (u.extractLsb' 16 16) (v.extractLsb' 16 16) (w.extractLsb' 16 16) ++
    f (u.extractLsb' 0 16) (v.extractLsb' 0 16) (w.extractLsb' 0 16)

/-- Apply a function to the four 8-bit elements of two lane words. -/
def quarters (f : BitVec 8 → BitVec 8 → BitVec 8) (u v : Lane) : Lane :=
  f (u.extractLsb' 24 8) (v.extractLsb' 24 8) ++ (f (u.extractLsb' 16 8) (v.extractLsb' 16 8) ++
    (f (u.extractLsb' 8 8) (v.extractLsb' 8 8) ++ f (u.extractLsb' 0 8) (v.extractLsb' 0 8)))

/-- A whole number clamped to the signed range of `n` bits. -/
def clampSigned (n : Nat) (x : Int) : BitVec n := BitVec.ofInt n (max (-(2 ^ (n - 1))) (min (2 ^ (n - 1) - 1) x))

/-! ## Memory words -/

/-- Before a memory word's lanes are performed: no acquire of the thread is outstanding, it is outside every transaction, and what its
order asks for has been done, which leaves `s'`: a release (R283). -/
abbrev Settled (s : State) (order : Order) (s' : State) : Prop :=
  s.th.acqPending = false ∧ Outside s ∧ (if order.rel then s.release order.scope = (s', some 0) else s' = s)

/-- A memory word's lanes, as the checks of R272 resolve them. -/
abbrev laneFates (s : State) (reqs : List LaneReq) : List Resolved := s.resolveAll s.work.cur reqs

/-- Every lane passes the checks of R272, none is behind a replayed store of its thread's group, and none behind another access of
its thread to the same bytes; the buffer of held records has not overflowed; and the immediate flush that the lanes ask for has been
made, which leaves `u` and a ticket for far atomics (R378; at level 0 there is none, and `u` is `s`). -/
abbrev LanesGood (s : State) (reqs : List LaneReq) (u : State) (ticket : Nat) : Prop :=
  s.recordRoom s.th.die 0 = true ∧ s.wordFlush s.work.cur (laneFates s reqs) = some (u, ticket, 0)
    ∧ ∀ r ∈ laneFates s reqs, r.isGood = true ∧ s.replayHolds s.work.cur r.req.va = false ∧ s.behindOwn s.work.cur r = false

/-- The lanes of a load or atomic leave: its destinations are empty, a new producer waits for every lane, and the requests go to
their places in rising lane order (R150, R273). -/
def loadsSent (u : State) (form : Form) (sd vd : List Nat) (order : Order) (spin : Bool) (again : List LaneReq) (rs : List Resolved)
    (ticket : Nat) : State :=
  let k := u.work.cur
  let p := { u.th.producer form sd vd with left := rs.length, order := order, spin := spin, reqs := again }
  let t := (u.settleLooks k rs).mapTh (fun t => t.produce p)
  (if spin then t.offer else t).sendLanes k p.id rs ticket

/-- The lanes of a store leave for their places in rising lane order (R273); what stands for them goes when all have been performed. -/
def storesSent (u : State) (rs : List Resolved) (ticket : Nat) : State :=
  let k := u.work.cur
  let p := { u.th.producer Form.none [] [] with left := rs.length, store := true, inRegion := false }
  let t := ((u.settleLooks k rs).mapTh (fun t => t.produce p)).sendLanes k p.id rs ticket
  match t.th.findProducer p.id with
  | some q => if q.left = 0 then t.mapTh (fun t => t.landProducer q) else t
  | none => t

/-- The registers `r` to `r + n - 1`. -/
def from_ (r : BitVec 7) (n : Nat) : List Nat := (List.range n).map (fun i => r.toNat + i)

/-- A byte of a cache's copy of the line that holds a home address. -/
def cachedByte (s : State) (cache a : Nat) : Option Nat := (s.cached cache (a / 128)).map (fun l => lineByte l.data (a % 128))

/-- The home address of a lane's bytes. -/
def place (r : Resolved) : Nat :=
  match r.fate with
  | .good (.mem a _) => a
  | _ => 0

/-- The number that `n` bytes of a cache make from a home address, little end first. -/
def cachedNumber (s : State) (cache a n : Nat) : Nat := ofBytes ((List.range n).map (fun i => (cachedByte s cache (a + i)).getD 0))

/-- Every lane's bytes lie in a line that the thread's own cache holds exclusively under the lane's key, unpoisoned, with nothing
staged and by no transaction marked, and no other access waits for that line: the lane is performed in the cache at once (Tables 4.7
and 13.1). -/
abbrev LanesHeld (s : State) (rs : List Resolved) : Prop :=
  s.level s.th = 0 ∧ ∀ r ∈ rs, ∃ (h key : Nat) (l : CLine), r.fate = .good (.mem h key) ∧ h % r.req.size = 0
    ∧ s.waiting s.th.cache (h / 128) = [] ∧ s.cached s.th.cache (h / 128) = some l
    ∧ l.key = key ∧ l.stale = false ∧ l.stage = [] ∧ l.spec = false ∧ l.poison = 0 ∧ (l.st = .E ∨ l.st = .M)

/-- A load's results are all at its producer, in rising lane order: the registers of each lane filled from the bytes that its cache held
(Table 13.2); no byte of a cache or of home memory differs, nor any other thread. -/
abbrev Brought (s t : State) (form : Form) (rs : List Resolved) : Prop :=
  (∃ p, t.th.producers = s.th.producers ++ [p] ∧ p.left = 0 ∧ p.await = .none ∧ p.failed = [] ∧ p.poison = [] ∧ p.form = form
    ∧ p.vals = rs.flatMap (fun r => form.values r.req.lane (cachedNumber s s.th.cache (place r) r.req.size)))
  ∧ (∀ c b, cachedByte t c b = cachedByte s c b) ∧ SameMemoryBytes s t ∧ ∀ k, k ≠ s.work.cur → t.thread k = s.thread k

/-- The bytes that lanes have stored, later lanes over earlier ones: byte `i` of a lane's value at its place. -/
def storedByte (rs : List Resolved) (value : Resolved → Nat) (b : Nat) : Option Nat :=
  (rs.reverse.find? (fun r => place r ≤ b && b < place r + r.req.size)).map (fun r => value r / 2 ^ (8 * (b - place r)) % 256)

/-- A store's bytes stand in the thread's own cache, and nothing else there, in another cache, in home memory or in another thread
differs. -/
abbrev Stored (s t : State) (rs : List Resolved) (value : Resolved → Nat) : Prop :=
  (∀ b, cachedByte t s.th.cache b = ((storedByte rs value b).orElse fun _ => cachedByte s s.th.cache b))
  ∧ (∀ c, c ≠ s.th.cache → ∀ i, t.cached c i = s.cached c i) ∧ SameMemoryBytes s t ∧ (∀ k, k ≠ s.work.cur → t.thread k = s.thread k)
  ∧ t.th.regs = s.th.regs ∧ t.th.producers = s.th.producers
  ∧ ∀ r ∈ rs, ∃ l, t.cached s.th.cache (place r / 128) = some l ∧ l.st = .M

/-- A thread's access of scope code `c` is performed in its own cache: always on a distaff core, else up to scope `n` (Tables 4.7, 13.1). -/
abbrev Near (s : State) (c n : Nat) : Prop := s.th.kind = .distaff ∨ c ≤ n

/-- What a polling load or SWAITGE asks of the value it finds (R284, R285); any other access is answered by every value. -/
def met (s : State) (r : Resolved) : Bool :=
  match r.req.op with
  | .poll e => cachedNumber s s.th.cache (place r) r.req.size != e
  | .waitGe n => n ≤ cachedNumber s s.th.cache (place r) r.req.size
  | _ => true

/-- The word that an atomic leaves at a lane's place (R289). -/
def newWord (s : State) (r : Resolved) : Nat :=
  let old := cachedNumber s s.th.cache (place r) r.req.size
  match r.req.op with
  | .atomic o ty v w rm => ((atomicNew o ty old v w (Mode.ofCode rm)).getD old) % 2 ^ (8 * r.req.size)
  | _ => old

/-- The lanes of an atomic on different words have each performed theirs in the thread's own cache: the old words are at its producer,
the new ones stand in the cache, and no other byte of a cache or of home memory differs, nor any other thread. -/
abbrev Swapped (s t : State) (form : Form) (rs : List Resolved) : Prop :=
  (∃ p, t.th.producers = s.th.producers ++ [p] ∧ p.left = 0 ∧ p.await = .none ∧ p.failed = [] ∧ p.poison = [] ∧ p.form = form
    ∧ p.vals = rs.flatMap (fun r => form.values r.req.lane (cachedNumber s s.th.cache (place r) r.req.size)))
  ∧ (∀ r ∈ rs, cachedNumber t s.th.cache (place r) r.req.size = newWord s r)
  ∧ (∀ b, (∀ r ∈ rs, b < place r ∨ place r + r.req.size ≤ b) → cachedByte t s.th.cache b = cachedByte s s.th.cache b)
  ∧ (∀ c, c ≠ s.th.cache → ∀ i, t.cached c i = s.cached c i) ∧ SameMemoryBytes s t ∧ ∀ k, k ≠ s.work.cur → t.thread k = s.thread k

/-- The number a lane stores. -/
def storeValue (r : Resolved) : Nat :=
  match r.req.op with
  | .store v _ => v
  | _ => 0

end Sys2Proof.Safety
end

