-- ==== Sys2Proof/Certificates/Slice0/Obligations.lean ====
section
/-! DEFINITION. The statements for the provers. Each says what rules of spec/ say of an instruction or of the machine; its
docstring names them. -/

open Sys2Proof Sys2Proof.Machine Sys2Proof.Safety

/-- R182, R185, R186: decoding and encoding agree. The words of every well-formed instruction, with every operand at every value,
decode to it, and a word that decodes is the word of its instruction: no bit of an encoding is dropped, and no two words name one
instruction. -/
def Obligations.EncodeAndDecode : Prop :=
  (∀ (i : Instr) (w : Lane), WellFormed i → encode i = some w → decode w = .ok i)
  ∧ (∀ (w : Lane) (i : Instr), decode w = .ok i → encode i = some w)

/-- Tables 9.2 to 9.10 and the worked examples of chapters 9, 13 and 14: words written out from the encodings decode to their
instructions. -/
def Obligations.DecodedWords : Prop :=
  decode 0x04050611#32 = .ok (.sadd 5 3 4 false true) ∧ decode 0x28500003#32 = .ok (.smovi 10 3)
  ∧ decode 0x20142BFF#32 = .ok (.saddi 10 10 0x3FF) ∧ decode 0x410A0000#32 = .ok (.brnz 10 0)
  ∧ decode 0xFDCA0818#32 = .ok (.vcvt 12 10 4 6 false) ∧ decode 0x98830814#32 = .ok (.vshuf 1 3 4 5 false false)
  ∧ decode 0xA0220A28#32 = .ok (.mma 0 2 16 40 true 1 false false) ∧ decode 0xB2040650#32 = .ok (.vld 4 4 3 20 false false)
  ∧ decode 0xCC0A1622#32 = .ok (.satom 0 10 11 false 2 0 2) ∧ decode 0xD2982878#32 = .ok (.znext true 24 20 30 false false)
  ∧ decode 0xE8090008#32 = .ok (.txbegin 9 2) ∧ decode 0xD8022010#32 = .ok (.push 2 16 4)
  ∧ decode 0xE0000E44#32 = .ok (.barinit 7 17 false) ∧ decode 0xE4005058#32 = .ok (.mbpost 40 22 false false)
  ∧ decode 0xF0201001#32 = .ok (.srd 4 0x1001) ∧ decode 0xF8000024#32 = .ok (.trap 9)
  ∧ decode 0xFFC20C1C#32 = .ok (.rtcall 6 7 false) ∧ decode 0xE5000000#32 = .error .unassignedFunction
  ∧ ¬WellFormed (.barinit 0 20 false) ∧ ¬WellFormed (.push 2 16 15)

/-- R161, R162, R187, R193, R375: the turn of a running thread that nothing stops at a word boundary runs the instruction that its word
decodes to, as that thread, where it is a distaff thread or stands in the active set; a word that is no well-formed instruction raises
cause 0x01. The word of a pending group is run where the group finds a place in the active set, which it takes; one that its word does
not move is not ready and waits where it is; and one that finds no place keeps its turn in the order of waiting.

That a pending group is ready where its word moves it, and the order in which turns come, are the model's choices (log entries 11 and
42). -/
def Obligations.StepRunsDecodedInstruction : Prop :=
  ∀ (s u : State) (k : Nat) (r : List Turn), s.agenda = .issue k :: r → s.pkg.booted = true →
    let t := s.thread k
    let c := t.ident.core
    let sl := t.ident.slot
    let s₀ : State := { s with agenda := r }
    t.status = .running → (t.kind = .group → s.dieHeld (dieOf c) = false) → (isGroupKey k = true ↔ t.kind = .group) →
    t.wait = .none → t.later = [] → (s.core c).dbgStop.testBit sl = false →
    (∀ b, s.block? t.ident.lnum t.ident.block = some b → b.st ≠ .stopping) →
    t.fetch.words ≠ [] → t.fetch.wix ≠ 0 → t.tx.live = false →
    (s.isActive k = true →
      (∀ i, decode (nth t.fetch.words t.fetch.wix 0) = .ok i → WellFormed i → exec i (s₀.setCur k) = .next u →
        step s = .next (u.noteTurn k t))
      ∧ ((∀ i, decode (nth t.fetch.words t.fetch.wix 0) = .ok i → ¬WellFormed i) → t.issues = true →
        step s = .next (((s₀.setCur k).trapHere 0x01 0).noteTurn k t)))
    ∧ (s.isActive k = false → ∀ i, decode (nth t.fetch.words t.fetch.wix 0) = .ok i → WellFormed i →
      exec i ((s₀.mapCore c (fun x => x.join sl)).setCur k) = .next u →
        (t.moved (u.thread k) = true →
          (∀ gone, s₀.seat c sl = some gone → step s = .next ((u.mapCore c (fun x => x.seated sl gone)).noteTurn k t))
          ∧ (s₀.seat c sl = none → step s = .next (s₀.denyEntry c sl)))
        ∧ (t.moved (u.thread k) = false → step s = .next (u.notReady k t)))
    ∧ (t.kind = .distaff → s.isActive k = true)
    ∧ (t.kind = .group → (s.isActive k = true ↔ sl ∈ (s.core c).active))
    ∧ (s.isActive k = false → (s.core c).queue = [] → (s.core c).active.length < 8 → s₀.seat c sl = some none)

/-- Every instruction's meaning answers a next state, and so does every step: no run of the machine ends in a fault or a refusal. -/
def Obligations.EveryStepGoesOn : Prop := (∀ (i : Instr) (s : State), ∃ t, exec i s = .next t) ∧ ∀ s : State, Goes s

/-- R23, R25, R119, R148, R376, R388, R401, R410, R414: what the spec gives for reset. Four partitions of one compute die each, with
their resources; no substitution, no resident group, no launch, no cached line, no message, no fault record; the throttle and
collector controls of every core and the power cap at their reset values; every distaff thread is in no transaction and in no
trap. Memory is in its form. -/
def Obligations.ResetState : Prop :=
  let s := State.reset
  MemoryForm s ∧ s.mem.bytes = [] ∧ s.mem.caches = [] ∧ s.mem.net = [] ∧ s.work.launches = [] ∧ s.work.teams = [] ∧ s.svc.frq = []
  ∧ s.svc.regions = [] ∧ s.pkg.slsub = [] ∧ s.pkg.pwrCap = 2600
  ∧ (∀ k, k < 6144 → (s.thread k).status = .vacant)
  ∧ (∀ c, (s.core c).throttle = 0x0007000004000100 ∧ (s.core c).rqcCtl = 0x8100)
  ∧ (∀ p, p < 4 → s.partOfDie p = some p ∧ s.valid p = true)
  ∧ (∀ dc, dc < 64 → s.partOfDistaff dc = some (dc / 16))
  ∧ (∀ dc, dc < 64 → (s.thread (distaffKey dc 0)).tx.live = false ∧ (s.thread (distaffKey dc 0)).trap.tcs = 0
      ∧ (s.thread (distaffKey dc 0)).kind = .distaff)

/-- R34: the bytes of memory stand in one canonical form, which every step keeps: addresses strictly rise, so that equal memories are
equal data. -/
def Obligations.StepKeepsMemoryForm : Prop := ∀ s t : State, MemoryForm s → step s = .next t → MemoryForm t

/-- R187, R193, R144, R148, R150, R151, R83: the checks of a word in their order. A word that no row encodes, one that its thread's
kind does not have, and one of a register group beyond NVR raise cause 0x01; a privileged word in user mode 0x0F; a role that
Table 7.3 does not permit 0x0E; an empty source that asks to trap 0x03, and one that does not leaves the word unissued; a
poisoned scalar that a word consumes 0x10; a misaligned transfer 0x06; a push on a full predicate stack 0x04; a pop or inversion
of the base entry 0x05.

R183 to R186, R439: the clause at a thread's header. A misaligned header raises cause 0x06; a header or a word out of its class
or place raises cause 0x02; a fetch that faults parks a group or traps; and a clause that is well formed is entered, its words
those of memory. Once its wait is met the clause temporaries read zero and its first word comes next. -/
def Obligations.IssueChecks : Prop :=
  (
    ∀ (s : State) (d a b : BitVec 7) (k : BitVec 3) (x y : Bool), s.th.issues = true →
      let t := s.th
      let traps (i : Instr) (cause reason : Nat) : Prop := exec i s = .next (s.trapHere cause reason)
      (t.fetch.words ≠ [] → t.fetch.wix ≠ 0 → t.instr = none → traps (.illegalInstruction s.work.cur) 0x01 0)
      ∧ (t.kind = .distaff → ∀ i ∈ [Instr.vadd32 d a b x y, .vld 0 d a b x y, .ppush k, .pgetm d k, .mgang a x, .mzero k, .bararw 0, .barw 0,
          .ringputClaim d k, .mbtake d a b x y, .vxch d b y, .brany k 0], traps i 0x01 0)
      ∧ (t.kind = .group → traps (.ctxsave d a x) 0x01 0 ∧ traps (.ctxload d a x) 0x01 0)
      ∧ (t.kind = .group → t.ident.nvr ≤ d.toNat → d.toNat < 120 → traps (.vadd32 d a b x y) 0x01 0 ∧ traps (.vld 0 d a b x y) 0x01 0)
      ∧ (t.priv = false → ∀ i ∈ [Instr.idle, .keysel a x, .rtcall d a x, .tinva d a b x y, .tinvc d a x], traps i 0x0F 0)
      ∧ (t.priv = false → t.kind = .distaff → ∀ i ∈ [Instr.haltg, .ctxsave d a x, .ctxload d a x], traps i 0x0F 0)
      ∧ (t.kind = .group → t.ident.role = 0 → (d.toNat < t.ident.nvr ∧ a.toNat < t.ident.nvr ∧ b.toNat < t.ident.nvr) →
          traps (.vadd32 d a b x y) 0x0E 0 ∧ traps (.mgang a x) 0x0E 0)
      ∧ (t.kind = .group → t.ident.role = 0 ∨ t.ident.role = 1 → (∀ r ∈ [d, a, b], r.toNat < t.ident.nvr) → a.toNat % 2 = 0 →
          a.toNat + 1 < t.ident.nvr →
            ∀ i ∈ [Instr.vld 4 d a b x y, .vst 2 d a b x y, .vlds 5 d a b x y, .vldp false d a x, .vstp false d a x, .vgath false d a b x y,
              .vscat false d a b x y, .vldo d a x false 0 0 0, .vsto d a x 0 0 0, .vatom 0 d a x 0 0 0, .xld 0 false d a b x y,
              .xst 0 false d a b x y], traps i 0x0E 0)
      ∧ (t.kind = .group → t.ident.role = 3 → traps (.mgang a x) 0x0E 0)
      ∧ (t.regs.sFull (t.abs a) = false → traps (.sadd d a b true y) 0x03 0)
      ∧ (t.regs.sFull (t.abs a) = false → (y = false ∨ t.regs.sFull (t.abs b) = true) → exec (.sadd d a b false y) s = .next s)
      ∧ (t.regs.sFull (t.abs a) = true → t.regs.sFull (t.abs b) = true → t.regs.sFull (t.abs d) = true →
          t.regs.sPoison.contains (t.abs a) = true → traps (.sadd d a b x y) 0x10 1)
      ∧ (t.regs.sFull (t.abs a) = true → t.regs.sPoison.contains (t.abs a) = false → (t.valS a).toNat % 4 ≠ 0 →
          ∀ i ∈ [Instr.ret a x, .jmpi a x], exec i s = .next (s.trapHere 0x06 0 (t.valS a)))
      ∧ (t.kind = .group → t.pstack.length = 16 → traps (.ppush k) 0x04 0)
      ∧ (t.kind = .group → t.tx.live = false → t.pstack.length = 1 → traps .ppop 0x05 0 ∧ traps .pinv 0x05 0)
  ) ∧ (
    ∀ (s₀ s₁ s₂ : State) (k : Nat),
      let s := s₀.setCur k
      let h := s.th.fetch.hdr
      s.th.issues = true →
      (s.th.fetch.words = [] → s.matrixOut = false →
        (h.toNat % 4 ≠ 0 → exec (.clauseFetch k) s₀ = .next (s.headerTrap 0x06 0 h))
        ∧ (h.toNat % 4 = 0 →
          (∀ c r, s.fetchWord k h = .fault s₁ c r → exec (.clauseFetch k) s₀ = .next (s₁.fetchFault c r))
          ∧ (∀ w, s.fetchWord k h = .ok s₁ [w] →
            let n := w.toNat / 2 ^ 24 % 16
            let distaff := s.th.kind = .distaff
            let bad := w.toNat / 2 ^ 28 ≠ 12 ∨ n = 0 ∨ 6 ≤ w.toNat / 2 ^ 21 % 8 ∨ w.toNat % 2 ^ 11 ≠ 0
              ∨ (distaff ∧ w.toNat / 2 ^ 18 % 8 ≠ 0)
            (bad → exec (.clauseFetch k) s₀ = .next (s₁.headerTrap 0x02 0 0))
            ∧ (¬bad → ∀ ws, s₁.fetchWords k (h + 4) n = .ok s₂ ws →
              (clauseBad (w :: ws) = true → exec (.clauseFetch k) s₀ = .next (s₂.headerTrap 0x02 0 0))
              ∧ (clauseBad (w :: ws) = false → exec (.clauseFetch k) s₀ = .next (s₂.enterClause (w :: ws)))))))
      ∧ (∀ w ws, s.th.fetch.words = w :: ws → s.th.fetch.wix = 0 → s.waitCounters (w.toNat / 2 ^ 12 % 64) = some s₁ →
          ∃ t, exec (.clauseFetch k) s₀ = .next t ∧ t.th.fetch = { s₁.th.fetch with wix := 1 } ∧ t.mem = s₁.mem
            ∧ (s₁.th.kind = .group → ∀ r l, 120 ≤ r → l < 64 → t.th.regs.v r l = 0)
            ∧ (∀ r l, r < 120 → l < 64 → t.th.regs.v r l = s₁.th.regs.v r l) ∧ ∀ r, t.th.regs.s r = s₁.th.regs.s r)
  )

/-- R385, R399: what taking a trap saves and where it goes, for a trap of the current thread's word outside a transaction. A group
enters trap mode at its kernel's trap clause with cause, reason and code in GRP.TCS, the lanes it names in GRP.TLM, the address
in GRP.TVA and the word in GRP.TRSM; one without a trap clause, or in trap mode already, parks with a record of kind 4, or while no
record can be held stops without one and tries again (R390). A distaff
thread becomes privileged, keeps its mode in PRV, saves its position in DTR.RSM and goes to DTR.VEC; one in its handler stops
with its registers kept. -/
def Obligations.TrapEntry : Prop :=
  ∀ (s : State) (cause reason : Nat) (va : Word), Outside s →
    let t := s.th
    let tcs : Word := BitVec.ofNat 64 (2 ^ 63 + cause * 2 ^ 48 + reason * 2 ^ 40)
    let rsm : Word := setBits (setBits 0 0 56 t.fetch.hdr.toNat) 60 4 t.fetch.wix
    (t.kind = .group → ∀ h, s.trapClause t = some h → t.trap.tcs.getLsbD 63 = false →
      s.trapHere cause reason va = s.mapTh (fun t => { t with
        reuse := none, wait := .none, park := none, status := .running, fetch := ⟨h, 0, []⟩,
        trap := { t.trap with tcs := tcs, tlm := t.active, tva := va, trsm := rsm } }))
    ∧ (t.kind = .group → (s.trapClause t = none ∨ t.trap.tcs.getLsbD 63 = true) →
        (s.holdRoom t.die = true →
          s.trapHere cause reason va = (s.mapTh (fun t => { t with reuse := none, wait := .none, park := none, status := .parked })).report
            (s.ownerPart t) t.die ⟨4, cause, reason, t.mid, t.ident.slot, 0, t.xltAsid.toNat % 2 ^ 16, 0, t.active, t.ident.lnum, tcs,
              t.fetch.hdr, rsm⟩ (.trap s.work.cur))
        ∧ (s.holdRoom t.die = false → s.trapHere cause reason va = s.mapTh (fun t => { t with
            reuse := none, wait := .none, park := none, status := .running,
            later := ⟨cause, reason, 0, t.active, va, false, some t.fetch.hdr, some rsm⟩ :: t.later })))
    ∧ (t.kind = .distaff → t.trap.tcs.getLsbD 63 = false →
        s.trapHere cause reason va = s.mapTh (fun t => { t with
          wait := .none, priv := true, fetch := ⟨BitVec.ofNat 64 (bitsAt t.trap.vec 2 54 * 4), 0, []⟩,
          trap := { t.trap with tcs := tcs ||| BitVec.ofNat 64 (bit t.priv * 2 ^ 61), tva := va, trsm := rsm } }))
    ∧ (t.kind = .distaff → t.trap.tcs.getLsbD 63 = true →
        let s' := s.mapTh (fun t => { t with wait := .none, status := .stopped })
        s.trapHere cause reason va = match s.partOfThread t with
          | some p => s'.interrupt p 6
          | none => s')

/-- R323, R324, R386, R387, R399: TRAP enters trap mode with cause 0x12, its code, the active lanes, no address, and the next word as
the place to resume; ERET leaves trap mode and stands at the clause and word that GRP.TRSM or DTR.RSM names, a distaff thread in
the mode that PRV keeps; an ERET to a misaligned clause raises cause 0x06, outside trap mode a group's ERET is illegal, and a
trap inside a live transaction ends it and resumes at RH. -/
def Obligations.TrapAndReturn : Prop :=
  ∀ (s : State) (n : BitVec 7), Ready s .every [] [] [] →
    let t := s.th
    let tcs : Word := BitVec.ofNat 64 (2 ^ 63 + 0x12 * 2 ^ 48 + n.toNat * 2 ^ 32)
    let next : Word := if t.fetch.wix < t.cnt then setBits (setBits 0 0 56 t.fetch.hdr.toNat) 60 4 (t.fetch.wix + 1)
      else setBits 0 0 56 (t.fetch.hdr + BitVec.ofNat 64 (4 * (t.cnt + 1))).toNat
    let back := t.trap.trsm.toNat % 2 ^ 56
    let here : Fetch := ⟨BitVec.ofNat 64 back, t.trap.trsm.toNat / 2 ^ 60, []⟩
    (Outside s → t.kind = .group → ∀ h, s.trapClause t = some h → t.trap.tcs.getLsbD 63 = false →
      exec (.trap n) s = .next (s.mapTh (fun t => { t with
        reuse := none, wait := .none, park := none, status := .running, fetch := ⟨h, 0, []⟩,
        trap := { t.trap with tcs := tcs, tlm := t.active, tva := 0, trsm := next } })))
    ∧ (Outside s → t.kind = .distaff → t.trap.tcs.getLsbD 63 = false →
      exec (.trap n) s = .next (s.mapTh (fun t => { t with
        wait := .none, priv := true, fetch := ⟨BitVec.ofNat 64 (bitsAt t.trap.vec 2 54 * 4), 0, []⟩,
        trap := { t.trap with tcs := tcs ||| BitVec.ofNat 64 (bit t.priv * 2 ^ 61), tva := 0, trsm := next } })))
    ∧ (Outside s → back % 4 = 0 →
      (t.kind = .group → t.trap.tcs.getLsbD 63 = true → exec .eret s = .next (s.mapTh (fun t => { t with
        fetch := here, trap := { t.trap with tcs := t.trap.tcs &&& 0x7FFFFFFFFFFFFFFF } })))
      ∧ (t.kind = .distaff → t.priv = true → exec .eret s = .next (s.mapTh (fun t => { t with
        fetch := here, priv := t.trap.tcs.getLsbD 61, trap := { t.trap with tcs := t.trap.tcs &&& 0x7FFFFFFFFFFFFFFF } }))))
    ∧ (Outside s → back % 4 ≠ 0 → (t.kind = .group → t.trap.tcs.getLsbD 63 = true) → (t.kind = .distaff → t.priv = true) →
        exec .eret s = .next (s.trapHere 0x06 0))
    ∧ (t.kind = .group → t.trap.tcs.getLsbD 63 = false → exec .eret s = .next (s.trapHere 0x01 0))
    ∧ (t.kind = .distaff → t.priv = false → exec .eret s = .next (s.trapHere 0x0F 0))
    ∧ (∀ cause reason va h, t.tx.live = true → t.kind = .group → s.trapClause t = some h → t.trap.tcs.getLsbD 63 = false →
        let u := (s.trapHere cause reason va).th
        u.tx.live = false ∧ u.tx.cause = 6 ∧ u.regs.s t.tx.rd = t.tx.tm ∧ u.trap.trsm = setBits 0 0 56 t.tx.rh.toNat
          ∧ u.trap.tcs = BitVec.ofNat 64 (2 ^ 63 + cause * 2 ^ 48 + reason * 2 ^ 40) ∧ u.fetch = ⟨h, 0, []⟩)

/-- R203, Table 10.1: the integer register forms write sd from sa and sb, and the thread goes on.

R204: division truncates toward zero, and no operand raises a trap.

R203, R206: selection and comparison. -/
def Obligations.ScalarIntegerForms : Prop :=
  (
    ∀ (s : State) (d a b : BitVec 7) (x y : Bool), Ready s .every [s.th.abs a, s.th.abs b] [s.th.abs d] [] →
      let u := s.th.valS a
      let v := s.th.valS b
      let c := v.toNat % 64
      exec (.sadd d a b x y) s = .next (gives s d (u + v))
      ∧ exec (.ssub d a b x y) s = .next (gives s d (u - v))
      ∧ exec (.smul d a b x y) s = .next (gives s d (u * v))
      ∧ exec (.smulh d a b x y) s = .next (gives s d (((u.signExtend 128 * v.signExtend 128) >>> (64 : Nat)).setWidth 64))
      ∧ exec (.smulhn d a b x y) s = .next (gives s d (((u.setWidth 128 * v.setWidth 128) >>> (64 : Nat)).setWidth 64))
      ∧ exec (.sand d a b x y) s = .next (gives s d (u &&& v))
      ∧ exec (.sor d a b x y) s = .next (gives s d (u ||| v))
      ∧ exec (.sxor d a b x y) s = .next (gives s d (u ^^^ v))
      ∧ exec (.sandn d a b x y) s = .next (gives s d (u &&& ~~~v))
      ∧ exec (.sshl d a b x y) s = .next (gives s d (u <<< c))
      ∧ exec (.sshr d a b x y) s = .next (gives s d (u >>> c))
      ∧ exec (.ssra d a b x y) s = .next (gives s d (u.sshiftRight c))
      ∧ exec (.srot d a b x y) s = .next (gives s d ((u <<< c) ||| (u >>> (64 - c))))
      ∧ exec (.smin d a b x y) s = .next (gives s d (if u.toInt ≤ v.toInt then u else v))
      ∧ exec (.smax d a b x y) s = .next (gives s d (if u.toInt ≤ v.toInt then v else u))
      ∧ exec (.sminn d a b x y) s = .next (gives s d (if u.toNat ≤ v.toNat then u else v))
      ∧ exec (.smaxn d a b x y) s = .next (gives s d (if u.toNat ≤ v.toNat then v else u))
  ) ∧ (
    ∀ (s : State) (d a b : BitVec 7) (x y : Bool), Ready s .every [s.th.abs a, s.th.abs b] [s.th.abs d] [] →
      let u := s.th.valS a
      let v := s.th.valS b
      ∃ q r n m : Word,
        exec (.sdiv d a b x y) s = .next (gives s d q) ∧ exec (.srem d a b x y) s = .next (gives s d r)
        ∧ exec (.sdivn d a b x y) s = .next (gives s d n) ∧ exec (.sremn d a b x y) s = .next (gives s d m)
        ∧ (v = 0 → q = 0 ∧ r = u ∧ n = 0 ∧ m = u)
        ∧ (u.toInt = -(2 ^ 63) ∧ v.toInt = -1 → q = u ∧ r = 0)
        ∧ (v ≠ 0 ∧ ¬(u.toInt = -(2 ^ 63) ∧ v.toInt = -1) →
            q.toInt = u.toInt.tdiv v.toInt ∧ r.toInt = u.toInt - q.toInt * v.toInt)
        ∧ (v ≠ 0 → n.toNat = u.toNat / v.toNat ∧ m.toNat = u.toNat - n.toNat * v.toNat)
  ) ∧ (
    ∀ (s : State) (d a b : BitVec 7) (x y : Bool), Ready s .every [s.th.abs a, s.th.abs b, s.th.abs d] [s.th.abs d] [] →
      let u := s.th.valS a
      let v := s.th.valS b
      exec (.ssel d a b x y) s = .next (gives s d (if s.th.valS d = 0 then v else u))
      ∧ exec (.sset 0 d a b x y) s = .next (gives s d (if u = v then 1 else 0))
      ∧ exec (.sset 1 d a b x y) s = .next (gives s d (if u = v then 0 else 1))
      ∧ exec (.sset 2 d a b x y) s = .next (gives s d (if u.toInt < v.toInt then 1 else 0))
      ∧ exec (.sset 3 d a b x y) s = .next (gives s d (if v.toInt ≤ u.toInt then 1 else 0))
      ∧ exec (.sset 4 d a b x y) s = .next (gives s d (if u.toNat < v.toNat then 1 else 0))
      ∧ exec (.sset 5 d a b x y) s = .next (gives s d (if v.toNat ≤ u.toNat then 1 else 0))
  )

/-- R205: the counts and the bit fields, bit by bit.

R207, R208: the immediate forms. -/
def Obligations.ScalarFieldsAndImmediates : Prop :=
  (
    ∀ (s : State) (d a b : BitVec 7) (x y : Bool), Ready s .every [s.th.abs a, s.th.abs b, s.th.abs d] [s.th.abs d] [] →
      let u := s.th.valS a
      let v := s.th.valS b
      let old := s.th.valS d
      let p := bitsAt v 0 6
      let w := min (bitsAt v 8 7) (64 - p)
      ∃ lz tz pc ex ins : Word,
        exec (.sclz d a x) s = .next (gives s d lz) ∧ exec (.sctz d a x) s = .next (gives s d tz)
        ∧ exec (.spopc d a x) s = .next (gives s d pc) ∧ exec (.sbfe d a b x y) s = .next (gives s d ex)
        ∧ exec (.sbfi d a b x y) s = .next (gives s d ins)
        ∧ (u = 0 → lz = 64 ∧ tz = 64)
        ∧ (u ≠ 0 → lz.toNat < 64 ∧ u.toNat / 2 ^ (63 - lz.toNat) = 1 ∧ u.toNat % 2 ^ tz.toNat = 0 ∧ u.getLsbD tz.toNat = true)
        ∧ pc.toNat = ((List.range 64).filter u.getLsbD).length
        ∧ (∀ j, j < 64 → ex.getLsbD j = if j < w then u.getLsbD (p + j) else (v.getLsbD 15 && decide (0 < w) && u.getLsbD (p + w - 1)))
        ∧ (∀ j, j < 64 → ins.getLsbD j = if p ≤ j ∧ j < p + w then u.getLsbD (j - p) else old.getLsbD j)
  ) ∧ (
    ∀ (s : State) (d a : BitVec 7) (i : BitVec 10) (n : BitVec 6) (k : BitVec 19),
      Ready s .every [s.th.abs a, s.th.abs d] [s.th.abs d] [] →
      let u := s.th.valS a
      exec (.saddi d a i) s = .next (gives s d (u + i.signExtend 64))
      ∧ exec (.sandi d a i) s = .next (gives s d (u &&& i.signExtend 64))
      ∧ exec (.sori d a i) s = .next (gives s d (u ||| i.signExtend 64))
      ∧ exec (.sxori d a i) s = .next (gives s d (u ^^^ i.signExtend 64))
      ∧ exec (.sshli d a n) s = .next (gives s d (u <<< n.toNat))
      ∧ exec (.sshri d a n) s = .next (gives s d (u >>> n.toNat))
      ∧ exec (.ssrai d a n) s = .next (gives s d (u.sshiftRight n.toNat))
      ∧ exec (.smovi d k) s = .next (gives s d (k.signExtend 64))
      ∧ exec (.shigh d k) s = .next (gives s d ((s.th.valS d <<< (19 : Nat)) ||| k.setWidth 64))
  )

/-- R209 to R211: scalar floating point in the thread's rounding mode, with one rounding, F32 results zero-extended. -/
def Obligations.ScalarFloat : Prop :=
  ∀ (s : State) (d a b : BitVec 7) (x y : Bool), Ready s .every [s.th.abs a, s.th.abs b, s.th.abs d] [s.th.abs d] [] →
    let u := (s.th.valS a).toNat
    let v := (s.th.valS b).toNat
    let w := (s.th.valS d).toNat
    let lo := 2 ^ 32
    let m := s.th.mode
    exec (.sfadd true d a b x y) s = .next (gives s d (BitVec.ofNat 64 (fadd .f64 m u v)))
    ∧ exec (.sfadd false d a b x y) s = .next (gives s d (BitVec.ofNat 64 (fadd .f32 m (u % lo) (v % lo))))
    ∧ exec (.sfmul true d a b x y) s = .next (gives s d (BitVec.ofNat 64 (fmul .f64 m u v)))
    ∧ exec (.sfmul false d a b x y) s = .next (gives s d (BitVec.ofNat 64 (fmul .f32 m (u % lo) (v % lo))))
    ∧ exec (.sfdiv true d a b x y) s = .next (gives s d (BitVec.ofNat 64 (fdiv .f64 m u v)))
    ∧ exec (.sfdiv false d a b x y) s = .next (gives s d (BitVec.ofNat 64 (fdiv .f32 m (u % lo) (v % lo))))
    ∧ exec (.sffma true d a b x y) s = .next (gives s d (BitVec.ofNat 64 (ffma .f64 m u v w)))
    ∧ exec (.sffma false d a b x y) s = .next (gives s d (BitVec.ofNat 64 (ffma .f32 m (u % lo) (v % lo) (w % lo))))
    ∧ (∀ (t : Bool) (c : BitVec 2), exec (.sfset t c d a b x y) s = .next (gives s d
        (if fcmp c.toNat ((fmtOf t).decode (fbits t (s.th.valS a))) ((fmtOf t).decode (fbits t (s.th.valS b))) then 1 else 0)))
    ∧ (∀ p q : BitVec 2, exec (.sfcvt p q d a x) s = .next (gives s d
        (BitVec.ofNat 64 (convert m (scalarCode p) (scalarCode q) u))))

/-- R147, R149, R203 to R211: a scalar instruction changes its destination register and the position of its own thread, and nothing
else: no other register, mask, flag-like field or byte of memory. -/
def Obligations.ScalarFrame : Prop :=
  ∀ (s t : State) (d a b : BitVec 7) (x y f : Bool) (c : BitVec 3) (p q : BitVec 2) (i : BitVec 10) (n : BitVec 6) (k : BitVec 19)
    (w : Instr),
    w ∈ [Instr.sadd d a b x y, .ssub d a b x y, .smul d a b x y, .smulh d a b x y, .smulhn d a b x y, .sdiv d a b x y,
      .sdivn d a b x y, .srem d a b x y, .sremn d a b x y, .sand d a b x y, .sor d a b x y, .sxor d a b x y, .sandn d a b x y,
      .sshl d a b x y, .sshr d a b x y, .ssra d a b x y, .srot d a b x y, .smin d a b x y, .smax d a b x y, .sminn d a b x y,
      .smaxn d a b x y, .ssel d a b x y, .sclz d a x, .sctz d a x, .spopc d a x, .sbfe d a b x y, .sbfi d a b x y,
      .sset c d a b x y, .saddi d a i, .sandi d a i, .sori d a i, .sxori d a i, .sshli d a n, .sshri d a n, .ssrai d a n,
      .smovi d k, .shigh d k, .sfadd f d a b x y, .sfmul f d a b x y, .sfdiv f d a b x y, .sffma f d a b x y,
      .sfset f p d a b x y, .sfcvt p q d a x] →
    Ready s .every [s.th.abs a, s.th.abs b, s.th.abs d] [s.th.abs d] [] →
    exec w s = .next t →
      OnlyThread s t ∧ SameMemory s t
      ∧ t.th = { s.th with regs := t.th.regs, fetch := s.th.advance.fetch }
      ∧ t.th.regs = { s.th.regs with sreg := t.th.regs.sreg, sPoison := t.th.regs.sPoison }
      ∧ (∀ r, r ≠ s.th.abs d → t.th.regs.s r = s.th.regs.s r ∧ t.th.regs.sPoison.contains r = s.th.regs.sPoison.contains r)

/-- R188, R213: a taken branch stands at H + 4 * sext(OFF16), whose clause is fetched next, and one not taken at the next word. BRANY
and BRALL decide over `active()`.

R183, R214: CALL links the header after its clause, H + 4 (CNT + 1), and transfers; RET and JMPI transfer through a register
whose value is a multiple of 4. -/
def Obligations.ControlTransfers : Prop :=
  (
    ∀ (s : State) (a : BitVec 7) (k : BitVec 3) (o : BitVec 16), Ready s .every [s.th.abs a] [] [] →
      let go := jumped s (s.th.fetch.hdr + 4 * o.signExtend 64)
      exec (.br o) s = .next go
      ∧ exec (.brz a o) s = .next (if s.th.valS a = 0 then go else passed s)
      ∧ exec (.brnz a o) s = .next (if s.th.valS a = 0 then passed s else go)
      ∧ (s.th.kind = .group →
          exec (.brany k o) s = .next (if s.th.lanes.any (fun l => (s.th.regs.m k.toNat).getLsbD l) then go else passed s)
          ∧ exec (.brall k o) s = .next (if s.th.lanes.all (fun l => (s.th.regs.m k.toNat).getLsbD l) then go else passed s))
  ) ∧ (
    ∀ (s : State) (a : BitVec 7) (o : BitVec 16) (x : Bool),
      (Ready s .every [] [s.th.abs a] [] →
        exec (.call a o) s = .next (jumped (s.setS a (s.th.fetch.hdr + BitVec.ofNat 64 (4 * (s.th.cnt + 1))))
          (s.th.fetch.hdr + 4 * o.signExtend 64)))
      ∧ (Ready s .every [s.th.abs a] [] [] → (s.th.valS a).toNat % 4 = 0 →
        exec (.ret a x) s = .next (jumped s (s.th.valS a)) ∧ exec (.jmpi a x) s = .next (jumped s (s.th.valS a)))
  )

/-- R215 to R218: YIELD and NOP change no register and no memory; HALTG ends its thread once no long-latency result is outstanding, and
releases its reuse latch;
REGION names the group's idempotent region, closes the gap, and starts it with no producer inside it. -/
def Obligations.ThreadControl : Prop :=
  ∀ (s : State) (i : BitVec 19) (l : Launch), Ready s .every [] [] [] →
    exec .nop s = .next (passed s)
    ∧ (∃ t, exec .yield s = .next t ∧ t.work.threads = (passed s).work.threads ∧ SameMemory s t
        ∧ (s.th.kind = .distaff → t = passed s)
        ∧ (s.th.kind = .group → s.th.ident.slot ∉ (t.core s.th.ident.core).active
            ∧ ∀ r, r ≠ s.th.ident.slot → (r ∈ (t.core s.th.ident.core).active ↔ r ∈ (s.core s.th.ident.core).active)))
    ∧ (s.th.tx.live = false → s.th.producers = [] →
        (s.th.kind = .group → exec .haltg s = .next (s.mapTh (fun t => { t with reuse := none, status := .ended })))
        ∧ (s.th.kind = .distaff → s.th.priv = true → exec .haltg s = .next (s.mapTh (fun t => { t with reuse := none, status := .stopped }))))
    ∧ (s.th.tx.live = false → s.th.kind = .group → s.launch? s.th.ident.lnum = some l → i.toNat < l.regCnt →
        exec (.region i) s = .next (passed (s.mapTh (fun t => { t with
          region := some i.toNat, gap := false, producers := t.producers.map (fun p => { p with inRegion := false }) }))))
    ∧ (s.th.tx.live = false → s.th.kind = .distaff → exec (.region i) s = .next (passed s))

/-- R153: the predicate stack. PPUSH pushes the intersection with the top and the condition; PINV turns the top to the complement
within the entry below; PPOP removes the top.

R220, R221: the masks. A mask has a bit for each lane of the group, so bits at or above W stay 0. -/
def Obligations.PredicationAndMasks : Prop :=
  (
    ∀ (s : State) (k : BitVec 3) (m c bm bc : Mask) (r : List (Mask × Mask)), GroupReady s .every [] [] [] →
      Outside s →
      (s.th.pstack = (m, c) :: r → r.length < 15 →
        exec (.ppush k) s = .next (passed (s.mapTh (fun t => { t with
          pstack := (m &&& t.regs.m k.toNat, t.regs.m k.toNat) :: (m, c) :: r }))))
      ∧ (s.th.pstack = (m, c) :: (bm, bc) :: r →
        exec .pinv s = .next (passed (s.mapTh (fun t => { t with
          pstack := (bm &&& ~~~c, ~~~c &&& BitVec.ofNat 64 (2 ^ t.width - 1)) :: (bm, bc) :: r })))
        ∧ exec .ppop s = .next (passed (s.mapTh (fun t => { t with pstack := (bm, bc) :: r }))))
  ) ∧ (
    ∀ (s : State) (k j : BitVec 3) (d : BitVec 7) (x : Bool), GroupReady s .every [s.th.abs d] [s.th.abs d] [] →
      let w := BitVec.ofNat 64 (2 ^ s.th.width - 1)
      let u := s.th.regs.m k.toNat
      let v := s.th.regs.m j.toNat
      let puts (i : BitVec 3) (m : Mask) : State := passed (s.mapTh (fun t => t.mapRegs (fun r => r.setM i.toNat (m &&& w))))
      exec (.psetm k d x) s = .next (puts k (s.th.valS d))
      ∧ exec (.pgetm d k) s = .next (gives s d u)
      ∧ ∀ i : BitVec 3, exec (.mlog 0 i k j) s = .next (puts i (u &&& v)) ∧ exec (.mlog 1 i k j) s = .next (puts i (u ||| v))
        ∧ exec (.mlog 2 i k j) s = .next (puts i (u ^^^ v)) ∧ exec (.mlog 3 i k j) s = .next (puts i (u &&& ~~~v))
        ∧ exec (.mlog 4 i k j) s = .next (puts i (u ||| ~~~v)) ∧ exec (.mlog 5 i k j) s = .next (puts i (~~~u))
  )

/-- R223 to R225, Table 11.1: the 32-bit integer forms on every active lane.

R224, R225: the packed forms compute each 16-bit or 8-bit element by itself, and the 64-bit forms on register pairs.

R230: the one-source integer forms, whose width code 0 to 3 gives 8, 16, 32 or 64 bits; VMOV has the last two. -/
def Obligations.VectorInteger : Prop :=
  (
    ∀ (s : State) (d a b : BitVec 7) (x y : Bool), Legal32 s [d, a, b] →
      (LaneReady s [a.toNat, b.toNat] [d.toNat] →
        ∀ p ∈ ([(.vand, fun u v => u &&& v), (.vor, fun u v => u ||| v), (.vxor, fun u v => u ^^^ v),
            (.vadd32, fun u v => u + v), (.vsub32, fun u v => u - v), (.vmul32, fun u v => u * v),
            (.vshl32, fun u v => u <<< (v.toNat % 32)), (.vshr32, fun u v => u >>> (v.toNat % 32)),
            (.vsra32, fun u v => u.sshiftRight (v.toNat % 32)),
            (.vmulhI32, fun u v => (u.signExtend 64 * v.signExtend 64).extractLsb' 32 32),
            (.vmulhN32, fun u v => (u.setWidth 64 * v.setWidth 64).extractLsb' 32 32),
            (.vminI32, fun u v => if u.slt v then u else v), (.vminN32, fun u v => if u.ult v then u else v),
            (.vmaxI32, fun u v => if u.slt v then v else u), (.vmaxN32, fun u v => if u.ult v then v else u),
            (.vsaddI32, fun u v => clampSigned 32 (u.toInt + v.toInt)),
            (.vssubI32, fun u v => clampSigned 32 (u.toInt - v.toInt)),
            (.vsaddN32, fun u v => BitVec.ofNat 32 (min (2 ^ 32 - 1) (u.toNat + v.toNat))),
            (.vssubN32, fun u v => if u.ult v then 0 else u - v)]
            : List ((BitVec 7 → BitVec 7 → BitVec 7 → Bool → Bool → Instr) × (Lane → Lane → Lane))),
          exec (p.1 d a b x y) s = .next (givesLanes s d (fun l => p.2 (lane s a l) (lane s b l))))
      ∧ (LaneReady s [a.toNat, b.toNat, d.toNat] [d.toNat] →
        exec (.vmad32 d a b x y) s = .next (givesLanes s d (fun l => lane s a l * lane s b l + lane s d l)))
  ) ∧ (
    ∀ (s : State) (d a b : BitVec 7) (x y : Bool),
      (Legal32 s [d, a, b] → LaneReady s [a.toNat, b.toNat] [d.toNat] →
        ∀ p ∈ ([(.vadd16, halves (· + ·)), (.vsub16, halves (· - ·)),
            (.vsaddI16, halves (fun u v => clampSigned 16 (u.toInt + v.toInt))),
            (.vssubI16, halves (fun u v => clampSigned 16 (u.toInt - v.toInt))),
            (.vadd8, quarters (· + ·)), (.vsub8, quarters (· - ·)),
            (.vsaddI8, quarters (fun u v => clampSigned 8 (u.toInt + v.toInt))),
            (.vssubI8, quarters (fun u v => clampSigned 8 (u.toInt - v.toInt)))]
            : List ((BitVec 7 → BitVec 7 → BitVec 7 → Bool → Bool → Instr) × (Lane → Lane → Lane))),
          exec (p.1 d a b x y) s = .next (givesLanes s d (fun l => p.2 (lane s a l) (lane s b l))))
      ∧ (Legal64 s [d, a, b] → LaneReady s (both a ++ both b) (both d) →
        exec (.vadd64 d a b x y) s = .next (givesPairs s d (fun l => pair s a l + pair s b l))
        ∧ exec (.vsub64 d a b x y) s = .next (givesPairs s d (fun l => pair s a l - pair s b l)))
      ∧ (Legal64 s [d, a] → Legal32 s [b] → LaneReady s (both a ++ [b.toNat]) (both d) →
        exec (.vshl64 d a b x y) s = .next (givesPairs s d (fun l => pair s a l <<< ((lane s b l).toNat % 64)))
        ∧ exec (.vshr64 d a b x y) s = .next (givesPairs s d (fun l => pair s a l >>> ((lane s b l).toNat % 64)))
        ∧ exec (.vsra64 d a b x y) s = .next (givesPairs s d (fun l => (pair s a l).sshiftRight ((lane s b l).toNat % 64))))
  ) ∧ (
    ∀ (s : State) (d a : BitVec 7) (x : Bool),
      (Legal32 s [d, a] → LaneReady s [a.toNat] [d.toNat] →
        (∀ p ∈ ([(.vabs, BitVec.abs, BitVec.abs, BitVec.abs), (.vneg, (- ·), (- ·), (- ·)),
              (.vclz, BitVec.clz, BitVec.clz, BitVec.clz), (.vpopc, BitVec.cpop, BitVec.cpop, BitVec.cpop)]
              : List ((BitVec 2 → BitVec 7 → BitVec 7 → Bool → Instr) × (BitVec 8 → BitVec 8) × (BitVec 16 → BitVec 16) × (Lane → Lane))),
            exec (p.1 0 d a x) s = .next (givesLanes s d (fun l => quarters (fun u _ => p.2.1 u) (lane s a l) 0))
            ∧ exec (p.1 1 d a x) s = .next (givesLanes s d (fun l => halves (fun u _ => p.2.2.1 u) (lane s a l) 0))
            ∧ exec (p.1 2 d a x) s = .next (givesLanes s d (fun l => p.2.2.2 (lane s a l))))
        ∧ exec (.vmov false d a x) s = .next (givesLanes s d (fun l => lane s a l)))
      ∧ (Legal64 s [d, a] → LaneReady s (both a) (both d) →
        exec (.vabs 3 d a x) s = .next (givesPairs s d (fun l => (pair s a l).abs))
        ∧ exec (.vneg 3 d a x) s = .next (givesPairs s d (fun l => -(pair s a l)))
        ∧ exec (.vclz 3 d a x) s = .next (givesPairs s d (fun l => (pair s a l).clz))
        ∧ exec (.vpopc 3 d a x) s = .next (givesPairs s d (fun l => (pair s a l).cpop))
        ∧ exec (.vmov true d a x) s = .next (givesPairs s d (fun l => pair s a l)))
  )

/-- R226, R228, R229: bit-field extraction bit by bit, selection under a mask, and the fills from a scalar.

R227, R232: comparisons write one bit of a mask for each active lane. -/
def Obligations.VectorFieldsAndCompares : Prop :=
  (
    ∀ (s : State) (k : BitVec 3) (d a b : BitVec 7) (x y : Bool),
      (Legal32 s [d, a, b] → LaneReady s [a.toNat, b.toNat] [d.toNat] →
        (∃ f g : Nat → Lane, exec (.vbfeI32 d a b x y) s = .next (givesLanes s d f)
          ∧ exec (.vbfeN32 d a b x y) s = .next (givesLanes s d g)
          ∧ ∀ l j, j < 32 →
              let p := (lane s b l).toNat % 32
              let w := min ((lane s b l).toNat / 256 % 64) (32 - p)
              (f l).getLsbD j = (decide (0 < w) && (lane s a l).getLsbD (if j < w then p + j else p + w - 1))
              ∧ (g l).getLsbD j = (decide (j < w) && (lane s a l).getLsbD (p + j)))
        ∧ exec (.vsel k d a b x y) s = .next (givesLanes s d (fun l =>
            if (s.th.regs.m k.toNat).getLsbD l then lane s a l else lane s b l)))
      ∧ (Legal32 s [d] → GroupReady s .vector [s.th.abs b] [] [d.toNat] → s.th.active ≠ 0 →
        exec (.viota d b y) s = .next (givesLanes s d (fun l => (s.th.valS b).setWidth 32 + BitVec.ofNat 32 l))
        ∧ exec (.vmovs d b y) s = .next (givesLanes s d (fun _ => (s.th.valS b).setWidth 32)))
  ) ∧ (
    ∀ (s : State) (k : BitVec 3) (c : BitVec 2) (a b : BitVec 7) (x y : Bool),
      (Legal32 s [a, b] → LaneReady s [a.toNat, b.toNat] [] →
        let tells (f : Lane → Lane → Bool) : Host.Outcome State Fault Refusal :=
          .next (givesBits s k (fun l => f (lane s a l) (lane s b l)))
        exec (.vcmp false 0 k a b x y) s = tells (fun u v => u == v) ∧ exec (.vcmp false 1 k a b x y) s = tells (fun u v => u != v)
        ∧ exec (.vcmp false 2 k a b x y) s = tells (fun u v => u.slt v) ∧ exec (.vcmp false 3 k a b x y) s = tells (fun u v => u.sle v)
        ∧ exec (.vcmp false 4 k a b x y) s = tells (fun u v => u.ult v) ∧ exec (.vcmp false 5 k a b x y) s = tells (fun u v => u.ule v)
        ∧ exec (.vfcmp false c k a b x y) s = tells (fun u v => fcmp c.toNat (Fmt.f32.decode u.toNat) (Fmt.f32.decode v.toNat)))
      ∧ (Legal64 s [a, b] → LaneReady s (both a ++ both b) [] →
        let tells (f : Word → Word → Bool) : Host.Outcome State Fault Refusal :=
          .next (givesBits s k (fun l => f (pair s a l) (pair s b l)))
        exec (.vcmp true 0 k a b x y) s = tells (fun u v => u == v) ∧ exec (.vcmp true 1 k a b x y) s = tells (fun u v => u != v)
        ∧ exec (.vcmp true 2 k a b x y) s = tells (fun u v => u.slt v) ∧ exec (.vcmp true 3 k a b x y) s = tells (fun u v => u.sle v)
        ∧ exec (.vcmp true 4 k a b x y) s = tells (fun u v => u.ult v) ∧ exec (.vcmp true 5 k a b x y) s = tells (fun u v => u.ule v)
        ∧ exec (.vfcmp true c k a b x y) s = tells (fun u v => fcmp c.toNat (Fmt.f64.decode u.toNat) (Fmt.f64.decode v.toNat)))
  )

/-- R231, R233, R234: floating point on every element, with one rounding in the mode of the group; the type codes 0 to 3 name two F16
elements, two B16 elements, one F32 element and one F64 pair. -/
def Obligations.VectorFloat : Prop :=
  ∀ (s : State) (d a b : BitVec 7) (x y : Bool),
    let m := s.th.mode
    let two (f : Nat → Nat → Nat) : Lane → Lane → Lane := halves (fun u v => BitVec.ofNat 16 (f u.toNat v.toNat))
    (∀ p ∈ ([(.vfadd, fun f => fadd f m), (.vfsub, fun f => fsub f m), (.vfmul, fun f => fmul f m), (.vfdiv, fun f => fdiv f m),
          (.vfmin, fun f => fmin f), (.vfmax, fun f => fmax f)]
          : List ((BitVec 2 → BitVec 7 → BitVec 7 → BitVec 7 → Bool → Bool → Instr) × (Fmt → Nat → Nat → Nat))),
      (Legal32 s [d, a, b] → LaneReady s [a.toNat, b.toNat] [d.toNat] →
        exec (p.1 0 d a b x y) s = .next (givesLanes s d (fun l => two (p.2 .f16) (lane s a l) (lane s b l)))
        ∧ exec (p.1 1 d a b x y) s = .next (givesLanes s d (fun l => two (p.2 .b16) (lane s a l) (lane s b l)))
        ∧ exec (p.1 2 d a b x y) s = .next (givesLanes s d (fun l =>
            BitVec.ofNat 32 (p.2 .f32 (lane s a l).toNat (lane s b l).toNat))))
      ∧ (Legal64 s [d, a, b] → LaneReady s (both a ++ both b) (both d) →
        exec (p.1 3 d a b x y) s = .next (givesPairs s d (fun l =>
          BitVec.ofNat 64 (p.2 .f64 (pair s a l).toNat (pair s b l).toNat)))))
    ∧ (∀ p ∈ ([(.vfsqrt, fun f => fsqrt f m), (.vfrcp, fun f => frcp f m), (.vfrsq, fun f => frsq f m), (.vfexp2, fun f => fexp2 f m),
          (.vflog2, fun f => flog2 f m), (.vfclass, fun f => fclass f),
          (.vfabs, fun f u => u % 2 ^ (f.bits - 1)), (.vfneg, fun f u => (u + 2 ^ (f.bits - 1)) % 2 ^ f.bits)]
          : List ((BitVec 2 → BitVec 7 → BitVec 7 → Bool → Instr) × (Fmt → Nat → Nat))),
      (Legal32 s [d, a] → LaneReady s [a.toNat] [d.toNat] →
        exec (p.1 0 d a x) s = .next (givesLanes s d (fun l => two (fun u _ => p.2 .f16 u) (lane s a l) 0))
        ∧ exec (p.1 1 d a x) s = .next (givesLanes s d (fun l => two (fun u _ => p.2 .b16 u) (lane s a l) 0))
        ∧ exec (p.1 2 d a x) s = .next (givesLanes s d (fun l => BitVec.ofNat 32 (p.2 .f32 (lane s a l).toNat))))
      ∧ (Legal64 s [d, a] → LaneReady s (both a) (both d) →
        exec (p.1 3 d a x) s = .next (givesPairs s d (fun l => BitVec.ofNat 64 (p.2 .f64 (pair s a l).toNat)))))
    ∧ (Legal32 s [d, a, b] → LaneReady s [a.toNat, b.toNat, d.toNat] [d.toNat] →
        exec (.vffma 0 d a b x y) s = .next (givesLanes s d (fun l =>
          halves3 (fun u v w => BitVec.ofNat 16 (ffma .f16 m u.toNat v.toNat w.toNat)) (lane s a l) (lane s b l) (lane s d l)))
        ∧ exec (.vffma 1 d a b x y) s = .next (givesLanes s d (fun l =>
          halves3 (fun u v w => BitVec.ofNat 16 (ffma .b16 m u.toNat v.toNat w.toNat)) (lane s a l) (lane s b l) (lane s d l)))
        ∧ exec (.vffma 2 d a b x y) s = .next (givesLanes s d (fun l =>
          BitVec.ofNat 32 (ffma .f32 m (lane s a l).toNat (lane s b l).toNat (lane s d l).toNat))))
    ∧ (Legal64 s [d, a, b] → LaneReady s (both a ++ both b ++ both d) (both d) →
        exec (.vffma 3 d a b x y) s = .next (givesPairs s d (fun l =>
          BitVec.ofNat 64 (ffma .f64 m (pair s a l).toNat (pair s b l).toNat (pair s d l).toNat))))

/-- R235 to R238: conversion of element 0 of each lane, packing, unpacking and scaling by a power of two. -/
def Obligations.VectorConversions : Prop :=
  ∀ (s : State) (d a b : BitVec 7) (x y : Bool),
    let m := s.th.mode
    (∀ (p q : BitVec 4) (dst src : Code), Code.of p.toNat = some dst → Code.of q.toNat = some src →
      (if src.bits = 64 then Legal64 s [a] else Legal32 s [a]) → (if dst.bits = 64 then Legal64 s [d] else Legal32 s [d]) →
      LaneReady s (if src.bits = 64 then both a else [a.toNat]) (if dst.bits = 64 then both d else [d.toNat]) →
      let v (l : Nat) := convert m dst src (if src.bits = 64 then (pair s a l).toNat else (lane s a l).toNat)
      exec (.vcvt p q d a x) s = .next (if dst.bits = 64 then givesPairs s d (fun l => BitVec.ofNat 64 (v l))
        else givesLanes s d (fun l => BitVec.ofNat 32 (v l))))
    ∧ (Legal32 s [d, a, b] → LaneReady s [a.toNat, b.toNat] [d.toNat] →
      ∀ p ∈ ([(0, .flt .f16, .flt .f32), (1, .flt .b16, .flt .f32), (2, .int true 16, .int true 32),
          (3, .int false 16, .int false 32)] : List (BitVec 3 × Code × Code)),
        exec (.vpack p.1 d a b x y) s = .next (givesLanes s d (fun l =>
          let c (r : BitVec 7) := convert m p.2.1 p.2.2 (lane s r l).toNat
          BitVec.ofNat 32 (c a + c b * 2 ^ 16))))
    ∧ (Legal32 s [d] → s.th.badV a 4 = false →
      LaneReady s [a.toNat, a.toNat + 1, a.toNat + 2, a.toNat + 3] [d.toNat] →
      ∀ p ∈ ([(4, .flt .zt8, .flt .f32), (5, .flt .zt6, .flt .f32), (6, .int true 8, .int true 32),
          (7, .int false 8, .int false 32)] : List (BitVec 3 × Code × Code)),
        exec (.vpack p.1 d a b x y) s = .next (givesLanes s d (fun l =>
          let c (j : Nat) := convert m p.2.1 p.2.2 (s.th.regs.v (a.toNat + j) l).toNat
          BitVec.ofNat 32 (c 0 + c 1 * 2 ^ 8 + c 2 * 2 ^ 16 + c 3 * 2 ^ 24))))
    ∧ (Legal32 s [d, a] → LaneReady s [a.toNat] [d.toNat] →
      (∀ (j : BitVec 2) (i : BitVec 10), ∀ p ∈ ([(0, 8, .int true 8, .int true 32), (1, 8, .int false 8, .int false 32),
          (2, 16, .int true 16, .int true 32), (3, 16, .int false 16, .int false 32), (8, 16, .flt .f16, .flt .f32),
          (9, 16, .flt .b16, .flt .f32), (12, 8, .flt .zt8, .flt .f32), (13, 8, .flt .zt6, .flt .f32)]
          : List (BitVec 4 × Nat × Code × Code)),
        exec (.vunpk d a p.1 j) s = .next (givesLanes s d (fun l =>
          BitVec.ofNat 32 (convert m p.2.2.2 p.2.2.1 ((lane s a l).toNat / 2 ^ (p.2.1 * j.toNat) % 2 ^ p.2.1))))
        ∧ exec (.vscale d a i) s = .next (givesLanes s d (fun l =>
          BitVec.ofNat 32 (Fmt.f32.encode m ((Fmt.f32.decode (lane s a l).toNat).scale i.toInt))))))

/-- R149, R223: with `active()` empty a lane-by-lane word performs nothing, and its thread goes to the next word.

R83, R384: a lane whose source is poisoned is not written; the other lanes are, and one trap of cause 0x10 reason 1 names the
poisoned lanes. -/
def Obligations.EmptyAndPoisonedLanes : Prop :=
  (
    ∀ (s : State) (d a b : BitVec 7) (x y : Bool) (k : BitVec 3) (t : BitVec 2) (o : BitVec 10), GroupReady s .vector [] [] [] →
      s.th.active = 0 → s.th.badE 64 d = false → s.th.badE 64 a = false → s.th.badE 64 b = false →
        s.th.badE 32 d = false → s.th.badE 32 a = false → s.th.badE 32 b = false →
        ∀ w ∈ [Instr.vand d a b x y, .vadd32 d a b x y, .vmad32 d a b x y, .vadd16 d a b x y, .vadd8 d a b x y, .vadd64 d a b x y,
            .vshl64 d a b x y, .vbfeI32 d a b x y, .viota d b y, .vmovs d b y, .vsel k d a b x y, .vcmp true 0 k a b x y,
            .vabs t d a x, .vfadd t d a b x y, .vffma t d a b x y, .vfcmp true t k a b x y, .vfsqrt t d a x, .vscale d a o,
            .vbcast d a b x y, .vshuf 0 d a b x y],
          exec w s = .next (passed s)
  ) ∧ (
    ∀ (s : State) (d a b : BitVec 7) (x y : Bool), Legal32 s [d, a, b] →
      GroupReady s .vector [] [] [a.toNat, b.toNat, d.toNat] →
      let bad := s.th.lanes.filter (fun l => s.th.regs.vPoison.contains (64 * a.toNat + l) || s.th.regs.vPoison.contains (64 * b.toNat + l))
      let good := s.th.lanes.filter (fun l => !(s.th.regs.vPoison.contains (64 * a.toNat + l) || s.th.regs.vPoison.contains (64 * b.toNat + l)))
      bad ≠ [] →
        ∀ p ∈ ([(.vand, fun u v => u &&& v), (.vadd32, fun u v => u + v), (.vmul32, fun u v => u * v), (.vadd8, quarters (· + ·))]
            : List ((BitVec 7 → BitVec 7 → BitVec 7 → Bool → Bool → Instr) × (Lane → Lane → Lane))),
          exec (p.1 d a b x y) s = .next ((s.mapTh (fun t => t.mapRegs (fun r => r.mapV d.toNat good
            (fun l => p.2 (r.v a.toNat l) (r.v b.toNat l))))).trapAfter 0x10 1 (maskOf bad) 0 false)
  )

/-- R149, R223: a word that writes lanes of one register, of one pair or of one mask, as the statements of the vector words conclude,
changes only the active lanes of that destination and the position of its own thread. -/
def Obligations.VectorFrame : Prop :=
  ∀ (s t : State) (w : Instr) (d : BitVec 7) (k : BitVec 3), exec w s = .next t →
    (∀ f, t = givesLanes s d f →
      OnlyThread s t ∧ SameMemory s t ∧ t.th = { s.th with regs := t.th.regs, fetch := s.th.advance.fetch }
      ∧ t.th.regs = { s.th.regs with vreg := t.th.regs.vreg, vPoison := t.th.regs.vPoison }
      ∧ (∀ r l, l < 64 → ¬(r = d.toNat ∧ l ∈ s.th.lanes) → t.th.regs.v r l = s.th.regs.v r l)
      ∧ ∀ l ∈ s.th.lanes, t.th.regs.v d.toNat l = f l)
    ∧ (∀ f, t = givesPairs s d f →
      OnlyThread s t ∧ SameMemory s t ∧ t.th = { s.th with regs := t.th.regs, fetch := s.th.advance.fetch }
      ∧ t.th.regs = { s.th.regs with vreg := t.th.regs.vreg, vPoison := t.th.regs.vPoison }
      ∧ (∀ r l, l < 64 → ¬(r ∈ both d ∧ l ∈ s.th.lanes) → t.th.regs.v r l = s.th.regs.v r l)
      ∧ ∀ l ∈ s.th.lanes, t.th.regs.v64 d.toNat l = f l)
    ∧ (∀ f, t = givesBits s k f →
      OnlyThread s t ∧ SameMemory s t ∧ t.th = { s.th with regs := t.th.regs, fetch := s.th.advance.fetch }
      ∧ t.th.regs = { s.th.regs with mask := t.th.regs.mask }
      ∧ (∀ j, j ≠ k.toNat → t.th.regs.m j = s.th.regs.m j)
      ∧ ∀ l, l < 64 → (t.th.regs.m k.toNat).getLsbD l = if l ∈ s.th.lanes then f l else (s.th.regs.m k.toNat).getLsbD l)

/-- R239 to R242: shuffles and broadcasts read any lane, active or not, and write active lanes; VBALLOT gathers one bit from each
active lane into a scalar.

R247: VREBAL gives each active lane the row and the place in it of its work item, or the width and zero past the last. -/
def Obligations.CrossLaneMoves : Prop :=
  (
    ∀ (s : State) (c : BitVec 3) (d a b : BitVec 7) (x y : Bool),
      (∀ l, s.th.regs.vPoison.contains (64 * a.toNat + l) = false) →
        (Legal32 s [d, a, b] → LaneReady s [a.toNat, b.toNat] [d.toNat] → 4 * 2 ^ c.toNat ≤ s.th.width →
          exec (.vshuf c d a b x y) s = .next (givesLanes s d (fun l =>
            let i := (lane s b l).toNat
            if i < s.th.width ∧ i / (4 * 2 ^ c.toNat) = l / (4 * 2 ^ c.toNat) then lane s a i else lane s a l)))
        ∧ (Legal32 s [d, a] → GroupReady s .vector [s.th.abs b] [] [d.toNat, a.toNat] → s.th.active ≠ 0 →
          exec (.vbcast d a b x y) s = .next (givesLanes s d (fun l =>
            if (s.th.valS b).toNat < s.th.width then lane s a (s.th.valS b).toNat else lane s a l)))
        ∧ (Legal32 s [a] → GroupReady s .vector [] [s.th.abs d] [a.toNat] →
          ∃ v : Word, exec (.vballot d a x) s = .next (gives s d v)
            ∧ ∀ l, l < 64 → v.getLsbD l = (s.th.active.getLsbD l && lane s a l != 0))
  ) ∧ (
    ∀ (s : State) (k : BitVec 3) (d a b : BitVec 7) (x y : Bool), Legal32 s [a] → s.th.badV d 2 = false →
      GroupReady s .vector [s.th.abs b] [] (a.toNat :: both d) → s.th.active ≠ 0 →
      (∀ l, s.th.regs.vPoison.contains (64 * a.toNat + l) = false) →
        let pre (i : Nat) : Nat := ((List.range i).map (fun j => (lane s a j).toNat)).sum
        ∃ row place : Nat → Nat, exec (.vrebal k d a b x y) s = .next (passed (s.mapTh (fun t => t.mapRegs (fun r =>
            ((r.mapV d.toNat t.lanes (fun l => BitVec.ofNat 32 (row l))).mapV (d.toNat + 1) t.lanes
              (fun l => BitVec.ofNat 32 (place l))).mapM k.toNat t.lanes (fun l => decide ((s.th.valS b).toNat + l < pre s.th.width))))))
          ∧ ∀ l, (let i := (s.th.valS b).toNat + l
            if i < pre s.th.width then row l < s.th.width ∧ pre (row l) ≤ i ∧ i < pre (row l + 1) ∧ place l = i - pre (row l)
            else row l = s.th.width ∧ place l = 0)
  )

/-- R243, R244: a reduction combines neighbours level by level, in a tree whose shape depends only on the number of active lanes; a
scan combines from the first active lane on. The operation is the one of R243 in the mode of the group. -/
def Obligations.ReductionsAndScans : Prop :=
  ∀ (s : State) (o t : BitVec 3) (d a : BitVec 7) (x : Bool),
    let w := redWidth t.toNat
    let f := redOp s.th.mode o.toNat t.toNat
    let v (l : Nat) : Nat := if w = 64 then (pair s a l).toNat else (lane s a l).toNat
    let rs := if w = 64 then both a else [a.toNat]
    (if w = 64 then Legal64 s [a] else Legal32 s [a]) → CleanLanes s rs →
      (GroupReady s .vector [] [s.th.abs d] rs →
        ∃ r : List Nat → Nat, r [] = redIdentity o.toNat t.toNat ∧ (∀ e, r [e] = e)
          ∧ (∀ e g l, l.length ≤ 62 → r (e :: g :: l) = r (pairUp f (e :: g :: l)))
          ∧ exec (.vred o t d a x) s = .next (gives s d (if t = 0 then (BitVec.ofNat 32 (r (s.th.lanes.map v))).signExtend 64
              else BitVec.ofNat 64 (r (s.th.lanes.map v)))))
      ∧ (LaneReady s rs (if w = 64 then both d else [d.toNat]) → (if w = 64 then Legal64 s [d] else Legal32 s [d]) →
        ∃ g : Nat → Nat, exec (.vscan o t d a x) s = .next (if w = 64 then givesPairs s d (fun l => BitVec.ofNat 64 (g l))
            else givesLanes s d (fun l => BitVec.ofNat 32 (g l)))
          ∧ (∀ l r, s.th.lanes = l :: r → g l = v l)
          ∧ ∀ p l k r, s.th.lanes = p ++ l :: k :: r → g k = f (g l) (v k))

/-- R245, R246: VXCH makes an offer and waits; two offers that name each other swap the lanes active on both sides, and both groups
go on, outside their regions; lanes whose register is poisoned are not offered, and raise cause 0x10 reason 1 once the others have been
exchanged; an offer that times out raises cause 0x0C for every active lane. -/
def Obligations.Exchange : Prop :=
  (∀ (s : State) (d b : BitVec 7) (y : Bool), Legal32 s [d] → GroupReady s .vector [s.th.abs b] [] [d.toNat] →
    s.th.active ≠ 0 → CleanLanes s [d.toNat] → Outside s → s.th.wait = .none →
      exec (.vxch d b y) s = .next (s.mapTh (fun t => { t with wait := .exchange d.toNat (t.valS b) t.active })))
  ∧ (∀ (s : State) (j k da db : Nat) (ta tb : Word) (la lb : Mask), j ≠ k →
    (s.thread j).wait = .exchange da ta la → (s.thread k).wait = .exchange db tb lb → (s.thread j).kind = .group →
    (s.thread k).kind = .group → (s.thread j).status = .running → (s.thread k).status = .running →
    (s.thread j).ident.lnum = (s.thread k).ident.lnum → (s.thread j).ident.block ≠ (s.thread k).ident.block →
    ta.toNat % 2 ^ 16 = (s.thread k).ident.gnum * 2 ^ 8 + (s.thread k).ident.core →
    tb.toNat % 2 ^ 16 = (s.thread j).ident.gnum * 2 ^ 8 + (s.thread j).ident.core →
    (s.thread j).ident.core < 192 → (s.thread k).ident.core < 192 → (s.thread j).ident.gnum < 32 → (s.thread k).ident.gnum < 32 →
    ta.toNat / 2 ^ 16 % 2 ^ 16 = tb.toNat / 2 ^ 16 % 2 ^ 16 → (s.thread k).active &&& ~~~lb = 0 →
      let bad := (s.thread j).active &&& ~~~la
      (∀ h, bad ≠ 0 → s.trapClause (s.thread j) = some h → (s.thread j).inTrap = false → (s.thread j).tx.live = false →
        ∃ t, exec (.vxchMatch j k) s = .next t ∧ (t.thread j).fetch = ⟨h, 0, []⟩ ∧ (t.thread j).trap.tlm = bad
          ∧ (t.thread j).trap.tcs = BitVec.ofNat 64 (2 ^ 63 + 0x10 * 2 ^ 48 + 2 ^ 40) ∧ (t.thread j).trap.trsm = (s.thread j).after
          ∧ ∀ l, l < 64 → (t.thread j).regs.v da l =
            if la.getLsbD l && lb.getLsbD l then (s.thread k).regs.v db l else (s.thread j).regs.v da l)
      ∧ (bad = 0 → ∃ t, exec (.vxchMatch j k) s = .next t ∧ SameMemory s t
        ∧ (∀ l, l < 64 → (t.thread j).regs.v da l = (if la.getLsbD l && lb.getLsbD l then (s.thread k).regs.v db l else (s.thread j).regs.v da l)
          ∧ (t.thread k).regs.v db l = (if la.getLsbD l && lb.getLsbD l then (s.thread j).regs.v da l else (s.thread k).regs.v db l))
        ∧ (t.thread j).wait = .none ∧ (t.thread k).wait = .none ∧ (t.thread j).gap = true ∧ (t.thread k).gap = true
        ∧ (t.thread j).fetch = (s.thread j).advance.fetch ∧ (t.thread k).fetch = (s.thread k).advance.fetch
        ∧ ∀ i, i ≠ j → i ≠ k → t.thread i = s.thread i))
  ∧ (∀ (s : State) (k d : Nat) (goal h : Word) (l : Mask), (s.thread k).wait = .exchange d goal l → (s.thread k).kind = .group →
    (s.thread k).status = .running → (s.thread k).tx.live = false → s.trapClause (s.thread k) = some h → (s.thread k).inTrap = false →
      ∃ t, exec (.vxchTimeout k) s = .next t ∧ SameMemory s t ∧ (t.thread k).regs = (s.thread k).regs
        ∧ (t.thread k).wait = .none ∧ (t.thread k).fetch = ⟨h, 0, []⟩
        ∧ (t.thread k).trap.tcs = BitVec.ofNat 64 (2 ^ 63 + 0x0C * 2 ^ 48) ∧ (t.thread k).trap.tlm = (s.thread k).active
        ∧ (t.thread k).trap.trsm = (s.thread k).here ∧ ∀ i, i ≠ k → t.thread i = s.thread i)

/-- R271, R277 to R281: the plain loads ask for the bytes that Table 13.2 gives, one request for each active lane, and make their
destinations empty until they land; where the lanes' lines are held in the thread's own cache, every lane's bytes are there at once, and
nothing else changes. An element narrower than a register is extended by its sign, or by zeros.

R80, R273: the bytes of one lane fill its registers from the first, little end first. -/
def Obligations.PlainLoads : Prop :=
  (
    ∀ (s : State) (d a b : BitVec 7) (x y : Bool), Settled s Order.relaxed s →
      (∀ p ∈ ([(0, 1, 1, true), (1, 1, 1, false), (2, 2, 1, true), (3, 2, 1, false), (4, 4, 1, false), (5, 8, 2, false), (6, 16, 4, false)]
          : List (BitVec 3 × Nat × Nat × Bool)),
        let reqs := s.th.lanes.map (fun l => laneReq l (s.th.valS b + (lane s a l).signExtend 64) .load p.2.1)
        let form : Form := ⟨false, d.toNat, p.2.2.1, p.2.1, p.2.2.2⟩
        let t := passed (loadsSent s form [] (from_ d p.2.2.1) Order.relaxed false [] (laneFates s reqs) 0)
        GroupReady s .vector [s.th.abs b] [] (a.toNat :: from_ d p.2.2.1) → s.th.active ≠ 0 → CleanLanes s [a.toNat] → Legal32 s [a] →
        s.th.badDest d p.2.2.1 (p.2.2.1 = 2) = false → LanesGood s reqs s 0 →
          exec (.vld p.1 d a b x y) s = .next t ∧ (LanesHeld s (laneFates s reqs) → Brought s t form (laneFates s reqs)))
      ∧ (∀ p ∈ ([(5, 1), (6, 2)] : List (BitVec 3 × Nat)),
        let reqs := s.th.lanes.map (fun l => laneReq l (s.th.valS b + BitVec.ofNat 64 l * s.th.valS a) .load (4 * p.2))
        let form : Form := ⟨false, d.toNat, p.2, 4 * p.2, false⟩
        let t := passed (loadsSent s form [] (from_ d p.2) Order.relaxed false [] (laneFates s reqs) 0)
        GroupReady s .vector [s.th.abs a, s.th.abs b] [] (from_ d p.2) → s.th.active ≠ 0 → s.th.badDest d p.2 (p.2 = 2) = false →
        LanesGood s reqs s 0 →
          exec (.vlds p.1 d a b x y) s = .next t ∧ (LanesHeld s (laneFates s reqs) → Brought s t form (laneFates s reqs)))
      ∧ (∀ w : Bool,
        let n := if w then 2 else 1
        let form : Form := ⟨false, d.toNat, n, 4 * n, false⟩
        (let reqs := s.th.lanes.map (fun l => laneReq l (pair s a l) .load (4 * n));
          let t := passed (loadsSent s form [] (from_ d n) Order.relaxed false [] (laneFates s reqs) 0);
          GroupReady s .vector [] [] (both a ++ from_ d n) → s.th.active ≠ 0 → CleanLanes s (both a) → Legal64 s [a] →
          s.th.badDest d n w = false → LanesGood s reqs s 0 →
            exec (.vldp w d a x) s = .next t ∧ (LanesHeld s (laneFates s reqs) → Brought s t form (laneFates s reqs)))
        ∧ (let reqs := s.th.lanes.map (fun l =>
              laneReq l (s.th.valS b + (lane s a l).setWidth 64 * BitVec.ofNat 64 (4 * n)) .load (4 * n));
          let t := passed (((s.settleLooks s.work.cur (laneFates s reqs)).mapTh (fun t =>
            t.produce { t.producer form [] (from_ d n) with left := reqs.length })).collectLanes s.work.cur s.th.freshId (laneFates s reqs));
          GroupReady s .vector [s.th.abs b] [] (a.toNat :: from_ d n) → s.th.active ≠ 0 → CleanLanes s [a.toNat] → Legal32 s [a] →
          s.th.badDest d n w = false → LanesGood s reqs s 0 → (s.core s.th.ident.core).rqcWait = [] →
          (∀ r ∈ laneFates s reqs, s.behindLine s.th.ident.core r = false) →
            exec (.vgath w d a b x y) s = .next t
            ∧ (LanesHeld s (laneFates s reqs) → s.th.cache = s.th.ident.core → Brought s t form (laneFates s reqs))))
      ∧ ∀ p ∈ ([(0, 4, false), (1, 4, true), (2, 8, false)] : List (BitVec 3 × Nat × Bool)),
        let reqs := [laneReq (s.th.lanes.headD 0) (s.th.valS a) .load p.2.1]
        let form : Form := ⟨true, s.th.abs d, 1, p.2.1, p.2.2⟩
        let t := passed (loadsSent s form [s.th.abs d] [] Order.relaxed false [] (laneFates s reqs) 0)
        Ready s .every [s.th.abs a] [s.th.abs d] [] → LanesGood s reqs s 0 →
          exec (.sld d a x p.1) s = .next t ∧ (LanesHeld s (laneFates s reqs) → Brought s t form (laneFates s reqs))
  ) ∧ (
    ∀ (d l raw : Nat),
      (Form.mk false d 1 1 true).values l raw = [(.v d l, ((BitVec.ofNat 8 raw).signExtend 32).setWidth 64)]
      ∧ (Form.mk false d 1 1 false).values l raw = [(.v d l, ((BitVec.ofNat 8 raw).setWidth 32).setWidth 64)]
      ∧ (Form.mk false d 1 2 true).values l raw = [(.v d l, ((BitVec.ofNat 16 raw).signExtend 32).setWidth 64)]
      ∧ (Form.mk false d 1 2 false).values l raw = [(.v d l, ((BitVec.ofNat 16 raw).setWidth 32).setWidth 64)]
      ∧ (Form.mk false d 1 4 false).values l raw = [(.v d l, (BitVec.ofNat 32 raw).setWidth 64)]
      ∧ (Form.mk false d 2 8 false).values l raw =
          [(.v d l, (BitVec.ofNat 32 raw).setWidth 64), (.v (d + 1) l, (BitVec.ofNat 32 (raw / 2 ^ 32)).setWidth 64)]
      ∧ (Form.mk false d 4 16 false).values l raw =
          (List.range 4).map (fun i => (.v (d + i) l, (BitVec.ofNat 32 (raw / 2 ^ (32 * i))).setWidth 64))
      ∧ (Form.mk true d 1 4 true).values l raw = [(.s d, (BitVec.ofNat 32 raw).signExtend 64)]
      ∧ (Form.mk true d 1 4 false).values l raw = [(.s d, (BitVec.ofNat 32 raw).setWidth 64)]
      ∧ (Form.mk true d 1 8 false).values l raw = [(.s d, BitVec.ofNat 64 raw)]
  )

/-- R275, R277, R279 to R281, R283: the stores send the bytes of their data registers, one request for each active lane; an ordered
store waits for its release. Where the lanes' lines are held exclusively in the thread's own cache, the bytes stand there at once, those of
a higher lane over those of a lower one, and no other byte of any cache or of home memory changes. -/
def Obligations.Stores : Prop :=
  ∀ (s s' u : State) (d a b : BitVec 7) (x y : Bool) (ticket : Nat),
    (Settled s Order.relaxed s →
      (∀ p ∈ ([(0, 1, 1), (1, 2, 1), (2, 4, 1), (3, 8, 2), (4, 16, 4)] : List (BitVec 3 × Nat × Nat)),
        let reqs := s.th.lanes.map (fun l => laneReq l (s.th.valS b + (lane s a l).signExtend 64) (s.th.storeOp d.toNat l p.2.2 p.2.1) p.2.1)
        let t := passed (storesSent s (laneFates s reqs) 0)
        GroupReady s .vector [s.th.abs b] [] (a.toNat :: from_ d p.2.2) → s.th.active ≠ 0 → CleanLanes s [a.toNat] → Legal32 s [a] →
        s.th.badV d p.2.2 (p.2.2 = 2) = false → LanesGood s reqs s 0 →
          exec (.vst p.1 d a b x y) s = .next t ∧ (LanesHeld s (laneFates s reqs) → Stored s t (laneFates s reqs) storeValue))
      ∧ (∀ w : Bool,
        let n := if w then 2 else 1
        (let reqs := s.th.lanes.map (fun l => laneReq l (pair s a l) (s.th.storeOp d.toNat l n (4 * n)) (4 * n));
          let t := passed (storesSent s (laneFates s reqs) 0);
          GroupReady s .vector [] [] (both a ++ from_ d n) → s.th.active ≠ 0 → CleanLanes s (both a) → Legal64 s [a] →
          s.th.badV d n w = false → LanesGood s reqs s 0 →
            exec (.vstp w d a x) s = .next t ∧ (LanesHeld s (laneFates s reqs) → Stored s t (laneFates s reqs) storeValue))
        ∧ (let reqs := s.th.lanes.map (fun l =>
            laneReq l (s.th.valS b + (lane s a l).setWidth 64 * BitVec.ofNat 64 (4 * n)) (s.th.storeOp d.toNat l n (4 * n)) (4 * n));
          let t := passed (storesSent s (laneFates s reqs) 0);
          GroupReady s .vector [s.th.abs b] [] (a.toNat :: from_ d n) → s.th.active ≠ 0 → CleanLanes s [a.toNat] → Legal32 s [a] →
          s.th.badV d n w = false → LanesGood s reqs s 0 →
            exec (.vscat w d a b x y) s = .next t ∧ (LanesHeld s (laneFates s reqs) → Stored s t (laneFates s reqs) storeValue)))
      ∧ ∀ p ∈ ([(0, 4), (2, 8)] : List (BitVec 3 × Nat)),
        let reqs := [laneReq (s.th.lanes.headD 0) (s.th.valS a) (s.th.scalarStore d p.2) p.2]
        let t := passed (storesSent s (laneFates s reqs) 0)
        Ready s .every [s.th.abs a] [s.th.abs d] [] → LanesGood s reqs s 0 →
          exec (.sst d a x p.1) s = .next t ∧ (LanesHeld s (laneFates s reqs) → Stored s t (laneFates s reqs) storeValue))
    ∧ (∀ (o c : BitVec 2), ∀ p ∈ ([(0, 4, 1), (2, 8, 2)] : List (BitVec 3 × Nat × Nat)),
      Settled s ⟨o.toNat % 2 == 1, decide (2 ≤ o.toNat), c.toNat⟩ s' →
      (let reqs := s.th.lanes.map (fun l => ⟨l, pair s a l, s.th.storeOp d.toNat l p.2.2 p.2.1, p.2.1, c.toNat, o != 0⟩);
        let t := passed (storesSent u (laneFates s' reqs) ticket);
        GroupReady s .vector [] [] (both a ++ from_ d p.2.2) → s.th.active ≠ 0 → CleanLanes s (both a) → Legal64 s [a] →
        s.th.badV d p.2.2 (p.2.2 = 2) = false → LanesGood s' reqs u ticket →
          exec (.vsto d a x p.1 o c) s = .next t
          ∧ (Near s c.toNat 0 → LanesHeld u (laneFates s' reqs) → Stored u t (laneFates s' reqs) storeValue))
      ∧ (let reqs := [⟨s.th.lanes.headD 0, s.th.valS a, s.th.scalarStore d p.2.1, p.2.1, c.toNat, o != 0⟩];
        let t := passed (storesSent u (laneFates s' reqs) ticket);
        Ready s .every [s.th.abs a] [s.th.abs d] [] → LanesGood s' reqs u ticket →
          exec (.ssto d a x p.1 o c) s = .next t
          ∧ (Near s c.toNat 0 → LanesHeld u (laneFates s' reqs) → Stored u t (laneFates s' reqs) storeValue)))
    ∧ (∀ (l n bytes : Nat), s.th.storeOp d.toNat l n bytes =
        .store (s.th.regs.lanesValue d.toNat l n bytes) (s.th.regs.lanesBad d.toNat l n bytes))
    ∧ ∀ n : Nat, s.th.scalarStore d n =
        .store ((s.th.valS d).toNat % 2 ^ (8 * n)) (if s.th.regs.sPoison.contains (s.th.abs d) then 2 ^ n - 1 else 0)

/-- R283 to R285: ordered loads, polling loads and SWAITGE. Order bit 0 makes an acquire, bit 1 a release; a polling load asks for a
value other than its destination holds, and SWAITGE for one that reaches its threshold; both are kept to be performed again. Where the
lanes' lines are held in the thread's own cache, the access is performed there (Table 13.1), and the values it asks for are there, the
values come at once. -/
def Obligations.OrderedLoads : Prop :=
  ∀ (s s' u : State) (d a : BitVec 7) (x p : Bool) (o c : BitVec 2) (ty : BitVec 3) (ticket : Nat),
    let n := if ty = 2 then 8 else 4
    let m := if ty = 2 then 2 else 1
    let ord : Order := ⟨o.toNat % 2 == 1, decide (2 ≤ o.toNat), c.toNat⟩
    Settled s ord s' →
      (let reqs := s.th.lanes.map (fun l =>
          ⟨l, pair s a l, if p then .poll (s.th.regs.lanesValue d.toNat l m n) else .load, n, c.toNat, o != 0⟩);
        let form : Form := ⟨false, d.toNat, m, n, false⟩;
        let t := passed (loadsSent u form [] (from_ d m) ord p (if p then reqs else []) (laneFates s' reqs) ticket);
        GroupReady s .vector [] [] (both a ++ from_ d m) → s.th.active ≠ 0 → CleanLanes s (both a ++ (if p then from_ d m else [])) →
        Legal64 s [a] → s.th.badDest d m (m = 2) = false → LanesGood s' reqs u ticket →
          exec (.vldo d a x p ty o c) s = .next t
          ∧ (Near s c.toNat 0 → LanesHeld u (laneFates s' reqs) → (∀ r ∈ laneFates s' reqs, met u r) →
              Brought u t form (laneFates s' reqs)))
      ∧ (let reqs := [⟨s.th.lanes.headD 0, s.th.valS a,
            if p then .poll ((s.th.valS d).toNat % 2 ^ (8 * n)) else .load, n, c.toNat, o != 0⟩];
        let form : Form := ⟨true, s.th.abs d, 1, n, ty = 1⟩;
        let t := passed (loadsSent u form [s.th.abs d] [] ord p (if p then reqs else []) (laneFates s' reqs) ticket);
        Ready s .every (s.th.abs a :: (if p then [s.th.abs d] else [])) [s.th.abs d] [] → LanesGood s' reqs u ticket →
          exec (.sldo d a x p ty o c) s = .next t
          ∧ (Near s c.toNat 0 → LanesHeld u (laneFates s' reqs) → (∀ r ∈ laneFates s' reqs, met u r) →
              Brought u t form (laneFates s' reqs)))
      ∧ (let reqs := [⟨s.th.lanes.headD 0, s.th.valS a, .waitGe ((s.th.valS d).toNat % 2 ^ (8 * n)), n, c.toNat, o != 0⟩];
        let form : Form := ⟨true, s.th.abs d, 1, n, false⟩;
        let t := passed (loadsSent u form [s.th.abs d] [] ord p reqs (laneFates s' reqs) ticket);
        Ready s .every [s.th.abs a, s.th.abs d] [s.th.abs d] [] → LanesGood s' reqs u ticket →
          exec (.swaitge d a x p ty o c) s = .next t
          ∧ (Near s c.toNat 0 → LanesHeld u (laneFates s' reqs) → (∀ r ∈ laneFates s' reqs, met u r) →
              Brought u t form (laneFates s' reqs)))

/-- R288 to R290: an atomic asks each lane's word for one read-modify-write, with the operand in its destination (and the new value
of a compare-and-swap in the registers after it); the destination receives the old word, and the region ends. Where the words are held in
the thread's own cache, and the atomic is performed there (Table 13.1), each is replaced at once. -/
def Obligations.Atomics : Prop :=
  (∀ (s s' u : State) (op ty : BitVec 3) (d a : BitVec 7) (x : Bool) (o c : BitVec 2) (ticket : Nat),
    let n := if ty = 2 ∨ ty = 3 ∨ ty = 5 then 2 else 1
    let m := if op = 7 then 2 * n else n
    let ord : Order := ⟨o.toNat % 2 == 1, decide (2 ≤ o.toNat), c.toNat⟩
    Settled s ord s' →
      (let reqs := s.th.lanes.map (fun l => ⟨l, pair s a l, .atomic op.toNat ty.toNat (s.th.regs.lanesValue d.toNat l n (4 * n))
          (s.th.regs.lanesValue (d.toNat + n) l n (4 * n)) s.th.rm, 4 * n, c.toNat, true⟩);
        let form : Form := ⟨false, d.toNat, n, 4 * n, false⟩;
        let t := passedOut (loadsSent u form [] (from_ d n) ord false [] (laneFates s' reqs) ticket);
        GroupReady s .vector [] [] (both a ++ from_ d m) → s.th.active ≠ 0 → CleanLanes s (both a ++ from_ d m) → Legal64 s [a] →
        s.th.badDest d m (n = 2) = false → LanesGood s' reqs u ticket →
          exec (.vatom op d a x ty o c) s = .next t
          ∧ (Near s c.toNat 1 → LanesHeld u (laneFates s' reqs) → ((laneFates s' reqs).map place).Nodup →
              Swapped u t form (laneFates s' reqs)))
      ∧ (let reqs := [⟨s.th.lanes.headD 0, s.th.valS a, .atomic op.toNat ty.toNat ((s.th.valS d).toNat % 2 ^ (32 * n))
          ((s.th.regs.s (s.th.abs d + 1)).toNat % 2 ^ (32 * n)) s.th.rm, 4 * n, c.toNat, true⟩];
        let form : Form := ⟨true, s.th.abs d, 1, 4 * n, ty = 1⟩;
        let t := passedOut (loadsSent u form [s.th.abs d] [] ord false [] (laneFates s' reqs) ticket);
        Ready s .every (if op = 7 then [s.th.abs a, s.th.abs d, s.th.abs d + 1] else [s.th.abs a, s.th.abs d]) [s.th.abs d] [] →
        (op = 7 → d.toNat < 127) → LanesGood s' reqs u ticket →
          exec (.satom op d a x ty o c) s = .next t
          ∧ (Near s c.toNat 1 → LanesHeld u (laneFates s' reqs) → Swapped u t form (laneFates s' reqs))))
  ∧ ∀ (old v w : BitVec 32) (m : Mode),
    atomicNew 0 0 old.toNat v.toNat w.toNat m = some (old + v).toNat
    ∧ atomicNew 1 0 old.toNat v.toNat w.toNat m = some (if v.ult old then v else old).toNat
    ∧ atomicNew 1 1 old.toNat v.toNat w.toNat m = some (if v.slt old then v else old).toNat
    ∧ atomicNew 2 0 old.toNat v.toNat w.toNat m = some (if old.ult v then v else old).toNat
    ∧ atomicNew 2 1 old.toNat v.toNat w.toNat m = some (if old.slt v then v else old).toNat
    ∧ atomicNew 3 0 old.toNat v.toNat w.toNat m = some (old &&& v).toNat
    ∧ atomicNew 4 0 old.toNat v.toNat w.toNat m = some (old ||| v).toNat
    ∧ atomicNew 5 0 old.toNat v.toNat w.toNat m = some (old ^^^ v).toNat
    ∧ atomicNew 6 0 old.toNat v.toNat w.toNat m = some v.toNat
    ∧ atomicNew 7 0 old.toNat v.toNat w.toNat m = if old = v then some w.toNat else none

/-- R80, R85, R273: a scalar store to a line that the thread's cache holds exclusively changes the bytes it stores and no other byte
of any cache or of home memory; the line becomes modified.

R80, R271: a scalar load from a line that the thread's cache holds exclusively brings the bytes of that line at once, little end
first; it changes no byte of any cache or of home memory. -/
def Obligations.MemoryFrames : Prop :=
  (
    ∀ (s : State) (d a : BitVec 7) (x : Bool) (h key : Nat) (l : CLine), Ready s .every [s.th.abs a] [s.th.abs d] [] →
      Settled s Order.relaxed s → s.level s.th = 0 →
      let reqs := [laneReq (s.th.lanes.headD 0) (s.th.valS a) (s.th.scalarStore d 8) 8]
      LanesGood s reqs s 0 → (∃ r, s.resolveAll s.work.cur reqs = [r] ∧ r.fate = .good (.mem h key)) → h % 8 = 0 →
      s.waiting s.th.cache (h / 128) = [] → s.cached s.th.cache (h / 128) = some l → l.key = key → l.stale = false →
      (l.st = .E ∨ l.st = .M) →
        ∃ t, exec (.sst d a x 2) s = .next t
          ∧ (∀ b, cachedByte t s.th.cache b = if h ≤ b ∧ b < h + 8 then some ((s.th.valS d).toNat / 2 ^ (8 * (b - h)) % 256)
              else cachedByte s s.th.cache b)
          ∧ (∀ c, c ≠ s.th.cache → ∀ i, t.cached c i = s.cached c i) ∧ (∀ k b, t.homeByte k b = s.homeByte k b)
          ∧ (∃ m, t.cached s.th.cache (h / 128) = some m ∧ m.st = .M)
          ∧ t.th.regs = s.th.regs ∧ ∀ k, k ≠ s.work.cur → t.thread k = s.thread k
  ) ∧ (
    ∀ (s : State) (d a : BitVec 7) (x : Bool) (h key : Nat) (l : CLine), Ready s .every [s.th.abs a] [s.th.abs d] [] →
      Settled s Order.relaxed s → s.level s.th = 0 →
      let reqs := [laneReq (s.th.lanes.headD 0) (s.th.valS a) .load 8]
      LanesGood s reqs s 0 → (∃ r, s.resolveAll s.work.cur reqs = [r] ∧ r.fate = .good (.mem h key)) → h % 8 = 0 →
      s.waiting s.th.cache (h / 128) = [] → s.cached s.th.cache (h / 128) = some l → l.key = key → l.stale = false →
      (l.st = .E ∨ l.st = .M) → l.stage = [] →
        ∃ t p, exec (.sld d a x 2) s = .next t ∧ t.th.producers = s.th.producers ++ [p] ∧ p.left = 0 ∧ p.sdests = [s.th.abs d]
          ∧ p.vals = [(.s (s.th.abs d), BitVec.ofNat 64 (ofBytes ((List.range 8).map (fun i => lineByte l.data (h % 128 + i)))))]
          ∧ t.th.regs.sFull (s.th.abs d) = false ∧ (∀ c b, cachedByte t c b = cachedByte s c b)
          ∧ (∀ k b, t.homeByte k b = s.homeByte k b) ∧ ∀ k, k ≠ s.work.cur → t.thread k = s.thread k
  )

/-- R102, R103, R282: XLD takes the bytes at the swizzled places of its team's scratchpad into a producer that only has to land; XST
writes them at once, lanes in rising order; no byte of home memory is touched. The landing puts the bytes into the registers.

R104, R282: the bytes of one logical address under one mode are one place of the scratchpad: a byte read back under the mode it
was written with is the byte written, and bytes at other logical addresses of that mode stay. -/
def Obligations.Scratchpads : Prop :=
  (
    ∀ (s : State) (m : BitVec 2) (z : Bool) (d a b : BitVec 7) (x y : Bool),
      let n := if z then 4 else 1
      let at_ (l : Nat) : Nat := (s.th.valS b + (lane s a l).setWidth 64).toNat
      GroupReady s .vector [s.th.abs b] [] (a.toNat :: from_ d n) → s.th.active ≠ 0 → CleanLanes s [a.toNat] → Legal32 s [a] →
      s.scratchWaits = false → (∀ l ∈ s.th.lanes, at_ l % (4 * n) = 0 ∧ at_ l + 4 * n ≤ s.tm.alloc) →
        (s.th.badDest d n = false →
          ∃ (p : Producer) (t : State), exec (.xld m z d a b x y) s = .next t ∧ t = passed (s.mapTh (fun t => t.produce p))
            ∧ p.left = 0 ∧ p.await = .none ∧ p.vdests = from_ d n ∧ p.sdests = [] ∧ p.vals.length = n * s.th.lanes.length
            ∧ (∀ l ∈ s.th.lanes, ∀ i, i < n →
              (Dest.v (d.toNat + i) l, BitVec.ofNat 64 (ofBytes (s.tm.sbytes m.toNat (at_ l + 4 * i) 4))) ∈ p.vals)
            ∧ (s.th.park = none → ∃ v, exec (.longLatencyLanding s.work.cur p.id) t = .next v ∧ SameMemory s v
                ∧ v.th.producers = s.th.producers ∧ (∀ r ∈ from_ d n, v.th.regs.vFull r = true)
                ∧ ∀ l ∈ s.th.lanes, ∀ i, i < n →
                  v.th.regs.v (d.toNat + i) l = BitVec.ofNat 32 (ofBytes (s.tm.sbytes m.toNat (at_ l + 4 * i) 4))))
        ∧ (s.th.badV d n = false →
          exec (.xst m z d a b x y) s = .next (passed (s.mapTeam s.th.ident.team (fun g => s.th.lanes.foldl (fun g l =>
            g.storeScratch m.toNat (at_ l) (toBytes (s.th.regs.lanesValue d.toNat l n (4 * n)) (4 * n))
              (s.th.regs.lanesBad d.toNat l n (4 * n))) g))))
  ) ∧ (
    ∀ (g : Team) (m a b v : Nat), v < 256 →
      (g.setSbyte m a v).sbyte m a = v ∧ (b ≠ a → (g.setSbyte m a v).sbyte m b = g.sbyte m b)
  )

/-- R291: a fence waits for the accesses it orders and performs the release and the acquire its order names; it changes no register.

R150, R271, R384: a producer whose values are all there lands: its destinations are written and full in one step, and nothing
else of the machine changes.

R284, R286: a polling load or SWAITGE whose condition did not hold is performed again, with its addresses translated afresh. -/
def Obligations.FencesAndLandings : Prop :=
  (
    ∀ (s s' : State) (c : BitVec 2), Ready s .every [] [] [] → s.th.acqPending = false →
      let calm (t : State) : Prop := t.th.loadsOut = false ∧ (2 ≤ c.toNat → t.inReplay t.work.cur = false)
        ∧ t.acquireReady t.work.cur c.toNat = true
      (calm s → exec (.fence 1 c) s = .next (passed (s.acquireNow s.work.cur c.toNat)))
      ∧ (s.release c.toNat = (s', some 0) → exec (.fence 2 c) s = .next (passed s'))
      ∧ (s.release c.toNat = (s', some 0) → calm s' → exec (.fence 3 c) s = .next (passed (s'.acquireNow s'.work.cur c.toNat)))
  ) ∧ (
    ∀ (s : State) (k id : Nat) (p : Producer), (s.thread k).findProducer id = some p → p.left = 0 → p.await = .none →
      (s.thread k).park = none → p.order.acq = false → p.failed = [] → (∀ v ∈ p.vals, ∀ i j, v.1 ≠ .slot i j) →
        ∃ t, exec (.longLatencyLanding k id) s = .next t ∧ t = s.setThreads t.work.threads ∧ SameMemory s t
          ∧ (∀ j, j ≠ k → t.thread j = s.thread j)
          ∧ (t.thread k).producers = (s.thread k).producers.filter (fun q => q.id != p.id)
          ∧ (∀ r ∈ p.sdests, (t.thread k).regs.sFull r = true) ∧ (∀ r ∈ p.vdests, (t.thread k).regs.vFull r = true)
          ∧ (∀ r, r ∉ p.sdests → (t.thread k).regs.sFull r = (s.thread k).regs.sFull r)
          ∧ (∀ r, r ∉ p.vdests → (t.thread k).regs.vFull r = (s.thread k).regs.vFull r)
          ∧ (∀ r v l q, p.vals = l ++ (.s r, v) :: q → (∀ w, (Dest.s r, w) ∉ q) → (t.thread k).regs.s r = v)
          ∧ (∀ r, (∀ w, (Dest.s r, w) ∉ p.vals) → (t.thread k).regs.s r = (s.thread k).regs.s r)
          ∧ (∀ r i v l q, i < 64 → (∀ e ∈ p.vals, ∀ r' i', e.1 = .v r' i' → i' < 64) → p.vals = l ++ (.v r i, v) :: q →
              (∀ w, (Dest.v r i, w) ∉ q) → (t.thread k).regs.v r i = v.setWidth 32)
          ∧ (t.thread k).fetch = (s.thread k).fetch
  ) ∧ (
    ∀ (s u : State) (k id ticket : Nat) (p : Producer) (l : List Access),
      (s.thread k).findProducer id = some p → p.await = .poll l → l ≠ [] →
      (s.thread k).status = .running → s.recordRoom (s.thread k).die 0 = true →
      let qs := p.reqs.filter (fun q => l.any (fun a => a.lane == q.lane))
      (∀ r ∈ s.resolveAll k qs, r.isGood = true ∧ (s.unpolled k p.id).behindOwn k r = false) →
      s.wordFlush k (s.resolveAll k qs) = some (u, ticket, 0) →
        exec (.pollReperform k id) s = .next (((u.settleLooks k (s.resolveAll k qs)).mapThread k (fun t =>
          t.mapProducer p.id (fun q => { q with await := .none }))).sendLanes k p.id (s.resolveAll k qs) ticket)
  )

/-- R255: an accepted mask becomes the group's gang register and releases its reuse latch; a zero mask leaves the gang.

R263 to R267: with the engine idle, MZERO clears its tile, MACCW writes registers into it and MACCR takes values out of it into a
producer; elements outside the rows and columns named stay.

R266: MACCST and MACCLD move whole rows between a tile and the scratchpad, 256 bytes for each row from an aligned address. -/
def Obligations.MatrixWords : Prop :=
  (
    ∀ (s : State) (a : BitVec 7) (x : Bool), GroupReady s .gang [s.th.abs a] [] [] →
      let g := (s.th.valS a).toNat % 2 ^ 32
      (g = 0 ∨ (2 ≤ (gangGroups g).length ∧ (gangGroups g).length ≤ 6 ∧ g.testBit s.th.ident.gnum = true
          ∧ ∀ n ∈ gangGroups g, n < s.tm.groups ∧ ∃ k, s.groupOf s.th.ident.team n = some k ∧ (s.thread k).ident.role = 1)) →
        exec (.mgang a x) s = .next (passed (s.mapTh (fun t => { t with gang := g, reuse := none })))
  ) ∧ (
    ∀ (s : State) (d b : BitVec 7) (c : BitVec 3) (x y : Bool), (s.core s.th.ident.core).mxq = [] →
      let r0 := (s.th.valS b).toNat % 128
      let c0 := (s.th.valS b).toNat / 256 % 64
      (GroupReady s .tile [] [] [] →
        ∃ t, exec (.mzero c) s = .next t ∧ SameMemory s t ∧ t.th = (s.th.endRegion true).advance
          ∧ ∀ k r q, r < 96 → q < 64 →
            (t.team s.th.ident.team).accAt k r q = if k = c.toNat then 0 else (s.team s.th.ident.team).accAt k r q)
      ∧ (GroupReady s .tile [s.th.abs b] [] (from_ d 4) → s.th.badV d 4 = false →
        ∃ t, exec (.maccw c d b x y) s = .next t ∧ SameMemory s t ∧ t.th = (s.th.endRegion true).advance
          ∧ (∀ j l, j < 4 → l < s.th.width → r0 + l < 96 → c0 + j < 64 →
            (t.team s.th.ident.team).accAt c.toNat (r0 + l) (c0 + j) = s.th.regs.v (d.toNat + j) l)
          ∧ (∀ k r q, r < 96 → q < 64 → (k ≠ c.toNat ∨ ¬(r0 ≤ r ∧ r < r0 + s.th.width ∧ c0 ≤ q ∧ q < c0 + 4)) →
            (t.team s.th.ident.team).accAt k r q = (s.team s.th.ident.team).accAt k r q))
      ∧ (GroupReady s .tile [s.th.abs b] [] (from_ d 4) → s.th.badDest d 4 = false →
        ∃ p : Producer, exec (.maccr d c b y) s = .next (passed (s.mapTh (fun t => t.produce p))) ∧ p.left = 0
          ∧ p.vdests = from_ d 4 ∧ ∀ j l, j < 4 → l < s.th.width →
            (Dest.v (d.toNat + j) l, if r0 + l < 96 ∧ c0 + j < 64 then (s.tm.accAt c.toNat (r0 + l) (c0 + j)).setWidth 64 else 0) ∈ p.vals)
  ) ∧ (
    ∀ (s : State) (a : BitVec 7) (c : BitVec 3) (x : Bool), GroupReady s .tile [s.th.abs a] [] [] →
      (s.core s.th.ident.core).mxq = [] → s.th.acqPending = false →
      let v := (s.th.valS a).toNat
      let adr := v % 2 ^ 19
      let r0 := v / 2 ^ 24 % 128
      let n := min (r0 + v / 2 ^ 32 % 128) 96 - r0
      adr % 128 = 0 → (n ≠ 0 → adr + 256 * n ≤ s.tm.alloc) →
        (exec (.maccst c a x) s = .next (passed (s.mapTeam s.th.ident.team (fun m =>
          (List.range n).foldl (fun (m : Team) i => m.storeRow c.toNat (r0 + i) (v / 2 ^ 20 % 4) (adr + 256 * i)) m))))
        ∧ exec (.maccld c a x) s = .next (passedOut (s.mapTeam s.th.ident.team (fun m =>
          (List.range n).foldl (fun (m : Team) i => m.loadRow c.toNat (r0 + i) (v / 2 ^ 20 % 4) (adr + 256 * i)) m)))
  )

/-- R256, R258, R267, R269, R283: an operation enters the rendezvous latch, behind no acquire that has not landed; when every group of
the gang waits there with one that agrees, the complete gang whose lowest group comes first joins the engine's queue with the operands of
every member, and every member goes on with its next word.

R259, R260, R267: the engine performs the oldest accepted operation: every element of the members' rows of its tile takes the
update of R175 from its own operands, and every other element of every tile stays. -/
def Obligations.MatrixOperations : Prop :=
  (
    ∀ (s : State) (f c : BitVec 3) (a b : BitVec 7) (r p : Bool) (e : BitVec 2) (x y : Bool) (w : Instr) (o : MatOp) (ks : List Nat),
      let v := s.th.valS b
      (w, o) ∈ [(Instr.mma f c a b r e x y, MatOp.mk false f.toNat c.toNat false (v.toNat % 2 ^ 19) (v.toNat / 2 ^ 20 % 4) a.toNat e.toNat r false),
        (.mmas f c a b r e p x y, MatOp.mk true f.toNat c.toNat p (v.toNat % 2 ^ 19) (v.toNat / 2 ^ 20 % 4) a.toNat e.toNat r false)] →
      GroupReady s .gang [s.th.abs b] [] (s.th.matRegs o (s.th.reuses o.fmt o.va).isSome) →
      s.th.badV a (regSpan o.fmt s.th.width o.sparse) = false →
        (s.th.latched = none → s.th.acqPending = false → exec w s = exec w (s.mapTh (fun t => { t with wait := .latch o })))
        ∧ (∀ g k₀, s.th.latched = some o → s.th.gang ≠ 0 → s.disagrees s.th.ident.team s.th = [] →
          firstGang (s.complete? s.th.ident.core) = some (g, k₀, ks) → (s.thread k₀).ident.team = s.th.ident.team →
          (gangGroups s.th.gang).map (s.groupOf s.th.ident.team) = ks.map some → ks.Nodup →
          (∀ k ∈ ks, (s.thread k).kind = .group ∧ (s.thread k).gang = s.th.gang
            ∧ ∃ q, (s.thread k).latched = some q ∧ q.agrees o = true) →
          o.badr % 128 = 0 → (s.team s.th.ident.team).holds o.badr (63 * colBytes o.fmt + colUsed o.fmt) = true →
          (s.team s.th.ident.team).core = s.th.ident.core → (s.core s.th.ident.core).mxq.length < 4 →
            ∃ (t : State) (j : MatJob), exec w s = .next t ∧ SameMemory s t
              ∧ (t.core s.th.ident.core).mxq = (s.core s.th.ident.core).mxq ++ [j]
              ∧ j.team = s.th.ident.team ∧ (s.thread k₀).latched = some j.op ∧ j.members = ks
              ∧ j.slices = ks.map (fun k => (s.thread k).slice (((s.thread k).latched).getD o))
              ∧ (∀ k ∈ ks, (t.thread k).wait = .none ∧ (t.thread k).fetch = (s.thread k).advance.fetch ∧ (t.thread k).gap = true
                ∧ (t.thread k).regs = (s.thread k).regs)
              ∧ ∀ k, k ∉ ks → t.thread k = s.thread k)
  ) ∧ (
    ∀ (s : State) (core : Nat) (j : MatJob) (rest : List MatJob), (s.core core).mxq = j :: rest → j.members.length ≤ 6 →
      (s.team j.team).jobPoisoned j = false →
        ∃ t, exec (.mxeOperation core) s = .next t ∧ SameMemory s t ∧ t.work.threads = s.work.threads
          ∧ (t.core core).mxq = rest
          ∧ (∀ p r c, p < j.members.length → r < 16 → c < 64 →
            (t.team j.team).accAt j.op.acc (16 * p + r) c = updateElem j.op (chunk (nth j.slices p []) (rowBytes j.op.fmt) r)
              ((s.team j.team).sbytes j.op.bswz (j.op.badr + c * colBytes j.op.fmt) (colUsed j.op.fmt))
              (chunk (nth j.ascale p []) (blocksOf j.op.fmt) r) (chunk (nth j.bscale p []) (blocksOf j.op.fmt) c)
              (chunk (nth j.masks p []) (blocksOf j.op.fmt) r) ((s.team j.team).accAt j.op.acc (16 * p + r) c))
          ∧ (∀ k r c, r < 96 → c < 64 → (k ≠ j.op.acc ∨ 16 * j.members.length ≤ r) →
            (t.team j.team).accAt k r c = (s.team j.team).accAt k r c)
  )

/-- R69, R70, R292 to R294: the coordinate words perform their lanes one by one on the region that begins at sb in the group's
address space; ZLD and ZATOM put the values into a producer, ZST and ZATOM end the region of execution.

R63 to R66, Tables 3.5 and 3.6: the bytes of a leaf, read back and checked, are that leaf.

R67, R70, R294: on the leaf of its key, a read of an absent key is zero; a store of zero to it changes nothing; a live entry born
in the current generation has its value overwritten in place; an atomic answers the value before it. -/
def Obligations.SparseWords : Prop :=
  (
    ∀ (s s' : State) (d a b : BitVec 7) (o : BitVec 3) (x y : Bool) (i : Nat) (r : Region) (vals : List (Nat × List Nat)),
      let n := r.vsize / 4
      let form : Form := ⟨false, d.toNat, n, r.vsize, false⟩
      let data (l : Nat) : List Nat := toBytes (s.th.regs.lanesValue d.toNat l n (4 * n)) (4 * n)
      Outside s → s.th.acqPending = false → s.th.active ≠ 0 → Legal64 s [a] → CleanLanes s (both a) →
      s.regionAt (s.th.xltAsid.toNat % 2 ^ 16) (s.th.valS b) = some (i, r) → 4 ≤ r.vsize →
      GroupReady s .vector [s.th.abs b] [] (both a ++ from_ d n) →
        (vals ≠ [] →
          (s.th.badDest d n (n ≠ 1) = false →
            s.zlanes s.th.mid i (s.th.valS b).toNat (fun _ => .read) (s.th.laneKey a) s.th.lanes ⟨[], []⟩ = .ok s' ⟨vals, []⟩ →
              exec (.zld d a b x y) s = .next (passed (s'.produceValues form [] (from_ d n) (vals.map (fun p => (p.1, ofBytes p.2))))))
          ∧ (s.th.badV d n (n ≠ 1) = false → CleanLanes s (both a ++ from_ d n) →
            s.zlanes s.th.mid i (s.th.valS b).toNat (fun l => .store (data l)) (s.th.laneKey a) s.th.lanes ⟨[], []⟩ = .ok s' ⟨vals, []⟩ →
              exec (.zst d a b x y) s = .next (passedOut s'))
          ∧ (s.th.badDest d n (n ≠ 1) = false → r.vsz ≤ 1 → CleanLanes s (both a ++ from_ d n) →
            s.zlanes s.th.mid i (s.th.valS b).toNat (fun l => .atomic o.toNat s.th.mode (s.th.regs.lanesValue d.toNat l n (4 * n))) (s.th.laneKey a) s.th.lanes
              ⟨[], []⟩ = .ok s' ⟨vals, []⟩ →
              exec (.zatom o d a b x y) s = .next (passedOut (s'.produceValues form [] (from_ d n)
                (vals.map (fun p => (p.1, ofBytes p.2)))))))
        ∧ (∀ (l : Nat) (s₁ : State) (nd : Node) (path : List Node), s.th.lanes = [l] → s.region? i = some r → r.broken = false →
          let k := (pair s a l).toNat
          let got (s : State) (v : Nat) : State := (s.putRegion i r).produceValues form [] (from_ d n) [(l, v)]
          k < 2 ^ r.keyBits → s.leafFor s.th.mid r k = .ok s₁ (nd, path) → s.th.badDest d n (n ≠ 1) = false →
            (nd.live k = none →
              exec (.zld d a b x y) s = .next (passed (got s₁ 0))
              ∧ (CleanLanes s (from_ d n) → (data l).all (· == 0) = true →
                exec (.zst d a b x y) s = .next (passedOut (s₁.putRegion i r))))
            ∧ ∀ (e : Entry) (s₂ : State), nd.live k = some e →
              (∀ v, s₁.zread s.th.mid (r.slotAt e.vslot) r.vsize 1 = .ok s₂ v →
                exec (.zld d a b x y) s = .next (passed (got s₂ (ofBytes v)))
                ∧ (∀ s₃ u, CleanLanes s (from_ d n) → r.vsz ≤ 1 → e.birth = r.cur →
                  let new := toBytes (zatomOp o.toNat (8 * r.vsize) s.th.mode (ofBytes v) (s.th.regs.lanesValue d.toNat l n (4 * n))) r.vsize
                  new.any (· != 0) = true → s₂.zwrite s.th.mid (r.slotAt e.vslot) new = .ok s₃ u →
                    exec (.zatom o d a b x y) s = .next (passedOut (got s₃ (ofBytes v)))))
              ∧ (∀ u, CleanLanes s (from_ d n) → e.birth = r.cur → (data l).any (· != 0) = true →
                s₁.zwrite s.th.mid (r.slotAt e.vslot) (data l) = .ok s₂ u →
                  exec (.zst d a b x y) s = .next (passedOut (s₂.putRegion i r))))
  ) ∧ (
    ∀ (r : Region) (i high right : Nat) (hinf : Bool) (es : List Entry), i < 2 ^ 32 → high < 2 ^ 64 →
      (right = none32 ∨ right < r.ncnt) → r.ncnt ≤ none32 → r.vcnt ≤ none32 → es.length ≤ 20 →
      (∀ e ∈ es, e.key < 2 ^ 64 ∧ e.vslot < r.vcnt ∧ e.birth < 2 ^ 32 ∧ e.death < 2 ^ 32) → ascending (es.map Entry.rank) = true →
        (Node.mk i 0 high hinf right es [] []).bytes.length = 512
        ∧ r.parse i 0 (Node.mk i 0 high hinf right es [] []).bytes = some (Node.mk i 0 high hinf right es [] [])
  ) ∧ (
    ∀ (s s' : State) (mid i k : Nat) (r : Region) (nd : Node) (path : List Node), s.leafFor mid r k = .ok s' (nd, path) →
      (nd.live k = none →
        s.zop mid i r k .read = .ok s' (r, zeros r.vsize)
        ∧ s.zop mid i r k (.store (zeros r.vsize)) = .ok s' (r, []))
      ∧ (∀ (e : Entry) (v : List Nat), nd.live k = some e →
        e.key = k ∧ e.death = none32
        ∧ (∀ s'' bs, s'.zread mid (r.slotAt e.vslot) r.vsize 1 = .ok s'' bs → s.zop mid i r k .read = .ok s'' (r, bs))
        ∧ (∀ s'' u, e.birth = r.cur → v.any (· ≠ 0) = true → s'.zwrite mid (r.slotAt e.vslot) v = .ok s'' u →
          s.zop mid i r k (.store v) = .ok s'' (r, [])))
  )

/-- R74, R75, R295, R296: cursors. One opens at a sealed generation at or above the low-water generation while its slice has a free
slot; ZNEXT answers the entry that the cursor's generation sees next; one past the last closes, and so does ZCUR_CLOSE.

R68, R297: ZGEN seals the current generation: it answers it, the next one becomes current, and the low-water generation is raised
when sb allows it; the descriptor's word 6 is written as a release at package scope, and a raise begins a sweep (R76).

R76: a sweep visits one leaf at a time; a leaf with entries that no generation can see any more is rewritten without them, their
value slots become free, and the sweep goes on to the right sibling or ends. -/
def Obligations.SparseLifetimes : Prop :=
  (
    ∀ (s s' : State) (k : Bool) (d a b : BitVec 7) (x y : Bool) (i : Nat) (r : Region), Outside s →
      s.th.acqPending = false → GroupReady s .vector [s.th.abs a, s.th.abs b] [s.th.abs d] [] →
      let answers (t : State) (vs : List (Nat × Word)) : State := t.produceS vs
      (s.regionAt (s.th.xltAsid.toNat % 2 ^ 16) (s.th.valS a) = some (i, r) → r.broken = false →
        let g := (s.th.valS b).toNat
        let key := s.svc.cursors.free (64 * s.servingSlice r) 64
        (r.lwm ≤ g → g < r.cur → key < 64 * s.servingSlice r + 64 →
          exec (.zcurOpen d a b x y) s = .next (passedOut (answers
            { s with svc := { s.svc with cursors := s.svc.cursors.put key ⟨i, g, s.th.ident.lnum⟩ } }
            [(s.th.abs d, BitVec.ofNat 64 (i * 2 ^ 48 + (key - 64 * s.servingSlice r) * 2 ^ 40 + g))])))
        ∧ ((g < r.lwm ∨ r.cur ≤ g) →
          exec (.zcurOpen d a b x y) s = .next (passedOut (answers s [(s.th.abs d, BitVec.ofNat 64 (2 * 2 ^ 60))]))))
      ∧ (∀ key g, s.cursorOf (s.th.valS a) s.th.ident.lnum = some (key, r, g) →
        exec (.zcurClose d a x) s = .next (passedOut (answers
          { s with svc := { s.svc with cursors := s.svc.cursors.del key } }
          [(s.th.abs d, BitVec.ofNat 64 ((s.th.valS a).toNat / 2 ^ 48 % 256 * 2 ^ 48 + (s.th.valS a).toNat / 2 ^ 40 % 64 * 2 ^ 40 + g))])))
      ∧ (∀ key g e v, s.region? ((s.th.valS a).toNat / 2 ^ 48 % 256) = some r → r.asid = s.th.xltAsid.toNat % 2 ^ 16 →
        r.broken = false → s.cursorOf (s.th.valS a) s.th.ident.lnum = some (key, r, g) →
        let ns := max 1 (r.vsize / 8)
        let bound := (s.th.valS b).toNat + (if k then 1 else 0)
        d.toNat + 2 + ns ≤ 128 → (∀ j, j < 2 + ns → s.th.regs.sFull (s.th.abs d + j) = true) → bound < 2 ^ 64 →
          (s.zstep s.th.mid r bound g = .ok s' (some (e, v)) →
            exec (.znext k d a b x y) s = .next (passed (answers s' ((s.th.abs d, 0) :: (s.th.abs d + 1, BitVec.ofNat 64 e) ::
              (List.range ns).map (fun j => (s.th.abs d + 2 + j, BitVec.ofNat 64 (field v (8 * j) 8)))))))
          ∧ (s.zstep s.th.mid r bound g = .ok s' none →
            ∃ vs, exec (.znext k d a b x y) s = .next (passed (answers (s'.closeCursor key) ((s.th.abs d, BitVec.ofNat 64 (2 ^ 60)) :: vs)))
              ∧ ∀ p ∈ vs, p.2 = 0))
  ) ∧ (
    ∀ (s s₀ s' : State) (d a b : BitVec 7) (x y : Bool) (i : Nat) (r : Region) (u : Unit), Outside s →
      s.th.acqPending = false → GroupReady s .vector [s.th.abs a, s.th.abs b] [s.th.abs d] [] → s.release 2 = (s₀, some 0) →
      s.regionAt (s.th.xltAsid.toNat % 2 ^ 16) (s.th.valS a) = some (i, r) → r.broken = false → r.cur ≠ 2 ^ 32 - 2 →
      let l := (s.th.valS b).toNat
      let up := decide (r.lwm < l ∧ l ≤ r.cur)
      let lwm := if up then l else r.lwm
      s₀.zwrite s.th.mid (r.desc + 48) (toBytes ((r.cur + 1) * 2 ^ 32 + lwm) 8) = .ok s' u →
        exec (.zgen d a b x y) s = .next (passedOut ((s'.putRegion i { r with
          cur := r.cur + 1, lwm := lwm, sweep := if up then some (s.th.mid, none) else r.sweep }).produceS
            [(s.th.abs d, BitVec.ofNat 64 r.cur)]))
  ) ∧ (
    ∀ (s s' : State) (i n mid : Nat) (r r' : Region) (nd : Node), s.region? i = some r → r.broken = false →
      r.sweep = some (mid, some n) → s.readNode mid r n 0 = .ok s' nd →
      let next := if nd.hinf = true ∨ nd.right = none32 then none else some (mid, some nd.right)
      ((nd.entries.any (fun e => e.reclaimable (s'.bound i r)) = false →
          exec (.reclaimSweep i) s = .next (s'.putRegion i { r with sweep := next }))
        ∧ (∀ s'', nd.entries.any (fun e => e.reclaimable (s'.bound i r)) = true → s'.writeNode mid i r nd = .ok s'' r' →
          exec (.reclaimSweep i) s = .next (s''.putRegion i { r' with sweep := next })
          ∧ ∀ e ∈ nd.entries, e.reclaimable (s'.bound i r) = true → e.vslot ∈ r'.vfree))
  )

/-- R58 to R60: the registration of a region. A write in user mode raises cause 0x0F. A privileged registration reads its descriptor
and is refused with status 2 where it is malformed, 3 where its range overlaps a region's, 1 with 256 regions; accepted, node 0
is written as an empty leaf, the region takes the lowest free entry and ZRG.STAT its index. Unregistration is refused with status
5 where no region has the descriptor and 4 where the region is in use; else the last words 6 and 7 are written and the entry
goes. -/
def Obligations.RegionRegistration : Prop :=
  ∀ (s s₁ s₂ : State) (v : BitVec 64) (u : Unit),
    let desc : Word := BitVec.ofNat 64 (v.toNat / 64 % 2 ^ 56 * 64)
    let left (s : State) (st i : Nat) : State := s.mapTh (fun t => { t with res := { t.res with zrgStat := BitVec.ofNat 64 (st * 2 ^ 60 + i) } })
    (v.toNat / 2 ^ 62 = 0 →
      (s.th.priv = false → exec (.zrgRegister v) s = .next (s.trapHere 0x0F 0))
      ∧ (s.th.priv = true → s.homedRange desc 64 = false → exec (.zrgRegister v) s = .next (left s 2 0))
      ∧ (∀ bs, s.th.priv = true → s.homedRange desc 64 = true → s.zread s.th.mid desc 64 1 = .ok s₁ bs →
        let r := Region.ofWords desc (wordsOf bs 8)
        let bad := s₁.descBad desc (wordsOf bs 8)
        let ahead := s₁.svc.regions.any (fun p => r.overlaps p.2)
        let i := s₁.svc.regions.free 0 256
        (bad = true → exec (.zrgRegister v) s = .next (left s₁ 2 0))
        ∧ (bad = false → ahead = true → exec (.zrgRegister v) s = .next (left s₁ 3 0))
        ∧ (bad = false → ahead = false → 256 ≤ i → exec (.zrgRegister v) s = .next (left s₁ 1 0))
        ∧ (bad = false → ahead = false → i < 256 →
            s₁.zwrite s.th.mid (r.nodeAt 0) (Node.mk 0 0 0 true none32 [] [] []).bytes = .ok s₂ u →
            exec (.zrgRegister v) s = .next (left (s₂.putRegion i r) 0 i))))
    ∧ (v.toNat / 2 ^ 62 = 1 →
      (s.th.priv = false → exec (.zrgUnregister v) s = .next (s.trapHere 0x0F 0))
      ∧ (s.th.priv = true → s.svc.regions.find? (fun p => p.2.desc == desc) = none → exec (.zrgUnregister v) s = .next (left s 5 0))
      ∧ (∀ i r, s.th.priv = true → s.svc.regions.find? (fun p => p.2.desc == desc) = some (i, r) →
        (((∃ c ∈ s.svc.cursors, c.2.region = i) ∨ r.pins ≠ []) → exec (.zrgUnregister v) s = .next (left s 4 0))
        ∧ ((∀ c ∈ s.svc.cursors, c.2.region ≠ i) → r.pins = [] → (∀ c ∈ s.svc.cmds, 4 ≤ c.q) →
            s.zwrite s.th.mid (desc + 48) (toBytes (r.cur * 2 ^ 32 + r.lwm) 8 ++ toBytes (r.root * 2 ^ 32 + r.hgt * 2 ^ 24) 8) = .ok s₁ u →
            exec (.zrgUnregister v) s = .next (left { s₁ with svc := { s₁.svc with regions := s₁.svc.regions.del i } } 0 i))))
    ∧ (2 ≤ v.toNat / 2 ^ 62 → s.th.priv = true → exec (.sysregWrite 0x2800 v) s = .next (left s 2 0))

/-- R302, R306: PUSH hands eight scalars to an engine: after the checks and the release of its queue the command stands last in the
queue, with the group's rounding mode and determinism level written into it, and sd is 0; with the queue or the wait counter full
nothing is accepted and sd is 1.

R327, R328: LAUNCH pushes a launch command to q6 and answers its number; ARML keeps one under a tag that its partition does not
use yet and answers the arm's number, and a command of code 0 cancels the arm of a tag.

R110, R307 to R309: WAITC goes on once every wait counter it selects is zero, and waits otherwise; SGETWP reads a channel's write
pointer; TRECLD traps with cause 0x06 on an address that is no multiple of 64, else loads the 64 bytes of a tensor record for a slot and
its tile count, at once where its cache holds their line exclusively. -/
def Obligations.QueuePushes : Prop :=
  (
    ∀ (s s₀ s' : State) (d a : BitVec 7) (q : BitVec 4),
      let n := q.toNat
      let w := (List.range 8).map (fun i => s.th.regs.s (s.th.abs a + i))
      Ready s .copy ((List.range 8).map (fun i => s.th.abs a + i)) [s.th.abs d] [] → Outside s → a.toNat ≤ 120 → n < 10 →
      (s.th.kind = .distaff → 6 ≤ n) → (8 ≤ n → s.th.priv = true) → s.cmdCause s.th n w = 0 →
      s.release (pushScope n) = (s₀, some 0) → (if n = 4 then s₀.immediate false = some (s', 0) else s' = s₀) →
        let c := s'.newCmd s'.work.cur n w
        (s'.queueRoom c = true → (c.sigt = 1 → s.th.wc.getD c.sigx 0 < 1023) →
          exec (.push d a q) s = .next (passedOut ((s'.acceptCmd c).1.setS d 0))
          ∧ (∃ m, (s'.acceptCmd c).1.svc.cmds = s'.svc.cmds ++ [{ c with seq := m }])
          ∧ c.q = n ∧ c.st = .queued ∧ c.words.length = 8 ∧ (∀ i, 1 ≤ i → i < 8 → c.w i = s.th.regs.s (s.th.abs a + i))
          ∧ (∀ i, i < 64 → (i < 39 ∨ 44 ≤ i) → (c.w 0).getLsbD i = (s.th.regs.s (s.th.abs a)).getLsbD i)
          ∧ (c.w 0).toNat / 2 ^ 41 % 8 = s'.th.rm % 8 ∧ (c.w 0).toNat / 2 ^ 39 % 4 = s'.level s'.th % 4)
        ∧ ((s'.queueRoom c = false ∨ (c.sigt = 1 ∧ 1023 ≤ s.th.wc.getD c.sigx 0)) →
          exec (.push d a q) s = .next (passedOut (s'.setS d 1)))
  ) ∧ (
    ∀ (s s' : State) (d a b : BitVec 7) (x y : Bool),
      let w := (List.range 8).map (fun i => s.th.regs.s (s.th.abs a + i))
      let tag := (s.th.valS b).toNat
      let part := (s.partOfThread s.th).getD 4
      Ready s .every (s.th.abs b :: (List.range 8).map (fun i => s.th.abs a + i)) [s.th.abs d] [] → Outside s → a.toNat ≤ 120 →
        (s.cmdCause s.th 6 w = 0 → s.release 2 = (s', some 0) →
          (let c := s'.newCmd s'.work.cur 6 w;
            s'.queueRoom c = true → (c.sigt = 1 → s.th.wc.getD c.sigx 0 < 1023) → c.code = 0x50 →
              exec (.launch d a) s = .next (passedOut ((s'.acceptCmd c).1.setS d (BitVec.ofNat 64 s'.work.lnumNext)))
              ∧ (s'.acceptCmd c).1.work.lnumNext = if 2 ^ 32 - 1 ≤ s'.work.lnumNext then 1 else s'.work.lnumNext + 1)
          ∧ (bitsAt (s.th.regs.s (s.th.abs a)) 56 8 = 0x50 → tag < 2 ^ 32 → s'.svc.arms.length < 256 →
            (∀ m ∈ s'.svc.arms, ¬(m.part = part ∧ m.tag = tag)) →
              exec (.arml d a b x y) s = .next (passedOut ({ s' with svc := { s'.svc with
                arms := s'.svc.arms ++ [Arm.mk tag part s'.svc.armNext (s'.newCmd s'.work.cur 6 w)],
                armNext := nextLaunch s'.svc.armNext } }.setS d (BitVec.ofNat 64 s'.svc.armNext)))))
        ∧ (bitsAt (s.th.regs.s (s.th.abs a)) 56 8 = 0 → tag < 2 ^ 32 →
          (∀ l m r, s.svc.arms = l ++ m :: r → m.part = part → m.tag = tag → (s.th.priv = true ∨ m.cmd.asid = s.th.xltAsid.toNat % 2 ^ 16) →
            (∀ e ∈ l, ¬(e.part = part ∧ e.tag = tag)) →
              exec (.arml d a b x y) s = .next (passedOut ({ s with svc := { s.svc with arms := l ++ r } }.setS d 0)))
          ∧ ((∀ m ∈ s.svc.arms, ¬(m.part = part ∧ m.tag = tag)) →
              exec (.arml d a b x y) s = .next (passedOut (s.setS d (BitVec.ofNat 64 (4 * 2 ^ 60))))))
  ) ∧ (
    ∀ (s : State) (d a : BitVec 7) (c : BitVec 2) (m : BitVec 6) (k : BitVec 3) (x : Bool),
      (Ready s .every [] [] [] →
        ((∀ i, i < 6 → m.getLsbD i = true → s.th.wc.getD i 0 = 0 ∧ s.th.wcScope.getD i 0 = 0) →
          ∃ t, exec (.waitc m) s = .next t ∧ SameMemory s t ∧ t.th.fetch = s.th.advance.fetch ∧ t.th.regs = s.th.regs
            ∧ t.th.wc = s.th.wc ∧ ∀ j, j ≠ s.work.cur → t.thread j = s.thread j)
        ∧ ((∃ i, i < 6 ∧ m.getLsbD i = true ∧ s.th.wc.getD i 0 ≠ 0) → exec (.waitc m) s = .next s))
      ∧ (GroupReady s .every [] [s.th.abs d] [] → exec (.sgetwp d c) s = .next (gives s d (s.tm.wp.getD c.toNat 0)))
      ∧ (GroupReady s .walker [s.th.abs a] [s.th.abs d] [] → Settled s Order.relaxed s →
        let reqs := [laneReq (s.th.lanes.headD 0) (s.th.valS a) .load 64]
        let form : Form := ⟨true, s.th.abs d, k.toNat + 1, 64, false⟩
        let t := passed (loadsSent s form [s.th.abs d] [] Order.relaxed false [] (laneFates s reqs) 0)
        ((s.th.valS a).toNat % 64 ≠ 0 → exec (.trecld d a k x) s = .next (s.trapHere 0x06 0 (s.th.valS a)))
        ∧ (LanesGood s reqs s 0 →
          exec (.trecld d a k x) s = .next t ∧ (LanesHeld s (laneFates s reqs) → Brought s t form (laneFates s reqs))))
  )

/-- R157 to R159, R310, R311: named barriers. BARINIT sets what a barrier expects; an arrival counts, and the arrival that makes the
count turns the phase and ends the waits of the team's groups; BARARW waits for the phase it arrived in, BARW for the phase it
finds, and either goes on once its wait has ended.

R155, R156, R313: stage rings. A claim answers the address of the producer's empty slot and a take that of the consumer's full
one; publishing fills the slot and moves P, freeing empties it and moves C, both as releases; a word waits where its slot is not
as it needs, and answers a status of its own where the ring is not configured or serves a PME share. -/
def Obligations.TeamSynchronisation : Prop :=
  (
    ∀ (s : State) (a : BitVec 7) (b : BitVec 5) (x : Bool), Outside s → GroupReady s .every [s.th.abs a] [] [] →
      let n := b.toNat
      let z := s.tm.bar n
      let full := decide (max z.expect 1 ≤ z.count + 1)
      let team := s.th.ident.team
      (n < 20 →
        (0 < n → ¬(max ((s.th.valS a).toNat % 1024) 1 ≤ z.count) →
          ∃ t, exec (.barinit a b x) s = .next t ∧ (t.team team).bar n = { z with expect := (s.th.valS a).toNat % 1024 }
            ∧ t.th = (s.th.endRegion true).advance ∧ SameMemory s t)
        ∧ (∀ s', s.release (if 16 ≤ n then 1 else 0) = (s', some 0) →
          exec (.bararv b) s = .next (passedOut ((s'.clearRec n).arriveGroup s'.th.ident.team n))))
      ∧ (n < 16 → s.unperformed s.work.cur = false → s.coreOut s.work.cur = false → z.scope = 0 →
        (∃ t, exec (.bararv b) s = .next t ∧ SameMemory s t ∧ t.th.fetch = s.th.advance.fetch
          ∧ (t.team team).bar n = (if full then { z with count := 0, phase := !z.phase } else { z with count := z.count + 1 })
          ∧ (full = true → ∀ k, k ≠ s.work.cur → (s.thread k).kind = .group → (s.thread k).ident.team = team →
              (s.thread k).wait = .barrier n z.phase none → (t.thread k).wait = .barrier n z.phase (some 0)))
        ∧ (s.th.wait = .none → ∃ t, exec (.bararw b) s = .next t ∧ SameMemory s t
          ∧ (t.team team).bar n = (if full then { z with count := 0, phase := !z.phase } else { z with count := z.count + 1 })
          ∧ (full = true → t.th.wait = .none ∧ t.th.fetch = s.th.advance.fetch)
          ∧ (full = false → t.th.wait = .barrier n z.phase none ∧ t.th.fetch = s.th.fetch)))
      ∧ (n < 20 → s.th.wait = .none → s.th.barRec.find n = none →
          ∃ t, exec (.barw b) s = .next t ∧ SameMemory s t ∧ t.th.wait = .barrier n z.phase none ∧ t.th.fetch = s.th.fetch
            ∧ t.work.teams = s.work.teams)
      ∧ (n < 20 → ∀ m p, s.th.wait = .barrier m p (some 0) →
          ∀ w ∈ [Instr.barw b, .bararw b], ∃ t, exec w s = .next t ∧ SameMemory s t ∧ t.th.wait = .none
            ∧ t.th.fetch = s.th.advance.fetch ∧ t.th.regs = s.th.regs ∧ t.work.teams = s.work.teams)
  ) ∧ (
    ∀ (s : State) (d : BitVec 7) (k : BitVec 3), Outside s → GroupReady s .every [] [s.th.abs d] [] →
      let g := s.tm.ring k.toNat
      let size := g.cfg.toNat / 2 ^ 32 % 1024 * 128
      let slots := g.cfg.toNat / 2 ^ 56 % 16 + 1
      let at_ (i : Nat) : Word := BitVec.ofNat 64 (g.cfg.toNat % 2 ^ 19 + i * size)
      let team := s.th.ident.team
      (size = 0 → exec (.ringputClaim d k) s = .next (gives s d (BitVec.ofNat 64 (2 ^ 60)))
        ∧ exec (.ringgetTake d k) s = .next (gives s d (BitVec.ofNat 64 (2 ^ 60))))
      ∧ (size ≠ 0 → g.pme = false → g.full.has g.prod = false → exec (.ringputClaim d k) s = .next (gives s d (at_ g.prod)))
      ∧ (size ≠ 0 → g.pme = false → g.full.has g.prod = true → exec (.ringputClaim d k) s = .next s)
      ∧ (size ≠ 0 → g.full.find g.cons = some 0 → exec (.ringgetTake d k) s = .next (gives s d (at_ g.cons)))
      ∧ (size ≠ 0 → g.full.find g.cons = none → exec (.ringgetTake d k) s = .next s)
      ∧ (s.unperformed s.work.cur = false → s.coreOut s.work.cur = false →
        (size ≠ 0 → g.pme = false → g.full.has g.prod = false →
          exec (.ringputPub d k) s = .next (passedOut ((s.mapRing team k.toNat (fun g =>
            { g with full := g.full.put g.prod 0, prod := (g.prod + 1) % slots })).setS d (at_ g.prod))))
        ∧ (size ≠ 0 → g.full.has g.cons = true →
          exec (.ringgetFree d k) s = .next (passedOut ((s.mapRing team k.toNat (fun g =>
            { g with full := g.full.del g.cons, cons := (g.cons + 1) % slots })).setS d (at_ g.cons)))))
      ∧ (size ≠ 0 → g.full.has g.cons = false → exec (.ringgetFree d k) s = .next (passedOut (s.setS d (BitVec.ofNat 64 (3 * 2 ^ 60)))))
  )

/-- R135, R139, R314 to R316: MBPOST hands the record in its registers to the merge unit's queue as a release, with its poison, and
traps on a row its share has not; MBTAKE empties its registers and takes the row's result where it is there: a row already taken
lands zeros with status 4, and a result is landed once, word i of m, l, status, row and o in lane i mod W of register i div W.

R136, R137: the merge unit takes the next record of its queue: it drops a record of another pass or of a share that is aborted or
taken; it sets status 3 on a row whose record is out of its order; and it merges a record that is next into its slot, keeping the
larger m, scaling the other side by 2 to the difference, and making every field the canonical NaN where either m is one. -/
def Obligations.MailboxWords : Prop :=
  (
    ∀ (s : State) (d a b : BitVec 7) (x y : Bool) (die pix i : Nat) (p : Pass) (sh : Share),
      s.shareOf s.th.ident.team (s.th.valS b) = some (die, pix, p, i, sh) →
      let w := s.th.width
      let n := (4 + sh.dim + w - 1) / w
      let word (j : Nat) : Nat := (s.th.regs.v (a.toNat + j / w) (j % w)).toNat
      let bad := (List.range (4 + sh.dim)).any (fun j => s.th.regs.vPoison.contains (64 * (a.toNat + j / w) + j % w))
      (∀ s', Outside s → GroupReady s .vector [s.th.abs b] [] (from_ a n) → s.th.badV a 1 = false → s.th.badV a n = false →
        ((sh.rows < word 3 % 65536 ∨ word 3 / 65536 ≠ 0) → exec (.mbpost a b x y) s = .next (s.trapHere 0x11 0))
        ∧ (word 3 ≤ sh.rows → word 3 < 65536 → s.release (if s.th.ident.core / 48 = die then 1 else 2) = (s', some 0) →
          (s'.pme die).posts.length < 64 →
          exec (.mbpost a b x y) s = .next (passedOut (s'.mapPme die (fun m => { m with posts := m.posts ++
            [⟨pix, p.ser, i, word 0, word 1, word 2, word 3, (List.range sh.dim).map (fun j => word (4 + j)), bad⟩] })))))
      ∧ (Outside s → GroupReady s .vector [s.th.abs a, s.th.abs b] [] (from_ d n) → s.th.badDest d 1 = false →
          s.th.badDest d n = false → s.th.acqPending = false →
        let row := (s.th.valS a).toNat
        (sh.rows < row → exec (.mbtake d a b x y) s = .next (s.trapHere 0x11 0))
        ∧ (row ≤ sh.rows → ∃ q : Producer, q.vdests = from_ d n ∧ q.await = .take die (s.th.valS b) row ∧ q.left = 0
            ∧ q.order = ⟨true, false, if s.th.ident.core / 48 = die then 1 else 2⟩
            ∧ exec (.mbtake d a b x y) s = .next (passedOut ((s.mapTh (fun t => t.produce q)).tryTake s.work.cur q.id))))
      ∧ (∀ k id q, (s.thread k).ident.team = s.th.ident.team → (s.thread k).findProducer id = some q →
          ∀ row, q.await = .take die (s.th.valS b) row →
          (p.results.find (p.rowKey sh.qh row) = none → sh.taken.contains row = false → s.tryTake k id = s)
          ∧ (sh.taken.contains row = true → s.tryTake k id = s.mapThread k (fun t => t.mapProducer id (fun q =>
              q.take t.width row ⟨0xFF800000, 0, List.replicate sh.dim 0, 4, []⟩)))
          ∧ (∀ r : RowRes, sh.taken.contains row = false → p.results.find (p.rowKey sh.qh row) = some r →
              ∃ s' : State, s.tryTake k id = s'.mapThread k (fun t => t.mapProducer id (fun q => q.take t.width row r))
                ∧ s'.work.threads = s.work.threads ∧ s'.mem = s.mem))
      ∧ (∀ (u : State) k id q die' token row, u.shareOf (u.thread k).ident.team token = none → (u.thread k).findProducer id = some q →
          q.await = .take die' token row →
            u.tryTake k id = u.mapThread k (fun t => t.mapProducer id (fun q => q.take t.width row ⟨0xFF800000, 0, [], 4, []⟩)))
      ∧ (∀ (q : Producer) (v row m : Nat) (r : RowRes), q.vdests = v :: from_ (BitVec.ofNat 7 (v + 1)) m → v + 1 + m ≤ 128 → 0 < w →
          ∀ j, j < (m + 1) * w → (Dest.v (v + j / w) (j % w),
            BitVec.ofNat 64 (nth (r.m :: r.l :: r.status :: row :: r.o) j 0)) ∈ (q.take w row r).vals)
  ) ∧ (
    (∀ (s : State) (die : Nat) (o : Post) (rest : List Post), (s.pme die).posts = o :: rest →
      let s' := s.mapPme die (fun m => { m with posts := rest })
      (s'.pass? die o.pix = none → exec (.mergeRecord die) s = .next s')
      ∧ (∀ p x, s'.pass? die o.pix = some p → p.share? o.share = some x →
        (p.ser ≠ o.ser ∨ x.st = .aborted ∨ x.st = .taken → exec (.mergeRecord die) s = .next s')
        ∧ (p.ser = o.ser → x.st ≠ .aborted → x.st ≠ .taken → (s'.pme die).slotOf o.pix o.ser o.share x o.row = none →
          exec (.mergeRecord die) s = .next s')
        ∧ (∀ z, p.ser = o.ser → x.st ≠ .aborted → x.st ≠ .taken → (s'.pme die).slotOf o.pix o.ser o.share x o.row = some z →
          (o.pos ≠ z.next ∨ x.list.length ≤ o.pos → exec (.mergeRecord die) s = .next (s'.raiseQst die o.pix o.share x o.row 3))
          ∧ (o.pos = z.next → o.pos < x.list.length →
            let r := mergeRows (z.m, z.l, z.o) (o.m, o.l, o.o)
            let z' : Slot := { z with
              m := r.1, l := r.2.1, o := r.2.2, next := z.next + 1,
              poison := if z.poison = [] ∧ o.poison = false then [] else List.range (2 + z.o.length / 2) }
            exec (.mergeRecord die) s = .next ((((s'.mapPme die (fun m => { m with slots := m.slots.put (x.slot + o.row) z' })).formRow
              die o.pix x.qh o.row).settleShare die o.pix o.share).tryTakes)))))
    ∧ (∀ (m l n k : Nat) (o u : List Nat), (Fmt.decode .f32 m).isNaN = false → (Fmt.decode .f32 n).isNaN = false →
        (Fmt.decode .f32 m).lt (Fmt.decode .f32 n) = true →
        (Fmt.decode .f32 m).eq (Fmt.decode .f32 n) = false → m ≠ 0xFF800000 →
        let a := fexp2 .f32 .rne (fsub .f32 .rne m n)
        mergeRows (m, l, o) (n, k, u) = (n, ffma .f32 .rne l a k, (o.zip u).map (fun p => ffma .f32 .rne p.1 a p.2)))
    ∧ (∀ (m l n k : Nat) (o u : List Nat), (Fmt.decode .f32 m).isNaN = true ∨ (Fmt.decode .f32 n).isNaN = true →
        mergeRows (m, l, o) (n, k, u) = (0x7FC00000, 0x7FC00000, o.map (fun _ => 0x7FC00000)))
  )

/-- R317, R319, R321, R322: TXBEGIN opens a transaction that restarts at the next header; TXEND waits for a ticket while the
transaction has signature entries and ends it once every lane has committed; TXABORT ends it with its code at the restart header;
TXSTAT reports cause, code, attempts, fallback and whether one is live; outside a transaction TXEND answers 0 and TXABORT does
nothing. -/
def Obligations.TransactionWords : Prop :=
  ∀ (s s' : State) (d n : BitVec 7) (m : BitVec 4), Ready s .every [] [s.th.abs d] [] →
    let x := s.th.tx
    (x.live = false → s.th.lastWord = true →
      (∃ t, exec (.txbegin d m) s = .next t ∧ SameMemory s t ∧ t.th.fetch = ⟨s.th.nextHdr, 0, []⟩ ∧ t.th.regs.s (s.th.abs d) = 0
        ∧ t.th.tx.live = true ∧ t.th.tx.tm = s.th.active ∧ t.th.tx.done = 0 ∧ t.th.tx.d0 = s.th.pstack.length ∧ t.th.tx.att = 0
        ∧ t.th.tx.budget = m.toNat ∧ t.th.tx.rh = s.th.nextHdr ∧ t.th.tx.rd = s.th.abs d ∧ t.th.tx.log = [] ∧ t.th.tx.buf = []
        ∧ ∀ r, r ≠ s.th.abs d → t.th.regs.s r = s.th.regs.s r)
      ∧ exec (.txend d) s = .next (passedOut (s.setS d 0)))
    ∧ (x.live = true → s.th.lastWord = true → s.th.wait = .none → s.release 2 = (s', some 0) → s'.svc.fblHolder = none →
      (s'.sigSlices s'.work.cur = [] → s'.level s'.th = 0 → ∃ t, exec (.txend d) s = .next t ∧ t.th.tx.live = false
        ∧ t.th.regs.s (s.th.abs d) = (s'.th.tx.done ||| s'.th.tx.tm) ∧ t.th.fetch = ⟨s'.th.nextHdr, 0, []⟩)
      ∧ (s'.sigSlices s'.work.cur ≠ [] →
        exec (.txend d) s = .next (s'.mapTh (fun t => { t with wait := .commit 0 (s'.sigSlices s'.work.cur) t.tx.tm false }))))
    ∧ (∀ tk c, x.live = true → s.th.lastWord = true → s.th.wait = .commit tk [] c false → tk ≠ 0 → s.level s.th = 0 →
      (∀ r ∈ s.mem.resv, r.agent ≠ s.work.cur) →
      (x.tm &&& ~~~c = 0 → ∃ t, exec (.txend d) s = .next t ∧ t.th.tx.live = false ∧ t.th.wait = .none
        ∧ t.th.regs.s (s.th.abs d) = (x.done ||| c) ∧ t.th.fetch = ⟨s.th.nextHdr, 0, []⟩)
      ∧ (x.tm &&& ~~~c ≠ 0 → x.fbk = false → x.att + 1 < x.budget → x.att < 15 → ∃ t, exec (.txend d) s = .next t ∧ t.th.tx.live = true
        ∧ t.th.tx.tm = x.tm &&& ~~~c ∧ t.th.tx.done = (x.done ||| c) ∧ t.th.tx.cause = 1 ∧ t.th.tx.att = x.att + 1
        ∧ t.th.regs.s x.rd = 0 ∧ t.th.fetch = ⟨x.rh, 0, []⟩))
    ∧ (if x.live then ∃ t, exec (.txabort n) s = .next t ∧ SameMemoryBytes s t ∧ t.th.tx.live = false ∧ t.th.tx.cause = 4
          ∧ t.th.tx.code = n.toNat ∧ t.th.regs.s x.rd = x.tm ∧ t.th.fetch = ⟨x.rh, 0, []⟩ ∧ t.th.wait = .none
        else exec (.txabort n) s = .next (passed s))
    ∧ exec (.txstat d) s = .next (gives s d (BitVec.ofNat 64 (x.cause * 2 ^ 56 + (if x.cause = 4 then x.code else 0) * 2 ^ 49
        + x.att * 2 ^ 44 + (if x.fbk then 2 ^ 43 else 0) + (if x.live then 2 ^ 42 else 0))))

/-- R353 to R355, R358, R361: the commit sequence. A ticket is taken and reserves every slice the transaction has entries at; at the
head of a slice its lines are locked and the lanes whose logged bytes changed fail; with every answer in, the lanes that commit
are chosen and the slices may write, and a distaff thread's bytes stand in its own cache at once, without its entries; a slice writes the
buffered bytes of a group, drops the entries, unlocks the lines and frees its reservation. -/
def Obligations.CommitSequence : Prop :=
  (∀ (s : State) (k : Nat) (sl : List Nat) (c : Mask) (bad : Bool), (s.thread k).wait = .commit 0 sl c bad → s.svc.fblHolder = none →
    (s.thread k).status = .running → ∃ t, exec (.ticketRequest k) s = .next t ∧ t.svc.ticket = s.svc.ticket + 1
      ∧ (t.thread k) = { s.thread k with wait := .commit s.svc.ticket sl c bad }
      ∧ t.mem = { s.mem with resv := s.mem.resv ++ sl.map (fun x => ⟨s.svc.ticket, k, x, false, false, false⟩) })
  ∧ (∀ (s : State) (slice n : Nat) (r : Resv) (sl : List Nat) (c : Mask) (bad : Bool), s.firstResv slice = some r → r.head = false →
    r.atomic = false → (s.thread r.agent).wait = .commit n sl c bad →
    let x := (s.thread r.agent).tx
    ((s.thread r.agent).kind = .distaff ∨ s.sigsAt r.agent slice = [] →
      ∃ t, exec (.reservationHead slice) s = .next t ∧ (t.thread r.agent).wait = .commit n (eraseNat sl slice) c bad
        ∧ ({ r with head := true } : Resv) ∈ t.mem.resv ∧ t.mem.locked = s.mem.locked)
    ∧ (∀ e, (s.thread r.agent).kind = .group → s.sigsAt r.agent slice = [e] →
      let h := (s.txHome x e.line).1
      s.lineMoves h = false → (∀ p ∈ s.mem.caches, s.cached p.1 h = none ∧ Tab.find p.2 h = none) →
      ∃ t, exec (.reservationHead slice) s = .next t
        ∧ (t.thread r.agent).wait = .commit n (eraseNat sl slice) (c &&& ~~~(s.changedLanes x [e.line])) (bad || s.logPoisoned x [e.line])
        ∧ h ∈ t.mem.locked ∧ ({ r with head := true } : Resv) ∈ t.mem.resv))
  ∧ (∀ (s : State) (k n : Nat) (c : Mask), (s.thread k).wait = .commit n [] c false → n ≠ 0 →
    (∀ r ∈ s.mem.resv, r.agent = k → r.atomic = false → r.head = true ∧ r.write = false) →
      let x := (s.thread k).tx
      let done (t : State) (c : Mask) : Prop := (t.thread k).wait = .commit n [] c false
        ∧ ∀ r ∈ t.mem.resv, r.agent = k → r.atomic = false → r.write = true
      ((s.thread k).kind = .group → ∃ t, exec (.validationAnswers k) s = .next t ∧ done t (x.commitSet c) ∧ t.mem.sigs = s.mem.sigs)
      ∧ ((s.thread k).kind = .distaff →
        s.specReady (s.thread k) (x.tm &&& c) ((s.mem.sigs.filter (fun e => e.agent == k)).map (·.line)) = true →
        ∃ t, exec (.validationAnswers k) s = .next t ∧ done t (x.tm &&& c) ∧ ∀ e ∈ t.mem.sigs, e.agent ≠ k))
  ∧ (∀ (s : State) (slice n : Nat) (r : Resv) (sl : List Nat) (c : Mask) (bad : Bool), s.firstResv slice = some r → r.head = true →
    r.write = true → r.atomic = false → (s.thread r.agent).wait = .commit n sl c bad → (s.thread r.agent).kind = .group →
    s.level (s.thread r.agent) = 0 →
      let x := (s.thread r.agent).tx
      let lines := (s.sigsAt r.agent slice).map (·.line)
      let ws := x.buf.filter (fun p => c.getLsbD (p.1 % 64) && lines.contains (p.1 / 64 / 128))
      lines.Nodup → (∀ l ∈ lines, s.txHome x l = (l, x.lkeys.getD l 0)) →
      ∃ t, exec (.commitWrite slice) s = .next t ∧ t.work = s.work
        ∧ t.mem.sigs = s.mem.sigs.filter (fun e => !(e.agent == r.agent && lines.contains e.line))
        ∧ t.mem.locked = s.mem.locked.filter (fun l => !(lines.contains l)) ∧ t.mem.resv = s.mem.resv.filter (fun q => !(q == r))
        ∧ ((ws.map (·.1 / 64)).Nodup → (∀ w ∈ ws, classOf (w.1 / 64) ≠ 5) →
          (∀ w ∈ ws, t.homeByte (x.lkeys.getD (w.1 / 64 / 128) 0) (w.1 / 64) = w.2)
          ∧ ∀ key a, classOf a ≠ 5 → (∀ w ∈ ws, w.1 / 64 / 128 ≠ a / 128) → t.homeByte key a = s.homeByte key a))
  ∧ (∀ (s : State) (k : Nat) (r : List Nat), s.svc.fblHolder = none → s.svc.fblWait = k :: r → (s.thread k).wait = .lock →
    ∃ t, exec .fallbackLockGrant s = .next t ∧ t.svc.fblHolder = some k ∧ t.svc.fblWait = r ∧ (t.thread k).wait = .none
      ∧ (t.thread k).fetch = ⟨(s.thread k).tx.rh, 0, []⟩ ∧ (t.thread k).regs.s (s.thread k).tx.rd = 0 ∧ SameMemory s t)

/-- R194, R325 and the register maps: SRD writes what the register of a number holds to sd: on either kind of core, on SIMT cores
only, and on distaff cores only; a privileged register raises cause 0x0F in user mode and answers in privileged mode. -/
def Obligations.SystemRegisterReads : Prop :=
  ∀ (s : State) (d : BitVec 7) (n : BitVec 19), Ready s .every [] [s.th.abs d] [] →
    let t := s.th
    let part := s.partOfThread t
    let reads (p : Nat × Word) : Prop := n.toNat = p.1 → exec (.srd d n) s = .next (gives s d p.2)
    (∀ p ∈ [(0x0800, BitVec.ofNat 64 (s.core t.mid).clk), (0x1000, BitVec.ofNat 64 t.rm), (0x2000, t.xltRoot), (0x2001, t.xltAsid),
        (0x2800, 0), (0x2801, t.res.zrgStat), (0x5800, t.res.keyStat), (0x6000, BitVec.ofNat 64 s.svc.ticket), (0x6803, s.pkg.node)],
      reads p)
    ∧ (∀ k, k < 4 → reads (0x4800 + k, s.pkg.slsub.getD k 0) ∧ reads (0x4810 + k, s.pkg.ivl.getD k 0)
        ∧ reads (0x4820 + k, s.pkg.nbnd.getD k 0) ∧ reads (0x4830 + k, s.pkg.ptnRes.getD k 0))
    ∧ (∀ die x, die < 4 → x < 48 → reads (0x4200 + 64 * die + x, s.mem.slcErr.getD (48 * die + x) 0))
    ∧ (t.kind = .group →
      (∀ p ∈ [(0x0801, (s.core t.ident.core).throttle), (0x1002, t.trap.tcs), (0x1003, t.trap.tlm), (0x1004, t.trap.tva),
          (0x1005, t.trap.trsm), (0x3801, s.tm.err.getD 4 0),
          (0x1001, BitVec.ofNat 64 (t.ident.block % 2 ^ 32 * 2 ^ 32 + t.ident.gnum * 2 ^ 22 + t.ident.crank * 2 ^ 18
            + t.ident.core / 48 * 2 ^ 16 + t.ident.core % 48 * 2 ^ 10 + t.ident.wcode * 2 ^ 8 + t.ident.nvr / 8 * 2 ^ 4
            + t.ident.role * 2 ^ 2))],
        reads p)
      ∧ (∀ c, c < 4 → reads (0x3000 + c, s.tm.wp.getD c 0) ∧ reads (0x3008 + c, s.tm.err.getD c 0))
      ∧ (∀ k, k < 8 → reads (0x1800 + k, (s.tm.ring k).word))
      ∧ (∀ l, s.launch? t.ident.lnum = some l →
          reads (0x6800, BitVec.ofNat 64 (t.ident.lnum % 2 ^ 32 * 2 ^ 32 + l.npkg * 2 ^ 18 + l.det * 2 ^ 16 + l.rank))))
    ∧ (∀ p ∈ [(0x9000, s.pkg.pwrCap), (0x6801, s.pkg.svBase.getD (part.getD 4) 0), (0x6802, s.pkg.svLen.getD (part.getD 4) 0),
        (0x7000, (s.ownFrq t).base), (0x7001, BitVec.ofNat 64 (s.ownFrq t).head), (0x7002, BitVec.ofNat 64 (s.ownFrq t).tail),
        (0x7003, BitVec.ofNat 64 (t.res.frqSt * 2 ^ 60))],
      (t.priv = true → reads p) ∧ (t.priv = false → n.toNat = p.1 → exec (.srd d n) s = .next (s.trapHere 0x0F 0)))
    ∧ (t.priv = true → t.kind = .distaff →
        ∀ p ∈ [(0x7800, t.trap.vec), (0x7801, t.trap.tcs), (0x7802, t.trap.trsm), (0x7803, t.trap.tva), (0x7804, t.trap.irq)], reads p)
    ∧ (t.priv = true → ∀ k, k < 4 → reads (0x8010 + k, s.pkg.cxlT2.getD k 0) ∧ reads (0x8800 + k, (s.netOf k).rx)
        ∧ reads (0x8804 + k, (s.netOf k).rxa) ∧ reads (0x8808 + k, BitVec.ofNat 64 (s.netOf k).rxh)
        ∧ reads (0x880C + k, BitVec.ofNat 64 (s.netOf k).rxt) ∧ reads (0x8810 + k, (s.netOf k).rxs))

/-- The register maps (Tables 1.3a, 4.7, 5.6, 7.4, 17.6, 18.2, 18.3, 19.6, R325): a permitted SWR writes the writable fields of its
register and ends its region, and the table's row for that register's write does the same; a field that its map excludes keeps
its value.

R22, R24, R148, R401, R403: GRP.ID and the registers that only the partition manager writes refuse every SWR with cause 0x0F, in
either mode; and the registers that Tables 2.8, 5.6, 17.6 and 18.3 keep for privileged writers refuse one in user mode. -/
def Obligations.SystemRegisterWrites : Prop :=
  (
    ∀ (s : State) (d : BitVec 7) (n : BitVec 19), Ready s .every [s.th.abs d] [] [] → s.th.priv = true →
      let v := s.th.valS d
      let me := s.th
      let does (number : Nat) (rows : List Instr) (t : State) : Prop := n.toNat = number →
        exec (.swr d n) s = .next (passedOut t) ∧ ∀ i ∈ (.sysregWrite number v) :: rows, exec i s = .next t
      let trap (f : TrapRegs → TrapRegs) : State := s.mapTh (fun t => { t with trap := f t.trap })
      let pkg (f : Pkg → Pkg) : State := { s with pkg := f s.pkg }
      let mem (f : Mem → Mem) : State := { s with mem := f s.mem }
      (v.toNat % 8 ≤ 4 → does 0x1000 [.grpRmWrite v] (s.mapTh (fun t => { t with rm := v.toNat % 8 })))
      ∧ (4 < v.toNat % 8 → does 0x1000 [.grpRmWrite v] s)
      ∧ does 0x2000 [] (s.mapTh (fun t => { t with xltRoot := v &&& 0x3FFFFFFFFFFFF001 }))
      ∧ does 0x2001 [] (s.mapTh (fun t => { t with xltAsid := v &&& 0xFFFF }))
      ∧ (me.kind = .group →
        let core (f : Core → Core) : State := s.mapCore me.ident.core f
        let old := (s.core me.ident.core).throttle
        let rqc := (s.core me.ident.core).rqcCtl
        (v.toNat % 2 ^ 16 ≤ v.toNat / 2 ^ 16 % 2 ^ 16 → does 0x0801 [.coreThrottleWrite v] (core (fun c =>
            { c with throttle := (old &&& ~~~0x8000E000FFFFFFFF) ||| (v &&& 0x8000E000FFFFFFFF) })))
        ∧ (v.toNat / 2 ^ 16 % 2 ^ 16 < v.toNat % 2 ^ 16 → does 0x0801 [.coreThrottleWrite v] (core (fun c =>
            { c with throttle := (old &&& ~~~0x8000E00000000000) ||| (v &&& 0x8000E00000000000) })))
        ∧ (1 ≤ v.toNat % 512 → v.toNat % 512 ≤ 256 → 1 ≤ v.toNat / 512 % 128 → v.toNat / 512 % 128 ≤ 64 →
            does 0x3800 [.rqcCtlWrite v] (core (fun c => { c with rqcCtl := (rqc &&& ~~~0xFFFF) ||| (v &&& 0xFFFF) })))
        ∧ (v.toNat % 512 = 0 → 64 < v.toNat / 512 % 128 → does 0x3800 [.rqcCtlWrite v] (core (fun c => { c with rqcCtl := rqc })))
        ∧ (me.trap.tcs.getLsbD 63 = true → does 0x1005 [.grpTrsmWrite v] (trap (fun x => { x with trsm := v &&& 0xF0FFFFFFFFFFFFFF })))
        ∧ (me.trap.tcs.getLsbD 63 = false → does 0x1005 [.grpTrsmWrite v] s)
        ∧ (v.getLsbD 1 = true → does 0x3801 [.rqcErrClear v] (s.mapTeam me.ident.team (fun m => { m with err := m.err.del 4 })))
        ∧ (v.getLsbD 1 = false → does 0x3801 [.rqcErrClear v] s)
        ∧ (∀ c, c < 4 →
            (v.getLsbD 1 = true → does (0x3008 + c) [.cpeErrClear c v] (s.mapTeam me.ident.team (fun m => { m with err := m.err.del c })))
            ∧ (v.getLsbD 1 = false → does (0x3008 + c) [.cpeErrClear c v] s))
        ∧ (∀ k, k < 8 →
            let r := s.tm.ring k
            let size := v.toNat / 2 ^ 32 % 1024 * 128
            let fits := v.toNat % 2 ^ 19 % 128 = 0 ∧ size ≤ 65536 ∧ v.toNat % 2 ^ 19 + (v.toNat / 2 ^ 56 % 16 + 1) * size ≤ s.tm.alloc
            let put (g : Ring) : State := s.mapTeam me.ident.team (fun m => { m with rings := m.rings.put k g })
            (r.pme = false → (size = 0 ∨ fits) →
              does (0x1800 + k) [.teamRingWrite k v] (put ⟨v &&& 0x3F0003FF0007FFFF, false, false, [], 0, 0⟩))
            ∧ ((r.pme = true ∨ (size ≠ 0 ∧ ¬fits)) → does (0x1800 + k) [.teamRingWrite k v] (put { r with rej := true }))))
      ∧ (∀ x, x < 48 → ∀ die, die < 4 →
          (v.getLsbD 0 = true → does (0x4200 + 64 * die + x) [.slcErrClear (48 * die + x) v]
            (mem (fun m => { m with slcErr := m.slcErr.del (48 * die + x) })))
          ∧ (v.getLsbD 0 = false → does (0x4200 + 64 * die + x) [.slcErrClear (48 * die + x) v] s))
      ∧ (∀ p, s.partOfThread me = some p →
          (s.partSaved p = false → does 0x6801 [.dspSvbaseWrite v] (pkg (fun g => { g with svBase := g.svBase.put p (v &&& 0x3FFFFFFFFFFFF000) }))
            ∧ does 0x6802 [.dspSvlenWrite v] (pkg (fun g => { g with svLen := g.svLen.put p (v &&& 0xFFFFFFFFFFFF) })))
          ∧ (s.partSaved p = true → does 0x6801 [.dspSvbaseWrite v] s ∧ does 0x6802 [.dspSvlenWrite v] s)
          ∧ ((s.frqOf p).head = (s.frqOf p).tail →
              does 0x7000 [.frqBaseWrite v] (s.mapFrq p (fun q => { q with base := v &&& 0x3FFFFFFFFFFFF80F })))
          ∧ ((s.frqOf p).head ≠ (s.frqOf p).tail → does 0x7000 [.frqBaseWrite v] s)
          ∧ does 0x7002 [] (s.mapFrq p (fun q => { q with tail := v.toNat % 2 ^ 32 })))
      ∧ (me.kind = .distaff →
          does 0x7800 [] (trap (fun x => { x with vec := v &&& 0x00FFFFFFFFFFFFFC }))
          ∧ does 0x7801 [] (trap (fun x => { x with tcs := v &&& 0xE0FFFFFF00000000 }))
          ∧ does 0x7802 [] (trap (fun x => { x with trsm := v &&& 0xF0FFFFFFFFFFFFFF }))
          ∧ does 0x7804 [.dtrIrqClear v] (trap (fun x => { x with irq := x.irq &&& ~~~v })))
      ∧ (∀ k, k < 4 →
          (v.toNat % 16 ≤ 12 → does (0x8800 + k) [.netRxWrite k v] (s.mapNet k (fun r => { r with rx := v &&& 0x00FFFFFFFFFFF00F })))
          ∧ (12 < v.toNat % 16 → does (0x8800 + k) [.netRxWrite k v]
              (s.mapNet k (fun r => { r with rx := (v &&& 0x00FFFFFFFFFFF000) ||| (r.rx &&& 0xF) })))
          ∧ does (0x8804 + k) [] (s.mapNet k (fun r => { r with rxa := v &&& 0x3FFFFFFFFFFFF001 }))
          ∧ does (0x8810 + k) [] (s.mapNet k (fun r => { r with rxs := v &&& 0xFFFF }))
          ∧ (let r := s.netOf k
            let moved := (v.toNat % 2 ^ 32 + 2 ^ 32 - r.rxt) % 2 ^ 32
            let filled := (r.rxh + 2 ^ 32 - r.rxt) % 2 ^ 32
            (moved ≤ filled → does (0x880C + k) [.netRxtWrite k v] (s.mapNet k (fun r => { r with rxt := v.toNat % 2 ^ 32 })))
            ∧ (filled < moved → does (0x880C + k) [.netRxtWrite k v] (s.mapNet k (fun r => r)))))
      ∧ does 0x9000 [.pwrCapWrite v] (pkg (fun g => { g with pwrCap := BitVec.ofNat 64 (max 600 (min 2600 (v.toNat % 4096))) }))
      ∧ (∀ k, k < 16 → does (0x8000 + k) [] (pkg (fun g => { g with cxlWin := g.cxlWin.put k (v &&& 0xE0003FFFFFFFC000) })))
      ∧ (∀ k, k < 4 → does (0x8010 + k) [] (pkg (fun g => { g with cxlT2 := g.cxlT2.put k (v &&& 0x80003FFFFFFFC000) })))
  ) ∧ (
    ∀ (s : State) (d : BitVec 7) (n : BitVec 19), Ready s .every [s.th.abs d] [] [] →
      (∀ k, k < 4 → ∀ x ∈ [0x4800, 0x4810, 0x4820, 0x4830], n.toNat = x + k → exec (.swr d n) s = .next (s.trapHere 0x0F 0))
      ∧ (s.th.kind = .group → n.toNat = 0x1001 → exec (.swr d n) s = .next (s.trapHere 0x0F 0))
      ∧ (s.th.priv = false → (∀ x ∈ [0x2000, 0x2001, 0x2800, 0x7000, 0x7001, 0x7002, 0x7003], n.toNat = x →
          exec (.swr d n) s = .next (s.trapHere 0x0F 0)))
      ∧ (s.th.priv = false → s.th.kind = .group → (n.toNat = 0x0801 ∨ n.toNat = 0x3800) → exec (.swr d n) s = .next (s.trapHere 0x0F 0))
  )

/-- R27: a dump request of a slice begins a copy, keeping its address and CLR, and one that is malformed or whose buffer has no home
is refused with DONE and REF; the copy writes the slice's access counters to the buffer, clears them where CLR is set, and sets
DONE.

R36, R37, R382, R437: a class 6 write by a permitted master sets an access-table entry's permissions, boundary bits and mode, and
sets the stop bits of resident groups; a group whose stop is requested takes cause 0x13 at its next word and its request is
served. -/
def Obligations.DeviceRegisters : Prop :=
  (
    (∀ (s : State) (slice : Nat) (v : BitVec 64), slice ≤ 192 → s.th.priv = true → (s.mem.pcDump.getD slice 0).getLsbD 63 = false →
      let good := v.toNat / 2 ^ 62 = 0 ∧ v.toNat / 8 % 512 = 0 ∧ ∀ pa ∈ dumpPages slice v, (s.home pa).isSome = true
      let put (w : Word) : State := { s with mem := { s.mem with pcDump := s.mem.pcDump.put slice w } }
      (good → exec (.slcPcdump slice v) s = .next (put ((v &&& 0x3FFFFFFFFFFFF002) ||| 0x8000000000000000)))
      ∧ (¬good → exec (.slcPcdump slice v) s = .next (put ((v &&& 0x3FFFFFFFFFFFF002) ||| 5))))
    ∧ (∀ (s : State) (slice : Nat),
      let w := s.mem.pcDump.getD slice 0
      let pages := dumpPages slice w
      let l := s.mem.counts.getD slice []
      let n := if slice = 192 then 65536 else 16384
      let bytes := l.flatMap PageCount.bytes
      let kept : State := if w.getLsbD 1 then { s with mem := { s.mem with counts := s.mem.counts.del slice } } else s
      let put (s : State) (x : Word) : State := { s with mem := { s.mem with pcDump := s.mem.pcDump.put slice x } }
      w.getLsbD 63 = true →
      ((∀ pa ∈ pages, ∃ a, s.vet 645 .write pa = .ok a ∧ s.pokeReady a 4096 = true) →
        exec (.pcdumpCopyDone slice) s = .next (put (kept.dumpWrite pages (bytes ++ List.replicate (n - bytes.length) 0))
          ((w &&& 0x7FFFFFFFFFFFFFFF) ||| 1)))
      ∧ ((∃ pa ∈ pages, ∃ r, s.vet 645 .write pa = .error r) →
          (∀ pa ∈ pages, ∀ a, s.vet 645 .write pa = .ok a → s.pokeReady a 4096 = true) →
        exec (.pcdumpCopyDone slice) s = .next (put s ((w &&& 0x7FFFFFFFFFFFFFFF) ||| 5))))
  ) ∧ (
    ∀ (s : State) (pa : BitVec 64) (mid : Nat), pa.toNat / 2 ^ 46 % 8 = 6 →
      (∀ (v : BitVec 32) (table index : Nat), s.mmioAdmit mid .write pa 4 = .ok (.entry table index) →
        exec (.accessTableWrite mid pa v) s = .next { s with mem := { s.mem with
          acl := s.mem.acl.putD 0 (4096 * table + index) (v.toNat &&& 0xFFFC003F) } })
      ∧ (∀ (v : BitVec 64) (c : Nat), s.mmioAdmit mid .write pa 8 = .ok (.stop c) →
        exec (.dbgStop mid pa v) s = .next (s.mapCore c (fun x => { x with
          dbgStop := x.dbgStop ||| (v.toNat % 2 ^ 32 &&& s.residentSlots c) })))
      ∧ (∀ k, k < 6144 → let t := s.thread k
          let m := 2 ^ t.ident.slot
          (s.core t.ident.core).dbgStop.testBit t.ident.slot = true → t.status = .running → t.wait = .none →
          exec (.debugTrap k) s = .next ((s.mapCore t.ident.core (fun x => { x with dbgStop := x.dbgStop &&& (2 ^ 32 - 1 - m) })).trap k
            ⟨0x13, 0, 0, t.active, 0, false, t.here⟩))
  )

/-- R43, R272, Table 2.4: the checks of an access in their order: canonical address, alignment, translation off in user mode, a
sparse range, and then the leaf's privilege, R, W, X, A and D; translation off in privileged mode gives the address itself.

R39 to R42, R47: a walk reads, at each level, the entry that nine bits of the address choose, eight at the root: an invalid entry
is cause 0x07 reason 1, a malformed one reason 3, a leaf ends it, a pointer goes one level down, a denied read is cause 0x09 and
a poisoned entry cause 0x10; WALK_COMPLETE gives what it finds to the structures of every waiting thread, or its fault to each.

Reason 1 for an atomic whose leaf has neither Rd nor W, and the place of cause 0x07 reason 6 among the checks, are the model's choices
(log entries 29 and 30). -/
def Obligations.Translation : Prop :=
  (
    (∀ (s : State) (x : Space) (k : ReqKind) (va : Word) (n : Nat),
      let a := va.toNat
      let off := x.root.getLsbD 0 = false
      (off → x.priv = true → s.look x k va n = if a % n = 0 then .ok va none else .fail 0x06 0 none)
      ∧ (¬(off ∧ x.priv = true) →
        (2 ^ 56 ≤ a → s.look x k va n = .fail 0x07 2 none)
        ∧ (a < 2 ^ 56 →
          (a % n ≠ 0 → s.look x k va n = .fail 0x06 0 none)
          ∧ (a % n = 0 → off → s.look x k va n = .fail 0x07 6 none)
          ∧ (a % n = 0 → ¬off →
            ((∃ p ∈ s.svc.regions, p.2.asid = x.asid ∧ p.2.base ≤ a ∧ a < p.2.base + p.2.len) → s.look x k va n = .fail 0x08 5 none)
            ∧ ((∀ p ∈ s.svc.regions, ¬(p.2.asid = x.asid ∧ p.2.base ≤ a ∧ a < p.2.base + p.2.len)) →
              (s.findTlb x.asid a [] x.chain = none → s.look x k va n = .miss)
              ∧ (∀ e up, s.findTlb x.asid a [] x.chain = some (e, up) →
                (leafFault e.leaf x.priv k = none → s.look x k va n =
                  .ok (BitVec.ofNat 64 (e.leaf.toNat / 2 ^ 12 % 2 ^ 50 * 2 ^ 12 + a % 2 ^ (12 + 9 * e.level))) (some (e, up)))
                ∧ (∀ c r, leafFault e.leaf x.priv k = some (c, r) → s.look x k va n = .fail c r (some e))))))))
    ∧ (∀ (w : Word) (priv : Bool) (k : ReqKind),
      let writes := k = .write ∨ k = .atomic
      let has (i : Nat) : Prop := w.getLsbD i = true
      (priv = false → ¬has 5 → leafFault w priv k = some (0x08, 4))
      ∧ (priv = true ∨ has 5 →
        ((k = .read ∨ k = .atomic) → ¬has 2 → leafFault w priv k = some (0x08, 1))
        ∧ (writes → (k = .atomic → has 2) → ¬has 3 → leafFault w priv k = some (0x08, 2))
        ∧ (k = .fetch → ¬has 4 → leafFault w priv k = some (0x08, 3))
        ∧ ((k = .read → has 2) → (k = .atomic → has 2) → (writes → has 3) → (k = .fetch → has 4) →
          (¬has 6 → leafFault w priv k = some (0x07, 4)) ∧ (has 6 → writes → ¬has 7 → leafFault w priv k = some (0x07, 5))
          ∧ (has 6 → (writes → has 7) → leafFault w priv k = none))))
  ) ∧ (
    (∀ (s : State) (walker asid va l : Nat) (table : Word) (ps : List TlbEntry) (rs : List Word), l < 5 →
      let at_ : Word := BitVec.ofNat 64 (table.toNat / 2 ^ 12 % 2 ^ 50 * 2 ^ 12 + 8 * (va / 2 ^ (12 + 9 * l) % (if l = 4 then 256 else 512)))
      let malformed (w : Word) : Prop := w.toNat / 2 ^ 62 ≠ 0 ∨ (w.getLsbD 1 = true ∧ (l = 4 ∨ w.toNat / 2 ^ 12 % 2 ^ (9 * l) ≠ 0))
        ∨ (w.getLsbD 1 = false ∧ l = 0)
      (∀ e, s.readEntry walker at_ = .error e → s.walkFrom walker asid va (l + 1) table ps rs = .error e)
      ∧ (∀ w, s.readEntry walker at_ = .ok w →
        let e : TlbEntry := ⟨asid, l, va / 2 ^ (12 + 9 * l) * 2 ^ (12 + 9 * l), w, false, 0⟩
        (w.getLsbD 0 = false → s.walkFrom walker asid va (l + 1) table ps rs = .error (0x07, 1))
        ∧ (w.getLsbD 0 = true → malformed w → s.walkFrom walker asid va (l + 1) table ps rs = .error (0x07, 3))
        ∧ (w.getLsbD 0 = true → ¬malformed w → w.getLsbD 1 = true →
            s.walkFrom walker asid va (l + 1) table ps rs = .ok ⟨e, ps, rs ++ [at_]⟩)
        ∧ (w.getLsbD 0 = true → ¬malformed w → w.getLsbD 1 = false →
            s.walkFrom walker asid va (l + 1) table ps rs = s.walkFrom walker asid va l w (ps ++ [e]) (rs ++ [at_]))))
    ∧ (∀ (s : State) (walker : Nat) (pa : Word),
      (pa.toNat / 2 ^ 46 % 8 = 6 →
        (∀ r, s.mmioAdmit walker .read pa 8 = .error r → s.readEntry walker pa = .error (0x09, r))
        ∧ ∀ m, s.mmioAdmit walker .read pa 8 = .ok m → s.readEntry walker pa = .ok (BitVec.ofNat 64 (s.mregRead m)))
      ∧ (pa.toNat / 2 ^ 46 % 8 ≠ 6 →
        (∀ r, s.vet walker .read pa = .error r → s.readEntry walker pa = .error (0x09, r))
        ∧ (∀ a, s.vet walker .read pa = .ok a → s.peekPoison a 8 = true → s.readEntry walker pa = .error (0x10, 1))
        ∧ ∀ a, s.vet walker .read pa = .ok a → s.peekPoison a 8 = false →
          s.readEntry walker pa = .ok (BitVec.ofNat 64 (ofBytes (s.peek a (keyOf pa) 8)))))
    ∧ (∀ (s : State) (i : Nat) (w : Walk), s.xlt.walks[i]? = some w → s.walkReady w.place w.mid w.asid w.root (4096 * w.vpage) = true →
      ((s.xlt.walks.take i).filter (fun v => v.place == w.place)).length < (if w.place = 4 then 16 else 64) →
      let gone (s : State) : State := { s with xlt := { s.xlt with walks := dropNth s.xlt.walks i } }
      (∀ f s₁, s.walk w.place w.mid w.asid w.root (4096 * w.vpage) = .ok f → s.walkVisits w.mid f.reads = .go s₁ →
        exec (.walkComplete i) s = .next ((((gone s₁).countReads w.mid f.reads).cachePointers w.place f.pointers).touch f.leaf
          (w.waiters.flatMap (fun k => (s₁.thread k).space.chain))))
      ∧ (∀ c r, s.walk w.place w.mid w.asid w.root (4096 * w.vpage) = .error (c, r) →
        exec (.walkComplete i) s = .next { gone s with xlt := { (gone s).xlt with
          faults := s.xlt.faults ++ w.waiters.map (fun k => WalkFault.mk k w.asid w.vpage c r) } }))
  )

/-- R53, R54, Tables 2.9 and 2.10: TINVA is a release at package scope that answers 2 for a malformed descriptor, 1 where sixteen
invalidations are outstanding, and else 0 with its number; TINVC answers 2 for a number never given, 0 while that invalidation or
an earlier one is outstanding, and 1 as an acquire once none is; an invalidation completes once no access through a matched entry
is outstanding, and its draining entries are dropped then.

That a malformed descriptor is answered 2 while sixteen are outstanding is the model's choice (log entry 37). -/
def Obligations.Invalidations : Prop :=
  (∀ (s s' : State) (d a b : BitVec 7) (x y : Bool), Ready s .every [s.th.abs a, s.th.abs b] [s.th.abs d] [] → s.th.priv = true → Outside s →
    let u := s.th.valS a
    let v := s.th.valS b
    let bad := u.toNat / 2 ^ 56 % 64 ≠ 0 ∨ u.toNat % 4096 ≠ 0 ∨ v.toNat / 2 ^ 32 % 2 ^ 16 ≠ 0
      ∨ ((u.toNat / 2 ^ 62 = 1 ∨ u.toNat / 2 ^ 62 = 2) ∧ v.toNat % 2 ^ 32 = 0)
    s.release 2 = (s', some 0) →
    let out (s : State) (w : Word) : State := passedOut (s.setS d w)
    (bad → exec (.tinva d a b x y) s = .next (out s' (BitVec.ofNat 64 (2 * 2 ^ 60))))
    ∧ (¬bad → 16 ≤ s'.xlt.invals.length → exec (.tinva d a b x y) s = .next (out s' (BitVec.ofNat 64 (2 ^ 60))))
    ∧ (¬bad → s'.xlt.invals.length < 16 →
        let t := s'.invalidate (InvDesc.ofWords u v)
        exec (.tinva d a b x y) s = .next (out t (BitVec.ofNat 64 t.xlt.invalNum))))
  ∧ (∀ (s : State) (d a : BitVec 7) (x : Bool), Ready s .every [s.th.abs a] [s.th.abs d] [] → s.th.priv = true →
    let n := (s.th.valS a).toNat
    let latest := s.xlt.invalNum
    (n = 0 ∨ 2 ^ 32 ≤ n ∨ latest = 0 → exec (.tinvc d a x) s = .next (gives s d 2))
    ∧ (0 < n → n ≤ latest → latest < 2 ^ 31 → (∀ i ∈ s.xlt.invals, i.num ≤ latest) →
      ((∃ i ∈ s.xlt.invals, i.num ≤ n) → exec (.tinvc d a x) s = .next (gives s d 0))
      ∧ ((∀ i ∈ s.xlt.invals, n < i.num) → s.acquireReady s.work.cur 2 = true →
          exec (.tinvc d a x) s = .next (passed ((s.setS d 1).acquireNow s.work.cur 2)))))
  ∧ (∀ (s : State) (n : Nat) (v : Inval), s.xlt.invals.find? (fun v => v.num == n) = some v →
    (s.draining n = true → exec (.invalidationComplete n) s = .next s)
    ∧ (∀ s', s.draining n = false → (if v.mark.isSome then some s else s.flushCores v.cores) = some s' →
      (∀ c ∈ v.cores, s'.mwbOut c 2 none (some (v.mark.getD s'.mem.mwbNext)) = false) →
      exec (.invalidationComplete n) s = .next { s' with xlt := { s'.xlt with
        tlbs := s'.xlt.tlbs.map (fun p => (p.1, p.2.filter (fun e => !(e.draining && e.inval == n)))),
        invals := s'.xlt.invals.filter (fun v => v.num != n) } }))
  ∧ (∀ (e : TlbEntry) (asid va : Nat), e.draining = true → e.covers asid va = false)

/-- R329, Table 14.8: CTXSAVE stores the context of its thread in seventeen parts of 64 bytes, a release at package scope, and writes
0 to its destination; CTXLOAD refuses a context whose RESUME is misaligned or whose reserved bits are set with a result of 1, and
else loads every field, an acquire at package scope, and goes to RESUME; a misaligned area raises cause 0x06 and poison in it
cause 0x10.

Table 14.8: what stands where in a context area. The area is the 128 scalars, with 1 in the slot of CTXSAVE's destination, then
RESUME (the header after the clause), GRP.RM, XLT.ROOT, XLT.ASID, the six wait counters in ten bits each, and the mode; loading
one gives every scalar, the address space, the counters and the mode from there. -/
def Obligations.ContextMoves : Prop :=
  (
    ∀ (s : State) (d a : BitVec 7) (x : Bool), s.th.kind = .distaff → s.th.priv = true → Outside s →
      Ready s .every [s.th.abs a] (s.th.abs d :: List.range 128) [] →
      let k := s.work.cur
      let va := s.th.valS a
      (va.toNat % 64 ≠ 0 → exec (.ctxsave d a x) s = .next (s.trapHere 0x06 0 va) ∧ exec (.ctxload d a x) s = .next (s.trapHere 0x06 0 va))
      ∧ (va.toNat % 64 = 0 → s.unperformed k = false → s.coreOut k = false →
          let rs := s.resolveAll k (contextReqs va (.store 0 0))
          (∀ r ∈ rs, r.waits = false ∧ r.isGood = true ∧ s.laneHeld r = false) → (∀ p ∈ places rs, s.pokeReady p.1 64 = true) →
          exec (.ctxsave d a x) s = .next (passed (((s.settleLooks k rs).storeParts s.th.mid (places rs) (s.th.context (s.th.abs d))).setS d 0)))
      ∧ (va.toNat % 64 = 0 → s.th.acqPending = false → s.unperformed k = false →
          let rs := s.resolveAll k (contextReqs va .load)
          let ps := places rs
          let bs := ps.flatMap (fun p => s.peek p.1 p.2 64)
          let s' := ps.foldl (fun (t : State) p => t.readAt p.1 p.2 64 s.th.mid) (s.settleLooks k rs)
          let bad := field bs 1024 8 % 4 ≠ 0 ∨ 2 ^ 60 ≤ field bs 1056 8 ∨ 1 < field bs 1064 1 ∨ ∃ b ∈ bs.drop 1065, b ≠ 0
          (∀ r ∈ rs, r.waits = false ∧ r.isGood = true ∧ s.laneHeld r = false) →
          (∀ p ∈ ps, s.lineBusy ((s.steer p.1 p.2).1 / 128) = false) →
          ((∃ p ∈ ps, s.peekPoison p.1 64 = true) → exec (.ctxload d a x) s = .next (s.trapHere 0x10 1))
          ∧ ((∀ p ∈ ps, s.peekPoison p.1 64 = false) →
            (bad → exec (.ctxload d a x) s = .next (passed (s'.setS d 1)))
            ∧ (¬bad → exec (.ctxload d a x) s = .next (jumped ((s'.mapTh (fun t => t.loadContext bs)).acquireNow k 2)
                (BitVec.ofNat 64 (field bs 1024 8))))))
  ) ∧ (
    ∀ (t : Thread) (i : Nat) (bs : List Nat),
      ((t.context i).map (fun b => b.1)) = (List.range 128).flatMap (fun r => toBytes (if r = i then 1 else (t.regs.s r).toNat) 8)
        ++ (toBytes t.nextHdr.toNat 8 ++ toBytes t.rm 8 ++ toBytes t.xltRoot.toNat 8 ++ toBytes t.xltAsid.toNat 8
          ++ toBytes ((List.range 6).foldl (fun n j => n + t.wc.getD j 0 % 1024 * 1024 ^ j) 0) 8 ++ [bit t.priv] ++ List.replicate 23 0)
      ∧ (∀ r, r < 128 → (t.loadContext bs).regs.s r = BitVec.ofNat 64 (field bs (8 * r) 8))
      ∧ (t.loadContext bs).rm = (if field bs 1032 8 % 8 ≤ 4 then field bs 1032 8 % 8 else t.rm)
      ∧ (t.loadContext bs).xltRoot = BitVec.ofNat 64 (field bs 1040 8) &&& 0x3FFFFFFFFFFFF001
      ∧ (t.loadContext bs).xltAsid = BitVec.ofNat 64 (field bs 1048 8 % 2 ^ 16)
      ∧ (∀ j, j < 6 → (t.loadContext bs).wc.find j = some (field bs 1056 8 / 1024 ^ j % 1024))
      ∧ (t.loadContext bs).priv = (field bs 1064 1 % 2 == 1)
  )

/-- R330, R331, Table 14.9: IDLE stops a distaff thread while no interrupt bit is set and passes where one is, and on a SIMT core
offers the group for exchange; KEYSEL answers 1 for a key that is not its partition's, 2 for a reserved operation, 3 where the
root-of-trust processor is busy, and 0 once no cached line is held under the key and the slot has its new key, or is retired.

R332, R410: RTCALL is a release at package scope whose page has to be aligned; it lands with status 1 where the root-of-trust
processor is busy, and else waits for it. The processor reads the request page as master 647, answers status 3 where it is denied
the page, 2 for a service it has not, 4 for a wrong length or operand or a poisoned request, and 0 with its response in the page:
the log, a quote, or as many random bytes as were asked for. A request over SPDM is recorded and nothing else changes.

The lengths of the root-of-trust services and the words of a quote are the model's choices (log entries 15 and 18). -/
def Obligations.IdleKeysAndTrust : Prop :=
  (
    ∀ (s : State) (a : BitVec 7) (x : Bool), s.th.priv = true → Outside s → Ready s .every [s.th.abs a] [] [] →
      let key := (s.th.valS a).toNat % 1024
      let op := (s.th.valS a).toNat / 2 ^ 62
      let answers (s : State) (st : Nat) : State := passedOut (s.mapTh (fun t => { t with
        res := { t.res with keyStat := BitVec.ofNat 64 (st * 2 ^ 60 + key) } }))
      let owns := ∃ p, s.partOfThread s.th = some p ∧ s.ownsKey p key = true
      (s.th.kind = .distaff → s.th.trap.irq = 0 → exec .idle s = .next (s.mapTh (fun t => { t with status := .idle })))
      ∧ (s.th.kind = .distaff → s.th.trap.irq ≠ 0 → exec .idle s = .next (passed s))
      ∧ (s.th.kind = .group → exec .idle s = exec .yield s)
      ∧ (¬owns → exec (.keysel a x) s = .next (answers s 1))
      ∧ (owns → 2 ≤ op → exec (.keysel a x) s = .next (answers s 2))
      ∧ (owns → op < 2 → s.rotBusy = true → exec (.keysel a x) s = .next (answers s 3))
      ∧ (owns → op < 2 → s.rotBusy = false → s.keyInFlight key = false → ∀ s', s.wipeLines (fun _ l => l.key == key) = some s' →
          let gen := s'.keySlot key / 2
          exec (.keysel a x) s = .next (answers { s'.wipeHomes key with mem := { (s'.wipeHomes key).mem with
            keys := s'.mem.keys.putD 0 key (if op = 1 then 2 * gen + 1 else 2 * gen + 2) } } 0))
      ∧ (∀ dc n, (s.thread (distaffKey dc 0)).status = .idle → ((s.interruptCore dc n).thread (distaffKey dc 0)).status = .running)
  ) ∧ (
    (∀ (s s' : State) (d a : BitVec 7) (x : Bool), s.th.priv = true → Outside s → Ready s .every [s.th.abs a] [s.th.abs d] [] →
      let va := s.th.valS a
      (va.toNat % 4096 ≠ 0 → exec (.rtcall d a x) s = .next (s.trapHere 0x06 0 va))
      ∧ (va.toNat % 4096 = 0 → s.th.acqPending = false → s.release 2 = (s', some 0) →
          ∀ pa via, s'.look s.th.space .atomic va 1 = .ok pa via →
          ∃ p : Producer, p.sdests = [s.th.abs d] ∧ p.order = ⟨true, false, 2⟩
            ∧ (if s'.rotBusy then p.vals = [(.s (s.th.abs d), BitVec.ofNat 64 (2 ^ 60))] ∧ p.await = .none
                else p.await = .rot pa (via.map (fun e => e.1)))
            ∧ exec (.rtcall d a x) s = .next (passedOut (((Look.ok pa via).settle s.th.space s').mapTh (fun t => t.produce p)))))
    ∧ (∀ (s : State) (k id : Nat) (page : Word) (a : Nat), (s.thread k).rotPage id = some page →
      let services : List (Nat × Instr) := [(1, .rtMeasurementLog k id), (2, .rtQuote k id), (3, .rtRandom k id)]
      let lands (s : State) (st : Nat) : State := s.mapThread k (fun t => t.mapProducer id (fun p => { p with
        await := .none, vals := p.sdests.map (fun r => (.s r, BitVec.ofNat 64 (st * 2 ^ 60))) }))
      let rd := s.readAt a (keyOf page) 64 647
      let serves (bs : List Nat) : State := lands (rd.poke (a + 2048) (keyOf page) bs 647).tick 0
      ((∃ r, s.vet 647 .read page = .error r ∨ s.vet 647 .write page = .error r) →
          ∀ i ∈ services, exec i.2 s = .next (lands s 3))
      ∧ (s.vet 647 .read page = .ok a → (∃ b, s.vet 647 .write page = .ok b) → s.pokeReady a 4096 = true → s.windowHeld page = false →
        (s.peekPoison a 64 = true → ∀ i ∈ services, exec i.2 s = .next (lands rd 4))
        ∧ (s.peekPoison a 64 = false →
          let req := s.peek a (keyOf page) 64
          let want := field req 0 2
          let len := field req 4 2
          let n := field req 8 8
          (want = 0 ∨ 3 < want → ∀ i ∈ services, exec i.2 s = .next (lands rd 2))
          ∧ (want = 1 → len = 0 → exec (.rtMeasurementLog k id) s = .next (serves
              ((toBytes s.svc.measure.length 8 ++ s.svc.measure.flatMap (fun d => d)).take 2048)))
          ∧ (want = 2 → len = 32 → exec (.rtQuote k id) s = .next (serves ((List.range 2048).map (fun i => (Config.rotByte s.free i).toNat))))
          ∧ (want = 3 → len = 8 → 0 < n → n ≤ 1024 →
              exec (.rtRandom k id) s = .next (serves ((List.range n).map (fun i => (Config.rotByte s.free i).toNat))))
          ∧ (want = 3 → len = 8 → (n = 0 ∨ 1024 < n) → exec (.rtRandom k id) s = .next (lands rd 4))
          ∧ (want = 2 → len ≠ 32 → exec (.rtQuote k id) s = .next (lands rd 4)))))
    ∧ (∀ (s : State) (q : List Nat), ∃ t, exec (.spdmRequest q) s = .next t ∧ t.work = s.work ∧ t.mem = s.mem ∧ t.xlt = s.xlt ∧ t.pkg = s.pkg
        ∧ t.svc = { s.svc with spdm := s.svc.spdm ++ [q] })
  )

/-- R105 to R109, R112: the copy and the multicast that head their channel. A copy between scratchpad ranges begins at once and
fetches its bytes as one unit; a load reads its tensor record, which with its tile indices and ranges is checked, begins with
CSEQ and its lowest destination in the write pointer, and fetches tile after tile, each row padded with zeros, for the
scratchpads that receive it, once the tile's pages are translated; a fault held for a page of the tile that does not park ends it; a
malformed command moves nothing and brings cause 0x11 to the group that pushed it; a refused record ends it with status 1 and a
poisoned one with status 3.

R116, R120, R121: a gather that heads its collector begins with as many units as it has rows, and reads a row: the index of its
list, of 4 or 8 bytes, gives the row's address, and a row at or above its limit is delivered as zeros with status 6.

R77, R78, R114: a densify command that heads its channel begins with as many units as its box has rows, and a row gathers the
values of its generation and sends them to memory; one whose region has gone is malformed, and a broken region ends it with
status 3. -/
def Obligations.CopyEngines : Prop :=
  (
    ∀ (s s' : State) (id : Nat) (c : Cmd), s.cmd? id = some c → c.q < 4 → s.heads c = true →
      ∀ p ∈ [(0x10, Instr.copy id), (0x11, .multicastCopy id)], c.code = p.1 →
      let mid := s.engineMid c
      (c.st = .queued → c.dir = 2 → exec p.2 s = .next ((s.putCmd { c with started := true, st := .running, recs := [], total := 1 }).startWp
        { c with started := true, st := .running, recs := [] } (c.w 2).toNat))
      ∧ (∀ bs, c.st = .queued → c.dir = 0 → s.engRead c.space mid (c.w 1).toNat 64 = .ok s' bs →
        let b : Cmd := { c with started := true, st := .running, recs := wordsOf (plainBytes bs) 8 }
        (refused bs = true → exec p.2 s = .next (s'.putCmd (b.stop 1)))
        ∧ (refused bs = false → poisonedIn bs = true → exec p.2 s = .next (s'.putCmd (b.stop 3)))
        ∧ (refused bs = false → poisonedIn bs = false →
          let bad := b.reachedBad (s'.team c.team).alloc
          (bad = false → exec p.2 s = .next ((s'.putCmd { b with total := c.nt }).startWp b (c.w 2).toNat))
          ∧ (bad = true → ∀ k, s'.pusher c = some k → exec p.2 s = .next ((s'.defer k ⟨0x11, 0, 0, (s'.thread k).active, 0, false, none, none⟩).putCmd
              { b with status := 5, st := .finishing, ended := true }))))
      ∧ (c.fetches = true → c.dir = 2 → exec p.2 s = .next (s.addUnit { c with ahead := [] } (scratchSectors [c.team] c.dswz (c.w 2).toNat
          ((s.team c.team).sread c.sswz (c.w 1).toNat (c.w 6).toNat)) [] 0 32))
      ∧ (∀ rows, c.fetches = true → c.dir = 0 →
          let b := c.refresh.prune
          ((c.unitPages c.prog).all (fun p => (c.refresh.held p.2 p.1).isSome)) = true → c.refresh.heldFault = none →
          (s.putCmd c.refresh).readTile b mid c.rec1 (c.tile c.rec1) c.rec1.rb = .ok s' rows → rows.any refused = false →
          let base := (c.w 2).toNat + c.prog * c.rec1.tb
          exec p.2 s = .next (s'.addUnit b ((rows.zip (List.range rows.length)).flatMap (fun r =>
            scratchSectors (s'.receivers b) c.dswz (base + r.2 * c.rec1.rb) r.1)) [] (base + c.rec1.tb) (if c.dswz = 0 then 32 else 128)))
      ∧ (∀ va write cause reason, c.fetches = true → c.dir = 0 →
          ((c.unitPages c.prog).all (fun p => (c.refresh.held p.2 p.1).isSome)) = true →
          c.refresh.heldFault = some (va, write, cause, reason) → parks cause reason = false →
            exec p.2 s = .next (s.putCmd ({ c with ahead := [] }.stop (failStatus cause reason))))
  ) ∧ (
    ∀ (s s₁ s₂ : State) (id : Nat) (c : Cmd) (ix bs : List (Option (Nat × Bool))), s.cmd? id = some c → c.q = 4 → c.code = 0x20 →
      s.heads c = true →
      let rb := (c.w 2).toNat / 2 ^ 48
      let dst := (c.w 5).toNat + c.prog * rb
      let m := (c.w 0).toNat / 2 ^ 34 % 4
      let n := 4 * 2 ^ ((c.w 0).toNat / 2 ^ 37 % 4)
      let idx := ofBytes (plainBytes ix)
      let row := (c.w 1).toNat + idx * ((c.w 2).toNat % 2 ^ 48)
      let ahead := ((c.w 6).toNat ≠ 0 ∧ (c.w 6).toNat ≤ idx) ∨ 2 ^ 56 ≤ row
      let gives (s : State) (c : Cmd) (bs : List (Option (Nat × Bool))) : State :=
        s.addUnit c (scratchSectors [c.team] m dst bs) [] (dst + rb) (if m = 0 then 32 else 128)
      (c.st = .queued → exec (.gather id) s = .next (s.putCmd { c with started := true, st := .running, total := (c.w 4).toNat % 2 ^ 32 }))
      ∧ (c.fetches = true → s.gatherIndex c = .ok s₁ ix → refused ix = false →
        (poisonedIn ix = true → exec (.gather id) s = .next (s₁.putCmd (c.stop 3)))
        ∧ (poisonedIn ix = false → ahead → exec (.gather id) s = .next (gives s₁ (c.note 6) (List.replicate rb (some (0, false)))))
        ∧ (poisonedIn ix = false → ¬ahead → s₁.gatherRow c row rb = .ok s₂ bs → refused bs = false →
            exec (.gather id) s = .next (gives s₂ c bs)))
      ∧ ((c.w 0).getLsbD 36 = true → s.gatherIndex c = .ok s ((s.team c.team).sread 0 ((c.w 3).toNat + c.prog * n) n))
      ∧ ((c.w 0).getLsbD 36 = false → s.gatherIndex c = s.gatherRow c ((c.w 3).toNat + c.prog * n) n)
  ) ∧ (
    ∀ (s s' : State) (id : Nat) (c : Cmd), s.cmd? id = some c → c.q < 4 → c.code = 0x30 → s.heads c = true →
      (∀ i r, s.regionAt c.asid (c.w 1) = some (i, r) →
        let n := r.widths.length
        let ext := (densifyExt c.words).take n
        let org := unpackKey r.widths (c.w 2).toNat
        let row := rowCoords (ext.take (n - 1)) c.prog
        let keys := (List.range (nth ext (n - 1) 0)).map (fun j => packKey r.widths ((org.zip (row ++ [j])).map (fun p => p.1 + p.2)))
        (c.st = .queued →
          let b : Cmd := { c with started := true, st := .running, total := (ext.take (n - 1)).foldl (fun x y => x * y) 1 }
          exec (.densify id) s = .next ((s.putCmd b).startWp b (c.w 4).toNat))
        ∧ (c.fetches = true → r.broken = true → exec (.densify id) s = .next (s.putCmd (c.stop 3)))
        ∧ (∀ bs s₂ m, c.fetches = true → r.broken = false → s.boxValues (s.engineMid c) r ((c.w 7).toNat % 2 ^ 32) keys = .ok s' bs →
            s'.mapPages c.space [(c.boxRow n c.prog, bs.length)] = .ok s₂ m →
            exec (.densify id) s = .next (s₂.unitToMemory c [(c.boxRow n c.prog, bs)] m (c.boxRow n (c.prog + 1)) 32)))
      ∧ (s.regionAt c.asid (c.w 1) = none → c.st = .queued → ∀ k, s.pusher c = some k →
          exec (.densify id) s = .next ((s.defer k ⟨0x11, 0, 0, (s.thread k).active, 0, false, none, none⟩).putCmd
            { c with status := 5, st := .finishing, ended := true, started := true }))
  )

/-- R109, R110, R112: the lowest sector of a running command that no later unit shares is written whole, to its scratchpad or at its
home; the write pointer moves on; the last sector of a scratchpad is a multicast's arrival there; and with no sector and no unit
left the command ends.

R113, R301, R440: a QFENCE passes once the commands before it are done; a command that has done its work writes its status word,
if it has one, and sends its signal: a count in its group's wait counter, an arrival on a barrier, or an increment in memory;
then it is gone.

R101, R117 to R119: the open window closes after its time and its reads are issued; the read of a line gives its value to every request
merged into it, or fails every one where it has been lost, and a request that waits for a window tries again.

R376: at the end of an interval N falls by one where the scores' sum is above HI, but not below MIN + 1, rises by one where it is
below LO, up to 8, and is 8 while throttling is off; the N groups that come first, longest withheld, then lowest score, then
lowest slot, hold the permits, and the scores are cleared. -/
def Obligations.EngineDelivery : Prop :=
  (
    ∀ (s s' : State) (id : Nat) (c c' : Cmd) (x : Sector) (rest : List Sector), s.cmd? id = some c → c.sectors = x :: rest →
      c.st = .running → c.q ≤ 4 → (∀ h, c.hold = some h → x.addr < h) → s.writeSector c x = .ok s' c' →
      let b : Cmd := { c' with sectors := rest, via := if rest.isEmpty then [] else c'.via }
      let r := s'.reach b x.team
      let own := (r.1.receivers r.2).contains r.2.team
      exec (.sectorDelivery id) s = .next ((r.1.advanceWp r.2 own (x.addr + 32)).putCmd
        (if rest.isEmpty && c'.prog = c'.total then { r.2 with st := .finishing, ended := true } else r.2))
      ∧ (x.scratch = true → s' = s.mapTeam x.team (fun t => t.putSector x.addr x.bytes) ∧ c' = c)
      ∧ (x.scratch = false → ∀ a, s.vet (s.engineMid c) .write x.pa = .ok a →
          s' = s.pokeMasked a (keyOf x.pa) x.bytes (s.engineMid c) ∧ c' = c)
      ∧ (x.scratch = false → ∀ e, s.vet (s.engineMid c) .write x.pa = .error e → s' = s ∧ c' = c.note 1)
  ) ∧ (
    ∀ (s s₁ s₂ : State) (id : Nat) (c : Cmd), s.cmd? id = some c →
      let mid := s.engineMid c
      (c.code = 0x0F → c.st = .queued → s.fencePasses c = true →
        exec (.qfence id) s = .next (s.putCmd { c with st := .finishing, started := true, ended := true }))
      ∧ (c.code = 0x0F → s.fencePasses c = false → exec (.qfence id) s = .next s)
      ∧ (c.st = .finishing → c.sta = none → c.sigt < 4 → exec (.commandComplete id) s = .next ((s.signal c).retireCmd { c with statusDone := true }))
      ∧ (∀ va, c.st = .finishing → c.statusDone = false → c.sta = some va → c.sigt < 4 → c.q ≠ 9 →
          s.engWrite c.space mid va (c.out.flatMap (fun w => toBytes w.toNat 8)) = .ok s₁ () →
          exec (.commandComplete id) s = .next ((s₁.signal c).retireCmd { c with statusDone := true }))
      ∧ (c.st = .finishing → c.sta = none → c.sigt = 4 → c.signalDone = false → s.engIncrement c.space mid c.siga = .ok s₂ () →
          exec (.commandComplete id) s = .next (s₂.retireCmd { c with statusDone := true }))
      ∧ (∀ k, isGroupKey c.agent = false → c.sigt = 1 → s.pusher c = some k → (s.signal c).thread k = (s.thread k).countDown c.sigx c.signalScope)
      ∧ (s.work.teams.has c.team = true → c.sigt = 2 → s.signal c = s.arriveBar c.team c.sigx c.signalScope)
      ∧ (s.work.teams.has c.team = true → c.sigt = 3 → c.code ≠ 0x11 → s.signal c = s.arriveBar c.team (16 + c.sigx) c.signalScope)
      ∧ (∀ b, (s.retireCmd b).cmd? b.id = none)
  ) ∧ (
    ∀ (s : State) (core line : Nat),
      (exec (.rqcWindowTimeout core) s = .next (s.mapCore core (fun c => { c with
        windows := c.windows.map (fun w => { w with issued := true }), stale := [] })))
      ∧ (∀ w rest key, (s.core core).windows = w :: rest → w.issued = true → w.lines = [key] → key.1 = line →
          (∀ a ∈ w.reqs, a.pa / 128 = key.1 ∧ a.key = key.2) →
          let p := s.steer (128 * key.1) key.2
          s.readReady core (p.1 / 128) = true →
          let read := s.lineRead core (p.1 / 128) p.2 core ((w.reqs.head?.map (·.agent)).getD 0)
          let closed (s : State) : State := s.mapCore core (fun c => { c with windows := rest })
          (∀ s₁ data poison, read = .ok s₁ data poison → exec (.rqcLineReturn core line) s =
            .next ((w.reqs.foldl (fun (s : State) a => s.collected a data poison) (closed s₁)).pumpCollector core))
          ∧ (∀ s₁, read = .lost s₁ → exec (.rqcLineReturn core line) s =
            .next ((w.reqs.foldl (fun (s : State) a => s.collectLost a) (closed s₁)).pumpCollector core)))
  ) ∧ (
    ∀ (s : State) (core : Nat), core < 192 →
      let c := s.core core
      let slots := s.residents core
      let sum := (slots.map (fun l => c.scores.getD l 0)).foldl (fun x y => x + y) 0
      let v := c.throttle.toNat
      let now := v / 2 ^ 48 % 8 + 1
      let least := v / 2 ^ 45 % 8 + 1
      let n := if c.throttle.getLsbD 63 = false then 8 else if v / 2 ^ 16 % 2 ^ 16 < sum then max (now - 1) least
        else if sum < v % 2 ^ 16 then min (now + 1) 8 else now
      let order := slots.foldl (fun l a => c.insertPermit a l) []
      (∃ t, exec (.throttleInterval core) s = .next t ∧ t.mem = s.mem ∧ t.work.threads = s.work.threads
        ∧ (t.core core).throttle = setBits c.throttle 48 3 (n - 1) ∧ (t.core core).permits = (order.take n).foldl insertNat []
        ∧ (t.core core).scores = []
        ∧ (t.core core).withheld = ((order.drop n).foldl insertNat []).map (fun l => (l, c.withheld.getD l 0 + 1))
        ∧ ∀ k, k ≠ core → t.core k = s.core k)
      ∧ (∀ a b, c.permitFirst a b = true ↔ (c.withheld.getD b 0 < c.withheld.getD a 0 ∨ (c.withheld.getD a 0 = c.withheld.getD b 0
          ∧ (c.scores.getD a 0 < c.scores.getD b 0 ∨ (c.scores.getD a 0 = c.scores.getD b 0 ∧ a < b)))))
  )

/-- R125 to R127, Table 6.3: the commands of q5 in their issuer's order. PASS_OPEN takes the lowest free context under the next
serial and answers its handle, or status 1 with sixteen open; START lets the sweep begin; ABORT aborts the pass; and a handle
that names no open pass of the issuer's address space is answered with status 3.

R128, R129, R155: a SUBSCRIBE is answered with status 3 where its pass is not open or aborted, 6 where its list cannot be read, 5
where the list is not ascending below NPG, 4 where the query's shares disagree, 2 where the pass has no room for the list, and 1
where the merge buffer has no run of free slots; accepted, its share joins the pass at its free slots, it takes its stage ring,
and the token is the answer.

R130 to R132: the sweep fetches the lowest page that a live share needs next, at or past its position, once for every live share
whose next page it is; a share behind the sweep catches up alone; neither adds to a page store of eight pages; a page that an
earlier turn could not fetch is fetched first; and a share of an aborted pass receives zeros once its fetched pages are delivered.

R132, R133, R141: an image that no earlier one of its share precedes goes to the share's ring once its next slot is free and its
team is resident: the bytes, or zeros, stand in the slot, the slot is full and P moves on, one arrival is made on the share's
barrier, a page that could not be used raises status 2, and the image leaves the store with its last share. -/
def Obligations.PageMajorAttention : Prop :=
  (
    ∀ (s : State) (id : Nat) (c : Cmd), s.cmd? id = some c → s.q5Head c = true →
      let m := s.pme c.die
      let pix := m.passes.free 0 16
      let ser := (m.serials.getD pix 0 + 1) % 1024
      let ends (s : State) (w : Word) : State := s.putCmd { c with st := .finishing, started := true, ended := true, out := [w] }
      let h := (c.w 1).toNat % 2 ^ 16
      (c.code = 0x40 → 16 ≤ pix → exec (.passOpen id) s = .next (ends s (BitVec.ofNat 64 (2 ^ 60))))
      ∧ (c.code = 0x40 → pix < 16 →
          let p : Pass := ⟨ser, c.w 1, (c.w 2).toNat % 2 ^ 20, (c.w 0).getLsbD 38, 0, c.asid, c.root, c.priv, c.part, c.lnum, [], [], false⟩
          exec (.passOpen id) s = .next (ends (s.mapPme c.die (fun m => { m with
            passes := m.passes.put pix p, serials := m.serials.put pix ser })) (BitVec.ofNat 64 (c.die * 2 ^ 14 + ser % 1024 * 16 + pix))))
      ∧ (∀ die i p, s.ownPass c h = some (die, i, p) →
          (c.code = 0x42 → exec (.start id) s = .next (ends (s.mapPass die i (fun p => { p with held := false })) 0))
          ∧ (c.code = 0x43 → exec (.abort id) s = .next (ends (s.abortPass die i) 0)))
      ∧ (s.ownPass c h = none → (c.code = 0x42 → exec (.start id) s = .next (ends s (BitVec.ofNat 64 (3 * 2 ^ 60))))
          ∧ (c.code = 0x43 → exec (.abort id) s = .next (ends s (BitVec.ofNat 64 (3 * 2 ^ 60)))))
      ∧ (∀ die i p, s.passOf h = some (die, i, p) ↔ (s.pass? (h / 2 ^ 14 % 4) (h % 16) = some p ∧ p.ser = h / 16 % 1024
          ∧ die = h / 2 ^ 14 % 4 ∧ i = h % 16))
  ) ∧ (
    ∀ (s s' : State) (id : Nat) (c : Cmd), s.cmd? id = some c → s.q5Head c = true → c.code = 0x41 →
      let n := (c.w 3).toNat % 2 ^ 13
      let ended (w : Word) : Cmd := { c with st := .finishing, started := true, ended := true, out := [w] }
      let ends (s : State) (st : Nat) : State := s.putCmd (ended (BitVec.ofNat 64 (st * 2 ^ 60)))
      let h := (c.w 1).toNat / 2 ^ 48
      (s.ownPass c h = none → exec (.subscribe id) s = .next (ends s 3))
      ∧ (∀ die i p, s.ownPass c h = some (die, i, p) →
        (p.aborted = true → exec (.subscribe id) s = .next (ends s 3))
        ∧ (∀ bs, p.aborted = false → s.engRead c.space (s.engineMid c) (c.w 2).toNat (4 * n) = .ok s' bs →
          (refused bs = true ∨ poisonedIn bs = true → exec (.subscribe id) s = .next (ends s' 6))
          ∧ (refused bs = false → poisonedIn bs = false →
            let list := (List.range n).map (fun i => field (plainBytes bs) (4 * i) 4)
            let x := c.newShare list 0
            let lengths := (p.shares.map (fun y => y.list.length)).foldl (fun a b => a + b) 0
            let slot := freeRun (x.rows + 1) 0 ((s'.pme die).slots.map (fun z => z.1))
            let listBad := ascending list = false ∨ ∃ k ∈ list, p.npg ≤ k
            let agree := ∀ y ∈ p.query x.qh, y.2.agrees x = true
            (listBad → exec (.subscribe id) s = .next (ends s' 5))
            ∧ (¬listBad → ¬agree → exec (.subscribe id) s = .next (ends s' 4))
            ∧ (¬listBad → agree → 65536 < lengths + list.length → exec (.subscribe id) s = .next (ends s' 2))
            ∧ (¬listBad → agree → lengths + list.length ≤ 65536 → 15872 < slot + x.rows + 1 → exec (.subscribe id) s = .next (ends s' 1))
            ∧ (¬listBad → agree → lengths + list.length ≤ 65536 → slot + x.rows + 1 ≤ 15872 →
              ∃ u : State, exec (.subscribe id) s = .next (u.putCmd (ended (({ x with slot := slot } : Share).token (passHandle die p.ser i))))
                ∧ (u.team c.team).ring x.ring = c.newRing ∧ u.mem = s'.mem ∧ u.work.threads = s'.work.threads
                ∧ ∀ q, s'.pass? die i = some q → ∃ q', u.pass? die i = some q' ∧ q'.shares.length = q.shares.length + 1))))
  ) ∧ (
    ∀ (s : State) (die pix : Nat) (p : Pass), s.pass? die pix = some p →
      let store := (s.pme die).store
      let put (s : State) (page : Nat) (goal : List Nat) (zero : Bool) : State :=
        (s.mapPass die pix (fun p => goal.foldl (fun (p : Pass) i => p.mapShare i (fun x => { x with next := x.next + 1 })) p)).mapPme die
          (fun m => { m with store := m.store ++ [⟨pix, page, none, zero, false, none, goal, []⟩] })
      let stuck := ∃ g ∈ store, g.pass = pix ∧ g.data = none ∧ g.zero = false ∧ g.token = none
      ((∀ n, ¬stuck → p.aborted = false → p.held = false → store.length < 8 → p.sweepPage = some n →
          let goal := (List.range p.shares.length).filter (fun i => match p.share? i with
            | some x => x.st = .live && x.nextPage == some n
            | none => false)
          exec (.sweepFetch die pix) s = .next ((put (s.mapPass die pix (fun p => { p with pos := n + 1 })) n goal false).fillPage die store.length))
        ∧ (¬stuck → (p.aborted = true ∨ p.held = true ∨ 8 ≤ store.length ∨ p.sweepPage = none) → exec (.sweepFetch die pix) s = .next s)
        ∧ (∀ l g r, store = l ++ g :: r → g.pass = pix → g.data = none → g.zero = false → g.token = none →
            (∀ e ∈ l, ¬(e.pass = pix ∧ e.data = none ∧ e.zero = false ∧ e.token = none)) →
            exec (.sweepFetch die pix) s = .next (s.fillPage die l.length)))
      ∧ (∀ i x n, p.share? i = some x → x.nextPage = some n →
        (store.length < 8 → x.st = .catchup → n < p.pos → p.aborted = false →
          exec (.catchupFetch die pix i) s = .next (((put s n [i] false).fillPage die store.length).settleShare die pix i))
        ∧ (x.st = .aborted → s.ringRoom x.team x.ring = true → (∀ g ∈ store, ¬(g.pass = pix ∧ g.goal.contains i = true)) →
          exec (.catchupFetch die pix i) s = .next ((s.mapPass die pix (fun p => p.mapShare i (fun x => { x with next := x.next + 1 }))).putPage
            x.team x.ring x.bar (s.shareScope die x.team) (List.replicate (imageBytes x.dim x.b16) (0, false))))
        ∧ (8 ≤ store.length → x.st ≠ .aborted → exec (.catchupFetch die pix i) s = .next s))
      ∧ (∀ n, p.sweepPage = some n → p.pos ≤ n ∧ ∃ x ∈ p.shares, x.st = .live ∧ x.nextPage = some n)
  ) ∧ (
    ∀ (s : State) (die i k : Nat) (g : PageImg) (p : Pass) (x : Share) (bytes : List (Nat × Bool)),
      (s.pme die).store[i]? = some g → s.pass? die g.pass = some p → p.share? k = some x →
      let r := (s.team x.team).ring x.ring
      let lacks := g.misfit.contains k
      (if g.zero || lacks then bytes = List.replicate (imageBytes x.dim x.b16) (0, false) else g.data = some bytes) →
      (g.goal.contains k = false → exec (.deliver die i k) s = .next s)
      ∧ (r.full.has r.prod = true → exec (.deliver die i k) s = .next s)
      ∧ (g.goal.contains k = true → (∀ h ∈ (s.pme die).store.take i, ¬(h.pass = g.pass ∧ h.goal.contains k = true)) →
          (s.team x.team).resident = true → r.full.has r.prod = false →
        let scope := s.shareScope die x.team
        let s₁ := (s.mapTeam x.team (fun t => t.putImage r.swz (r.slotAt r.prod) bytes)).mapRing x.team x.ring (fun r =>
          { r with full := r.full.put r.prod scope, prod := (r.prod + 1) % r.slots })
        let s₂ := s₁.arriveBar x.team x.bar scope
        let s₃ := if g.unusable || lacks then (List.range (x.rows + 1)).foldl (fun (s : State) r => s.raiseQst die g.pass k x r 2) s₂ else s₂
        let goal := eraseNat g.goal k
        exec (.deliver die i k) s = .next ((s₃.mapPme die (fun m => { m with
          store := if goal.isEmpty then dropNth m.store i else setNth m.store i { g with goal := goal } })).settleShare die g.pass k))
  )

/-- R28 to R32, Table 1.7: a MIGRATION takes the lowest free context, or ends with status 1 where all four are taken, 2 where a page
has no home and 3 where one is denied; a line's tracked copies are recalled by its home; once it has none, the masked bytes of its untracked
copies are merged, its transactions abort, and it is read in transit; it is written at its new home, which advances the boundary; the last
line ends the command, with 4 where poison was met; and a release ends with 5 and frees the forwarding context of its page when it is over, or
ends with 6.

The order of the statuses 1, 2 and 3, and status 3 for every refusal, are the model's choices (log entry 39). -/
def Obligations.Migrations : Prop :=
  (∀ (s : State) (id : Nat) (c : Cmd), s.cmd? id = some c → c.q = 8 → c.st = .queued → s.firstOfIssuer c = true →
    let n := migrSize c.words
    let i := s.mem.migr.free 0 4
    let ends (st : Word) : State := s.putCmd { c with st := .finishing, started := true, ended := true, out := [st] }
    (c.code = 0x01 → 4 ≤ i → exec (.migration id) s = .next (ends 1))
    ∧ (c.code = 0x01 → i < 4 → (s.homedRange (c.w 1) n = false ∨ s.homedRange (c.w 2) n = false) → exec (.migration id) s = .next (ends 2))
    ∧ (∀ a b, c.code = 0x01 → i < 4 → s.home (c.w 1) = some a → s.home (c.w 2) = some b → s.homedRange (c.w 1) n = true →
        s.homedRange (c.w 2) n = true →
        let denied := s.migrDenied .read (c.w 1) n = true ∨ s.migrDenied .write (c.w 2) n = true
        (denied → exec (.migration id) s = .next (ends 3))
        ∧ (¬denied → exec (.migration id) s = .next ((s.putCmd { c with st := .running, started := true }).putMigr i
            ⟨a, b, keyOf (c.w 1), keyOf (c.w 2), n, a, false, true, false, id, 0, 0, false, none⟩)))
    ∧ (∀ l p r, c.code = 0x02 → s.mem.migr = l ++ p :: r → p.2.moving = false → p.2.ending = none → s.home (c.w 1) = some p.2.src →
        (∀ e ∈ l, ¬(e.2.moving = false ∧ e.2.ending = none ∧ s.home (c.w 1) = some e.2.src)) →
        exec (.migrationRelease id) s = .next ((ends 5).putMigr p.1 { p.2 with ending := some id })
        ∧ ∀ b : Cmd, b.id = id → ∀ e ∈ (s.retireCmd b).mem.migr, e.2.ending ≠ some id)
    ∧ (c.code = 0x02 → (∀ e ∈ s.mem.migr, ¬(e.2.moving = false ∧ e.2.ending = none ∧ s.home (c.w 1) = some e.2.src)) →
        exec (.migrationRelease id) s = .next (ends 6)))
  ∧ (∀ (s : State) (i : Nat) (m : Migr), s.mem.migr.find i = some m →
    let line := m.bound / 128
    let there := (m.dst + (m.bound - m.src)) / 128
    (m.moving = true → m.transit = false → m.recalled = false → s.lineMoves line = false → s.writeHeld line = false →
      exec (.migrationLine i) s = .next ((s.homeEvict line).putMigr i { m with recalled := true }))
    ∧ (m.moving = true → m.transit = false → m.recalled = true → (s.dirOf line).st = .I → line ∉ s.mem.locked → s.writeHeld line = false →
      let s' := (s.recallReaders line).hitSigs line
      let bad := m.poisoned || s'.homePoison line != 0
      exec (.migrationLine i) s = .next (s'.putMigr i { m with
        recalled := false, transit := true, line := s'.homeLine m.skey line, linePoison := s'.homePoison line, poisoned := bad }))
    ∧ (m.transit = true → s.lineBusy there = false → s.writeHeld there = false →
      let s' := ((s.settle there).hitSigs there).mergeLine m.dkey there m.line fullMask m.linePoison
      (m.bound + 128 < m.src + m.len →
        exec (.migrationLineLands i) s = .next (s'.putMigr i { m with transit := false, bound := m.bound + 128, moving := true }))
      ∧ (m.src + m.len ≤ m.bound + 128 →
        exec (.migrationLineLands i) s = .next ((s'.putMigr i { m with transit := false, bound := m.bound + 128, moving := false }).mapCmd
          m.cmd (fun c => { c with st := .finishing, started := true, ended := true, out := [if m.poisoned then 4 else 0] })))))

/-- R89, R90, R93, Table 4.5: what the home does with a request that it may serve. GetS, GetX, Upg and RdU on a line that nothing
holds are granted or answered, or fetch the line first; on a shared line GetX and Upg invalidate the other sharers first; on an
owned line the owner is told to forward it; a masked write-back or far atomic is applied once no copy is left; a Put from the
owner is merged, and any Put is acknowledged.

R89, R91, Table 4.6: what the home does with an answer. Memory's data makes the line resident, where its set has room, and the request goes on; the last
of the acknowledgements grants the line, or makes the requester its owner; a forwarded shared copy brings dirty data home; a copy
for an untracked read answers the reader; a recall's data is merged before it is counted; and a request in a transient state
waits.

Which access counters a message advances is the model's choice (log entry 28). -/
def Obligations.HomeCoherence : Prop :=
  (
    ∀ (s : State) (i : Nat) (m : Msg), s.mem.net[i]? = some m → s.serveable m = true →
      (s.steer (128 * m.line) m.key).1 / 128 = m.line → s.refuse i m = none → (m.tx = true → s.meetsWriter m.agent m.line = false) →
      (m.kind.isPut = false → (s.dirOf m.line).otherKey m.key = false) →
      let rd := (s.takeMsg i).count (128 * m.line) false m.mid
      let wr := (s.takeMsg i).count (128 * m.line) true m.mid
      let put := s.takeMsg i
      let owned (t : State) : Prop := (t.dirOf m.line).st = .EM ∨ (t.dirOf m.line).st = .O
      let sends (t : State) (k : MsgKind) (goal : List Nat) : State := goal.foldl (fun (s : State) c => s.post (Msg.plain k m.line 254 c m.mid m.key)) t
      let toMem (t : State) : State := (t.putDir m.line { t.dirOf m.line with st := .MD, req := some m }).post
        (Msg.plain .memData m.line 254 254 m.mid m.key)
      (m.kind = .getS → ∀ d, rd.dirOf m.line = d →
        (d.st = .I → d.resident = false → exec (.gets i) s = .next (toMem rd))
        ∧ (d.st = .I → d.resident = true → 64 ≤ m.src →
            exec (.gets i) s = .next ((rd.putDir m.line (d.ownedBy m.src)).post (rd.grantMsg m true true)))
        ∧ (d.st = .I → d.resident = true → m.src < 64 →
            exec (.gets i) s = .next ((rd.putDir m.line { d.addSharer m.src with st := .S }).post (rd.grantMsg m false true)))
        ∧ (d.st = .S → exec (.gets i) s = .next ((rd.putDir m.line (d.addSharer m.src)).post (rd.grantMsg m false true)))
        ∧ (owned rd → exec (.gets i) s = .next (sends (rd.putDir m.line
            { d with st := .FS, req := some m, formerO := d.st = .O }) .fwdS [d.owner])))
      ∧ (∀ p ∈ [(MsgKind.getX, Instr.getx i), (.upg, .upg i)], m.kind = p.1 →
        let t := if m.tx then wr else wr.hitSigs m.line
        ∀ d, t.dirOf m.line = d →
        let others := d.sharers.filter (fun c => c != m.src)
        (d.st = .I → d.resident = false → exec p.2 s = .next (toMem t))
        ∧ (d.st = .I → d.resident = true → exec p.2 s = .next ((t.putDir m.line (d.ownedBy m.src)).post (t.grantMsg m true true)))
        ∧ (d.st = .S → others = [] → exec p.2 s = .next ((t.putDir m.line (d.ownedBy m.src)).post
            (t.grantMsg m true !(m.kind = .upg && d.sharers.contains m.src))))
        ∧ (d.st = .S → others ≠ [] → exec p.2 s = .next (sends (t.putDir m.line
            { d with st := .SI, req := some m, acks := others.length }) .inv others))
        ∧ (owned t → exec p.2 s = .next (sends (sends (t.putDir m.line
            { d with st := .FX, req := some m, acks := others.length + 1 }) .fwdX [d.owner]) .inv others)))
      ∧ (m.kind = .rdU → ∀ d, rd.dirOf m.line = d →
        (owned rd → exec (.rdu i) s = .next (sends (rd.putDir m.line
            { d with st := .FD, req := some m, formerO := d.st = .O }) .fwdD [d.owner]))
        ∧ (d.st = .I → d.resident = false → exec (.rdu i) s = .next (toMem rd))
        ∧ ((d.st = .S ∨ (d.st = .I ∧ d.resident = true)) →
            exec (.rdu i) s = .next ((rd.putDir m.line (d.addCsv m.src)).answerRead m (rd.homeLine m.key m.line) (rd.homePoison m.line))))
      ∧ (∀ d, wr.dirOf m.line = d → d.st = .I →
          (m.kind = .mwb → exec (.mwb i) s = .next (wr.applyMwb m))
          ∧ (∀ a, m.kind = .fa → m.acc = some a → exec (.farAtomic i) s = .next (wr.performFar a)))
      ∧ (∀ d, wr.dirOf m.line = d → owned wr →
          ∀ p ∈ [(MsgKind.mwb, Instr.mwb i), (.fa, .farAtomic i)], m.kind = p.1 → exec p.2 s = .next (sends (sends (wr.putDir m.line
            { d with st := .RC, req := some m, acks := d.sharers.length + 1 }) .rcl [d.owner]) .inv d.sharers))
      ∧ (∀ d, wr.dirOf m.line = d → d.st = .S →
          ∀ p ∈ [(MsgKind.mwb, Instr.mwb i), (.fa, .farAtomic i)], m.kind = p.1 →
          let others := d.sharers.filter (fun c => !(m.kind = .mwb && c == m.src))
          let d' : Dir := { d with st := .RC, req := some m }
          (others = [] → exec p.2 s = .next (wr.finishRecall m.line d'))
          ∧ (others ≠ [] → exec p.2 s = .next (sends (wr.putDir m.line { d' with acks := others.length }) .inv others)))
      ∧ (∀ (t : State) (d : Dir), d.req = some m →
          let u := t.putDir m.line d.untracked
          let v := u.applyMwb m
          (∀ a, m.kind = .fa → m.acc = some a → t.finishRecall m.line d = u.performFar a)
          ∧ (m.kind = .mwb → (d.owner ≠ 255 ∨ d.sharers.contains m.src = false) → t.finishRecall m.line d = v)
          ∧ (m.kind = .mwb → d.owner = 255 → d.sharers.contains m.src = true →
              t.finishRecall m.line d = v.putDir m.line { (v.dirOf m.line).addSharer m.src with st := .S }))
      ∧ (∀ p ∈ [(MsgKind.putM, Instr.putm i, wr), (.putE, .pute i, put)], m.kind = p.1 → ∀ d, p.2.2.dirOf m.line = d →
          let t := p.2.2
          let t' := if m.hasData then t.mergeLine m.key m.line m.data fullMask m.poison else t
          let ack := Msg.plain .putAck m.line 254 m.src m.mid m.key
          let e := t'.dirOf m.line
          (d.owner ≠ m.src → exec p.2.1 s = .next (t.post ack))
          ∧ (d.owner = m.src → d.st = .O → exec p.2.1 s = .next ((t'.putDir m.line { e with st := .S, owner := 255 }).post ack))
          ∧ (d.owner = m.src → d.st ≠ .O → exec p.2.1 s = .next ((t'.putDir m.line e.untracked).post ack)))
  ) ∧ (
    ∀ (s : State) (i : Nat) (m : Msg) (d : Dir), s.mem.net[i]? = some m → m.place = .here → (s.takeMsg i).dirOf m.line = d →
      let t := s.takeMsg i
      (∀ r, m.kind = .memData → s.l2Room m.line = true → d.st = .MD → d.req = some r →
        let u := t.putDir m.line { d with st := .I, req := none, resident := true, key := r.key, dirty := [] }
        (r.kind = .getS → exec (.memoryData i) s = .next (u.homeGetS r))
        ∧ (r.kind = .rdU → exec (.memoryData i) s = .next (u.homeRdU r))
        ∧ (r.kind = .getX ∨ r.kind = .upg → exec (.memoryData i) s = .next (u.homeGetX r)))
      ∧ (∀ p ∈ [(MsgKind.invAck, Instr.invack i), (.done, .doneMsg i)], m.kind = p.1 →
        (1 < d.acks → exec p.2 s = .next (t.putDir m.line { d with acks := d.acks - 1 }))
        ∧ (∀ r, d.acks ≤ 1 → d.req = some r →
          let u := t.putDir m.line { d with acks := d.acks - 1 }
          (d.st = .FX → exec p.2 s = .next (u.putDir m.line (d.ownedBy r.src)))
          ∧ (d.st = .SI → exec p.2 s = .next ((u.putDir m.line (d.ownedBy r.src)).post
              (u.grantMsg r true !(r.kind = .upg && d.sharers.contains r.src))))
          ∧ (d.st = .RC → exec p.2 s = .next (u.finishRecall m.line { d with acks := d.acks - 1 }))))
      ∧ (∀ r, m.kind = .fwdAck → d.st = .FS → d.req = some r →
        let u := if m.hasData then t.mergeLine m.key m.line m.data fullMask m.poison else t
        (m.hasData = true → exec (.fwdack i) s = .next ((u.putDir m.line { (u.dirOf m.line).addSharer r.src with st := .O, req := none }).post
          (u.grantMsg r false true)))
        ∧ (m.hasData = false → ∃ e : Dir, e.st = .S ∧ e.owner = 255 ∧ e.req = none
          ∧ exec (.fwdack i) s = .next ((u.putDir m.line e).post (u.grantMsg r false true))))
      ∧ (∀ r, m.kind = .fdData → d.st = .FD → d.req = some r →
        let u := t.putDir m.line { d.addCsv r.src with st := if d.formerO then .O else .EM, req := none }
        exec (.fwdDataCopy i) s = .next (u.answerRead r (if r.key = m.key && m.hasData then m.data else u.homeLine r.key m.line) m.poison))
      ∧ (m.kind = .rcAck → exec (.recallAck i) s =
          .next ((if m.hasData then t.mergeLine m.key m.line m.data fullMask m.poison else t).ack m.line))
      ∧ (∀ k f, s.homeBusy m.line = true → s.serve i k f = s)
  )

/-- R92: what a requester does with the messages it receives. A grant fills its cache once that has a way for the line, performs what
waited and, where it came from an owner, is reported to the home; bytes from before an acquire are read again (R86); an invalidation, forward or recall waits for a grant in flight, and then drops, shares, sends
or writes back the copy; the acknowledgement of a Put frees its buffer.

R98, R99, R101: the oldest spilled request of a slice returns to its miss table as an entry frees; and a request that an error
has destroyed answers its access with cause 0x10 and reason 3. -/
def Obligations.RequesterCoherence : Prop :=
  (
    ∀ (s : State) (i : Nat) (m : Msg), s.mem.net[i]? = some m →
      let t := s.takeMsg i
      let done (u : State) : State := if m.src = 254 || m.isRdcRead then u else u.post (Msg.plain .done m.line m.dst 254 m.mid m.key)
      (∀ v : State, m.kind = .grant → m.place = .here → s.grantRoom m = some v → v.mem.net[i]? = some m →
        let t := v.takeMsg i
        let cache := m.cache
        (m.dst < 48 →
          (m.excl = true → exec (.grant i) s = .next (done ((t.fillX cache m.line m.key m.data m.poison (!m.hasData) m.modified).redo cache m.line)))
          ∧ (m.excl = false → t.spoilt cache m.line = false → m.acc = none →
            exec (.grant i) s = .next (done (((t.fillU cache m.line m.key m.data m.poison).noteReader cache m.line).redo cache m.line)))
          ∧ (m.excl = false → t.spoilt cache m.line = true → m.acc = none →
            exec (.grant i) s = .next (done ((t.takeSpoilt cache m.line).redo cache m.line)))
          ∧ (∀ a, m.excl = false → m.acc = some a → exec (.grant i) s = .next (done (t.performReads a m.data m.poison))))
        ∧ (52 ≤ m.dst →
          exec (.grant i) s = .next (done ((if m.excl then t.fillX cache m.line m.key m.data m.poison (!m.hasData) m.modified
            else t.fillS cache m.line m.key m.data m.poison).redo cache m.line)))
        ∧ (48 ≤ m.dst → m.dst < 52 → m.excl = false → m.src ≠ m.dst → t.spoilt (rdcOf cache) m.line = false →
          exec (.grant i) s = .next (done ((t.fillS (rdcOf cache) m.line m.key m.data m.poison).grantRead cache m)))
        ∧ (48 ≤ m.dst → m.dst < 52 → m.excl = true → m.hasData = true →
          exec (.grant i) s = .next (done (((t.dropLine (rdcOf cache) m.line).fillX cache m.line m.key m.data m.poison false m.modified).redo
            cache m.line))))
      ∧ (m.kind = .grant → m.place = .here → s.grantRoom m = none → exec (.grant i) s = .next s)
      ∧ (∀ p ∈ [(MsgKind.inv, Instr.invMsg i), (.fwdS, .fwds i), (.fwdX, .fwdx i), (.fwdD, .fwdd i), (.rcl, .rclMsg i)], m.kind = p.1 →
          s.granting m = true → exec p.2 s = .next s)
      ∧ (m.place = .here → s.granting m = false → s.snoopWaits (s.holder m.line m.dst) m.line = false →
        let u := t.snoopSpec (s.holder m.line m.dst) m.line
        let msg (k : MsgKind) (goal : Nat) : Msg := Msg.plain k m.line m.dst goal m.mid m.key
        (m.kind = .inv → 64 ≤ m.dst → exec (.invMsg i) s = .next ((u.loseLine (192 + (m.dst - 64)) m.line).post (msg .invAck 254)))
        ∧ (m.kind = .inv → 48 ≤ m.dst → m.dst < 52 →
            exec (.invMsg i) s = .next ((u.loseLine (256 + (m.dst - 48)) m.line).post (msg .invAck 254)))
        ∧ (∀ l held, u.answerCopy m = some (l, held) →
          let dirty := l.st = .M ∨ l.st = .O
          let gone := if held then u.loseLine (u.holder m.line m.dst) m.line else u
          (m.kind = .fwdS → held = true → dirty → exec (.fwds i) s = .next ((u.putLine (u.holder m.line m.dst) m.line { l with st := .O }).post
            { msg .fwdAck 254 with key := l.key, data := l.data, poison := l.poison, hasData := true, excl := true }))
          ∧ (m.kind = .fwdS → held = true → ¬dirty → m.dst < 48 →
            let c := u.holder m.line m.dst
            exec (.fwds i) s = .next (((u.putLine c m.line { l with st := .U }).noteReader c m.line).post
              { msg .fwdAck 254 with key := l.key, data := l.data, poison := l.poison, hasData := false, excl := true }))
          ∧ (m.kind = .fwdS → held = true → ¬dirty → 64 ≤ m.dst →
            exec (.fwds i) s = .next ((u.putLine (192 + (m.dst - 64)) m.line { l with st := .S }).post
              { msg .fwdAck 254 with key := l.key, data := l.data, poison := l.poison, hasData := false, excl := true }))
          ∧ (∀ r, m.kind = .fwdX → (u.dirOf m.line).req = some r → l.key = r.key → (dirty ∨ held = true) →
            exec (.fwdx i) s = .next (gone.post { Msg.plain .grant m.line m.dst r.src r.mid r.key with
              hasData := true, excl := true, modified := true, acc := r.acc, data := l.data, poison := l.poison }))
          ∧ (m.kind = .fwdD → exec (.fwdd i) s = .next (u.post
              { msg .fdData 254 with key := l.key, data := l.data, poison := l.poison, hasData := decide dirty || held }))
          ∧ (m.kind = .rcl → exec (.rclMsg i) s = .next (gone.post
              { msg .rcAck 254 with key := l.key, data := l.data, poison := l.poison, hasData := decide dirty }))))
      ∧ (m.kind = .putAck → m.place = .here →
          exec (.putack i) s = .next { t with mem := { t.mem with wbBuf := t.mem.wbBuf.del (bufKey m.dst m.line) } })
  ) ∧ (
    ∀ (s : State) (i : Nat) (m : Msg), s.mem.net[i]? = some m →
      let slice := s.sliceOf (128 * m.line)
      let room := s.missUsed slice < missEntries slice
      (m.place = .spill → (∀ e ∈ s.mem.net, s.waitsAt slice .spill e = true → m.arr ≤ e.arr) → room →
        exec (.spillReturn i) s = .next { s with mem := { s.mem with net := setNth s.mem.net i { m with place := .table } } })
      ∧ (m.place = .spill → ¬room → exec (.spillReturn i) s = .next s)
      ∧ (∀ a, m.kind = .error → m.place = .here → m.dst ≠ 255 → m.excl = false → m.acc = some a →
          exec (.errorResponse i) s = .next ((s.takeMsg i).failAcc a 0x10 3))
  )

/-- R388 to R390, Tables 18.3 and 18.4: a record of kinds 1 to 4 takes a fresh token (`State.freshToken`) and stands unanswered; its
eight words go to the slot of FRQ.HEAD while the queue has room and no earlier record of its die is held, which moves FRQ.HEAD
and raises bit 0 of DTR.IRQ; else it is held, and the oldest held record of a die is written once its queue takes it.

R391, R392, Table 18.6: a privileged write of FRQ.RESP answers a token of the writer's partition. A token that no written record
carries is answered with status 1 and a reserved action or an action its kind does not have with status 2, and nothing else
happens; resume, kill access and kill launch take the token away and act on its source, with status 0: a fetch is made again, a
group parked in a trap resumes at its record's RSM, an engine goes on, a page of a PME is fetched again or delivered as zeros, a
killed fetch traps on its group.

That the launch of a launch command that has not been taken, or has only its status left to write, ends with that command is the model's
choice (log entry 47).

R391, R392, R141, R385: what an answer does to its source. -/
def Obligations.FaultService : Prop :=
  (
    (∀ (s : State) (part die : Nat) (r : Report) (src : Source),
      let tok := if r.kind ≤ 4 then s.freshToken else 0
      let s₁ : State := if r.kind ≤ 4 then { s with svc := { s.svc with
        tokenNext := tok % (2 ^ 32 - 1) + 1,
        tokens := s.svc.tokens ++ [⟨part, tok, r.kind, r.lnum, r.lanes, r.cause, r.reason, src, r.rsm⟩] } } else s
      let rec0 : Record := ⟨part, die, r.words tok⟩
      let later : State := { s₁ with svc := { s₁.svc with heldRecs := s₁.svc.heldRecs ++ [rec0] } }
      let free := ∀ h ∈ s.svc.heldRecs, h.die ≠ die
      (∀ t, free → s₁.writeRecord rec0 = some t → s.report part die r src = t)
      ∧ ((¬free ∨ s₁.writeRecord rec0 = none) → later.recordDenied part = false → s.report part die r src = later)
      ∧ ((¬free ∨ s₁.writeRecord rec0 = none) → later.recordDenied part = true → s.report part die r src = later.interrupt part 0)
      ∧ r.words tok = [BitVec.ofNat 64 (r.kind * 2 ^ 60 + r.cause * 2 ^ 52 + r.reason * 2 ^ 48 + r.mid * 2 ^ 36 + r.slot * 2 ^ 31
          + r.acc * 2 ^ 29 + r.asid % 2 ^ 16), r.va, r.lanes, BitVec.ofNat 64 (r.lnum % 2 ^ 32 * 2 ^ 32 + tok % 2 ^ 32), r.detail, r.hdr, r.rsm, 0])
    ∧ (∀ (s : State) (r : Record),
      let q := s.frqOf r.part
      let size := 2 ^ (q.base.toNat % 16 + 6)
      let isOpen := q.base.getLsbD 11 = true ∧ (q.head + 2 ^ 32 - q.tail) % 2 ^ 32 < size
      let place : Word := BitVec.ofNat 64 (q.base.toNat / 2 ^ 12 % 2 ^ 50 * 2 ^ 12 + 64 * (q.head % size))
      (¬isOpen → s.writeRecord r = none)
      ∧ (∀ a, isOpen → s.vet 645 .write place = .ok a → s.pokeReady a 64 = true →
          s.writeRecord r = some (((s.poke a (keyOf place) (r.words.flatMap (fun w => toBytes w.toNat 8)) 645).mapFrq r.part
            (fun q => { q with head := (q.head + 1) % 2 ^ 32 })).interrupt r.part 0)))
    ∧ (∀ (s : State) (die : Nat),
      (∀ l r h, s.svc.heldRecs = l ++ r :: h → r.die = die → (∀ e ∈ l, e.die ≠ die) →
        (∀ t, s.writeRecord r = some t → t.svc.heldRecs = s.svc.heldRecs →
          exec (.heldRecordWrite die) s = .next { t with svc := { t.svc with heldRecs := l ++ h } })
        ∧ (s.writeRecord r = none → s.recordDenied r.part = false → exec (.heldRecordWrite die) s = .next s))
      ∧ ((∀ r ∈ s.svc.heldRecs, r.die ≠ die) → exec (.heldRecordWrite die) s = .next s))
  ) ∧ (
    ∀ (s : State) (v : BitVec 64) (part : Nat), s.th.priv = true → s.partOfThread s.th = some part →
      let act := v.toNat / 2 ^ 62
      let token := v.toNat % 2 ^ 32
      let k := s.work.cur
      let answers (t : State) (st : Nat) : State := t.mapThread k (fun t => { t with res := { t.res with frqSt := st } })
      ∀ p ∈ [(0, Instr.frqRespResume v), (1, .frqRespKillAccess v), (2, .frqRespKillLaunch v)], act = p.1 →
      (token = 0 → exec p.2 s = .next (answers s 2))
      ∧ (token ≠ 0 → (∀ x ∈ s.svc.tokens, ¬(x.part = part ∧ x.token = token)) → exec p.2 s = .next (answers s 1))
      ∧ (∀ l x r, token ≠ 0 → s.svc.tokens = l ++ x :: r → x.part = part → x.token = token → (∀ y ∈ l, ¬(y.part = part ∧ y.token = token)) →
          (s.recordWritten x = false → exec p.2 s = .next (answers s 1))
          ∧ (s.recordWritten x = true →
            (p.1 = 1 → x.kind = 4 → exec p.2 s = .next (answers s 2))
            ∧ (p.1 = 2 → s.launch? x.lnum = none → (∀ id, x.src ≠ .engine id) → exec p.2 s = .next (answers s 2))
            ∧ (∀ id c, p.1 = 2 → s.launch? x.lnum = none → x.src = .engine id → s.cmd? id = some c → c.st = .faulted x.token →
                ¬(c.q = 6 ∧ c.code = 0x50) → exec p.2 s = .next (answers s 2))
            ∧ (x ∉ l → x ∉ r →
              let s' : State := { s with svc := { s.svc with tokens := l ++ r } }
              (∀ id c, p.1 = 2 → s.launch? x.lnum = none → x.src = .engine id → s.cmd? id = some c → c.st = .faulted x.token →
                c.q = 6 → c.code = 0x50 → exec p.2 s = .next (answers (if c.ended then s'.killCmd c else s'.putCmd (c.finish [c.launchStatus 5])) 0)) ∧
              (p.1 = 0 → exec p.2 s = .next (answers (s'.answerResume x) 0))
              ∧ (p.1 = 1 → x.kind ≠ 4 → exec p.2 s = .next (answers (s'.answerKill x) 0))
              ∧ (p.1 = 2 → (s.launch? x.lnum).isSome = true → exec p.2 s = .next (answers (s'.killLaunch x.lnum) 0)))))
  ) ∧ (
    ∀ (s : State) (x : Token),
      (∀ k p, x.src = .word k → (s.thread k).park = some p → p.fetch = true →
        s.answerResume x = s.mapThread k (fun t => { t with status := .running, park := none })
        ∧ (p.reqs = [] → let s' := s.mapThread k (fun t => { t with status := .running, park := none })
            s.answerKill x = s'.trap k ⟨x.cause, x.reason, 0, (s.thread k).active, (s.thread k).fetch.hdr, false,
              setBits (setBits 0 0 56 (s.thread k).fetch.hdr.toNat) 60 4 (s.thread k).fetch.wix⟩))
      ∧ (∀ k, x.src = .trap k → (s.thread k).status = .parked → (s.thread k).park = none →
          s.answerResume x = s.mapThread k (fun t => { t with
            status := .running, fetch := ⟨BitVec.ofNat 64 (x.rsm.toNat % 2 ^ 56), x.rsm.toNat / 2 ^ 60, []⟩ }))
      ∧ (∀ id c, x.src = .engine id → s.cmd? id = some c →
          (c.st = .faulted x.token → s.answerResume x = s.resumeCmd c ∧ s.answerKill x = s.killCmd c)
          ∧ (c.st ≠ .faulted x.token → s.answerResume x = s ∧ s.answerKill x = s))
      ∧ (∀ die i page, x.src = .page die i page →
          let fits (g : PageImg) : Bool := g.pass = i && g.page = page && g.token = some x.token
          s.answerResume x = s.mapPme die (fun m => { m with store := m.store.map (fun g => if fits g then { g with token := none } else g) })
          ∧ s.answerKill x = s.mapPme die (fun m => { m with store := m.store.map (fun g =>
              if fits g then { g with token := none, zero := true, unusable := true } else g) }))
      ∧ (∀ k p, x.src = .word k → (s.thread k).park = some p → p.fetch = false →
          s.answerResume x = (s.mapThread k (fun t => { t with
            park := some { p with answers := p.answers.filter (fun a => a.1 != x.token) } })).replayParked k)
  )

/-- R363 to R370, R377, R199: what the dispatcher does with the next command of its issuer's stream. SETDET sets the stream's default
level. A start condition lets the launch be taken once the word is at least STCV, and one that cannot be read refuses it with
status 6. A launch that is taken is refused with status 1 where its shape breaks a budget or no die of the partition has its
cores, with 2 where its image's header is unreadable or malformed, with 3 where the header differs from the command, with 4 where
its process-group table is malformed, with 0 where its share is empty; accepted, it runs, at the level of its command or its
stream.

R371, R372, R142: the next block of the launch whose turn it is becomes resident on cores of one die of its partition that no
MERGE or SPLIT holds, each of which has room for a team; a launch that does not fit, or has saved blocks, or is outranked by one
that fits, waits. Table 7.1: a group begins running at its image's first clause in its launch's mode, with the argument pointer,
the block's, its own and its team's numbers in s0 to s3, the base mask in m0 and as the base of its predicate stack. -/
def Obligations.Launches : Prop :=
  (
    ∀ (s s₁ s₂ s₃ : State) (id : Nat) (c : Cmd), s.cmd? id = some c → c.q = 6 → c.st = .queued → s.streamHead c = true →
      let refuses (s : State) (st : Nat) : State := s.putCmd (c.finish [BitVec.ofNat 64 (st * 2 ^ 60 + c.seq)])
      let accepts (s : State) (h : List Nat) (j : JobShare) : State :=
        let t : State := { s with work := { s.work with launches := s.work.launches.put c.seq (s.newLaunch c h j) } }
        t.putCmd { c with st := .running, started := true, status := 0 }
      let level := (c.w 0).toNat / 2 ^ 35 % 4
      let nblk := (c.w 7).toNat / 2 ^ 32
      let run := exec (.launchCommand id) s
      let cores := (s.diesOf (s.issuerPart c)).any (fun d => shapeCluster c.words ≤ ((coresOf d).filter s.inService).length)
      (c.code = 0x51 → exec (.setdet id) s = .next
        ({ s with work := { s.work with streams := s.work.streams.put c.stream level } }.putCmd (c.finish [])))
      ∧ (c.code = 0x50 → c.fired = false → c.started = false → c.w 2 ≠ 0 →
        run = .next s
        ∧ ∀ bs, s.engRead c.space 646 (c.w 2).toNat 8 = .ok s₁ bs →
          (refused bs = true ∨ poisonedIn bs = true → exec (.startConditionPoll id) s = .next (refuses s₁ 6))
          ∧ (refused bs = false → poisonedIn bs = false → (c.w 7).toNat % 2 ^ 32 ≤ ofBytes (plainBytes bs) →
              exec (.startConditionPoll id) s = .next (s₁.putCmd { c with started := true, status := 0 }))
          ∧ (refused bs = false → poisonedIn bs = false → ofBytes (plainBytes bs) < (c.w 7).toNat % 2 ^ 32 →
              exec (.startConditionPoll id) s = .next s₁))
      ∧ (∀ u, c.code = 0x50 → c.fired = true → c.prog = 0 →
          s.engWrite c.space (648 + (nth c.recs 1 0).toNat) (c.w 4).toNat (toBytes (nth c.recs 0 0).toNat 8) = .ok s₁ u →
          run = .next (s₁.putCmd { c with prog := 1 }))
      ∧ (c.code = 0x50 → (c.fired = true → c.prog ≠ 0) → (c.fired = true ∨ c.w 2 = 0 ∨ c.started = true) →
        (shapeBad c.words = true ∨ cores = false → run = .next (refuses s 1))
        ∧ (∀ bs, shapeBad c.words = false → cores = true → s.engRead c.space 646 (c.w 1).toNat 128 = .ok s₁ bs →
          let h := plainBytes bs
          (refused bs = true ∨ poisonedIn bs = true → run = .next (refuses s₁ 2))
          ∧ (refused bs = false → poisonedIn bs = false → imageBad h = true → run = .next (refuses s₁ 2))
          ∧ (refused bs = false → poisonedIn bs = false → imageBad h = false → imageDiffers c.words h = true → run = .next (refuses s₁ 3))
          ∧ (refused bs = false → poisonedIn bs = false → imageBad h = false → imageDiffers c.words h = false →
            (c.w 5 = 0 → nblk ≠ 0 → run = .next (accepts s₁ h ⟨0, 1, 0, nblk, true⟩))
            ∧ (∀ hb, c.w 5 ≠ 0 → s₁.engRead c.space 646 (c.w 5).toNat 64 = .ok s₂ hb → refused hb = false → poisonedIn hb = false →
              let hdr := plainBytes hb
              let n := field hdr 4 4
              (n = 0 ∨ 8192 < n → run = .next (refuses s₂ 4))
              ∧ (∀ tb, 0 < n → n ≤ 8192 → s₂.engRead c.space 646 ((c.w 5).toNat + 64) (32 * n) = .ok s₃ tb →
                (refused tb = true ∨ poisonedIn tb = true → run = .next (refuses s₃ 4))
                ∧ (refused tb = false → poisonedIn tb = false →
                  let es := (List.range n).map (fun i => PgEntry.ofBytes (((plainBytes tb).drop (32 * i)).take 32))
                  (s₃.rankIn nblk hdr es = none → run = .next (refuses s₃ 4))
                  ∧ (∀ k e, s₃.rankIn nblk hdr es = some k → es[k]? = some e →
                    field hdr 0 4 = 0x42544750 ∧ field hdr 8 8 = nblk ∧ (e.node = s₃.ownNode ∧ e.pkg = s₃.ownPkg)
                    ∧ (e.bcnt = 0 → run = .next (refuses s₃ 0))
                    ∧ (e.bcnt ≠ 0 → ∃ ready, run = .next (accepts s₃ h ⟨k, n, e.bfirst, e.bcnt, ready⟩)
                        ∧ (ready = false ↔ 0 < k ∧ ∃ p, es[k - 1]? = some p ∧ p.node = s₃.ownNode)))))))))
      ∧ (∀ h j, let l := s.newLaunch c h j
          l.bnext = j.bfirst ∧ l.bfirst = j.bfirst ∧ l.bcnt = j.bcnt ∧ l.killed = false ∧ l.ended = []
          ∧ (l.det = if level = 3 then s.work.streams.getD c.stream 0 else level))
  ) ∧ (
    ∀ (s : State) (lnum : Nat) (l : Launch), s.launch? lnum = some l →
      (∀ die cores, s.launchTurn lnum l = true → s.savedBlocks lnum = [] → s.fit l = some (die, cores) →
        exec (.blockPlacement lnum) s = .next (s.placeBlock lnum l die cores)
        ∧ (die ∈ s.diesOf l.part ∧ s.dieHeld die = false)
        ∧ ∀ core ∈ cores, s.coreFits l.cmd l.asid core = true ∧ dieOf core = die)
      ∧ (s.launchTurn lnum l = false ∨ s.savedBlocks lnum ≠ [] ∨ s.fit l = none → exec (.blockPlacement lnum) s = .next s)
      ∧ (∀ id : Ident, let g := l.group id
          g.status = .running ∧ g.priv = l.priv ∧ g.ident = id ∧ g.rm = l.rm ∧ g.xltRoot = l.root
          ∧ g.xltAsid = BitVec.ofNat 64 l.asid ∧ g.fetch = ⟨BitVec.ofNat 64 (l.img + l.codeOff), 0, []⟩
          ∧ g.regs.s 0 = nth l.cmd 4 0 ∧ g.regs.s 1 = BitVec.ofNat 64 id.block ∧ g.regs.s 2 = BitVec.ofNat 64 id.gnum
          ∧ g.regs.s 3 = BitVec.ofNat 64 id.crank ∧ (∀ r, 4 ≤ r → g.regs.s r = 0)
          ∧ g.regs.m 0 = baseMask l.cmd ∧ g.pstack = [(baseMask l.cmd, baseMask l.cmd)] ∧ g.tx.live = false)
  )

/-- R217, R365, R371, R140: a block whose teams have ended, and at a determinism level whose end flush is made, leaves its cores;
when it was the last of its launch the launch is complete: its blocks, teams and cursors go, and its command is left with its
status.

R378, R380, R381, R442: at a determinism level the end flush of a block whose teams have ended is made when its lines can be
flushed and, where it has staged bytes, when every lower-indexed block of the rank has ended, and for the first block the rank
before it has reported; a race it meets goes to the handler in a record and kills the launch.

R393 to R395, R441, R372: a resident block that a waiting launch wants is asked to stop, and its groups that are in no gap stop;
one in a gap stops at a wait, and at the limit at its next word. Once every group has stopped, its waits are withdrawn, and when
its accesses and its commands are done the block is saved.

R397, R372, R163: the lowest saved block of the launch whose turn it is becomes resident again where it fits, each of its teams
on a core of its new die; its replayed requests are made again. A group that was outside a transaction keeps its registers,
predicate stack and place, and takes its new core and slot.

The turns in which these come are the model's choice (log entry 11). -/
def Obligations.BlockLifetimes : Prop :=
  (
    ∀ (s : State) (lnum block : Nat) (b : Block) (l : Launch), s.block? lnum block = some b → s.launch? lnum = some l →
      (b.st = .resident ∨ b.st = .stopping → s.teamsOver b = true → (l.det = 0 ∨ b.flushed = true) → (b.raced = none ∨ l.killed = true) →
        exec (.blockEnd lnum block) s = .next (((((s.vacate b).mapBlock lnum block (fun b => { b with st := .ended })).mapLaunch lnum
          (fun l => { l with ended := insertNat l.ended block }))).settleLaunch lnum))
      ∧ (s.teamsOver b = false ∨ (l.det ≠ 0 ∧ b.flushed = false) → exec (.blockEnd lnum block) s = .next s)
      ∧ (l.bfirst + l.bcnt ≤ l.bnext → (∀ x ∈ s.work.blocks, x.lnum = lnum → x.st = .ended) →
          let t := s.settleLaunch lnum
          t.launch? lnum = none ∧ (∀ x ∈ t.work.blocks, x.lnum ≠ lnum) ∧ (∀ x ∈ t.work.teams, x.2.lnum ≠ lnum)
          ∧ ∀ x ∈ t.svc.cursors, x.2.lnum ≠ lnum)
      ∧ ((l.bnext < l.bfirst + l.bcnt ∨ ∃ x ∈ s.work.blocks, x.lnum = lnum ∧ x.st ≠ .ended) → s.settleLaunch lnum = s)
  ) ∧ (
    ∀ (s : State) (lnum block : Nat) (b : Block) (l : Launch), s.block? lnum block = some b → s.launch? lnum = some l →
      let cores := b.teams.map (fun k => (s.team k).core)
      let lines := cores.flatMap (fun c => s.stagedLines c lnum block)
      let q := s.endFlush lnum block l.det cores
      let t := q.1.mapBlock lnum block (fun b => { b with flushed := true })
      let turn := (l.ended.filter (fun b => b < block)).length = block - l.bfirst
        ∧ (block ≠ l.bfirst ∨ l.rank = 0 ∨ l.rankReady = true)
      let may := l.det ≠ 0 ∧ b.flushed = false ∧ (b.st = .resident ∨ b.st = .stopping) ∧ s.teamsOver b = true
        ∧ s.flushReady lines = true ∧ (lines = [] ∨ turn) ∧ s.recordRoom b.die 1 = true
      (may → q.2 = none → exec (.orderedFlush lnum block) s = .next t)
      ∧ (∀ core race, may → q.2 = some (core, race) → l.killed = false → exec (.orderedFlush lnum block) s = .next ((t.report l.part b.die
          ⟨5, 0x0D, race, core, 0, 1, l.asid, 0, 0, lnum, 0, 0, 0⟩ (.trap 0)).killLaunch lnum))
      ∧ (¬may → exec (.orderedFlush lnum block) s = .next s)
      ∧ (∀ core race, b.raced = some (core, race) → l.killed = false → s.recordRoom b.die 1 = true → s.raceTurn lnum block =
          ((s.mapBlock lnum block (fun b => { b with raced := none })).report l.part b.die
            ⟨5, 0x0D, race, core, 0, 1, l.asid, 0, 0, lnum, 0, 0, 0⟩ (.trap 0)).killLaunch lnum)
      ∧ exec (.rankEndReport lnum) s = .next (s.mapLaunch lnum (fun l => { l with rankReady := true }))
  ) ∧ (
    ∀ (s : State) (lnum block : Nat) (b : Block) (l : Launch), s.block? lnum block = some b → s.launch? lnum = some l →
      let stopped := s.mapGroups b Thread.stopAtWait
      let ks := (stopped.groupsOf lnum block).map (·.1)
      let quiet := ks.foldl (fun (s : State) k => (s.dropWait k).withdrawGroup k) stopped
      (b.st = .resident → s.wanted b = true → exec (.preemption lnum block) s = .next
        ((s.mapBlock lnum block (fun b => { b with st := .stopping })).mapGroups b Thread.stopNow))
      ∧ (b.st = .resident → s.wanted b = false → exec (.preemption lnum block) s = .next s)
      ∧ (b.st = .stopping → stopped.allStopped b = false → exec (.preemption lnum block) s = .next stopped)
      ∧ (b.st = .stopping → stopped.allStopped b = true →
        (ks.all quiet.groupSettled = true → quiet.queuesDrained b = true → exec (.preemption lnum block) s = .next (quiet.saveBlock l b))
        ∧ (ks.all quiet.groupSettled = false ∨ quiet.queuesDrained b = false → exec (.preemption lnum block) s = .next quiet))
      ∧ (∀ k, k < 6144 → let t := s.thread k
          t.ident.lnum = lnum → t.ident.block = block → b.st = .stopping → t.status = .running →
          (t.committing = false → exec (.stopLimit k) s = .next (s.putThread k { t with status := .halted }))
          ∧ (t.committing = true → exec (.stopLimit k) s = .next s))
      ∧ (∀ t : Thread, (t.status = .running → t.gap = false → t.committing = false → t.stopNow = { t with status := .halted })
          ∧ (t.gap = true → t.stopNow = t) ∧ (t.committing = true → t.stopNow = t ∧ t.stopAtWait = t))
  ) ∧ (
    ∀ (s : State) (lnum block : Nat) (b : Block) (l : Launch), s.block? lnum block = some b → s.launch? lnum = some l →
      (∀ die cores, b.st = .saved → (s.savedBlocks lnum).head? = some block → s.launchTurn lnum l = true → s.fit l = some (die, cores) →
        let back := (b.teams.zip cores).foldl (fun (x : State) p => x.restoreTeam p.1 p.2 (s.poolWritten l.part)) s
        exec (.blockResume lnum block) s = .next (cores.foldl (fun (s : State) c => s.replayCore c)
          ((back.mapBlock lnum block (fun b => { b with st := .resident, die := die })).rotate l.part die).tryTakes)
        ∧ die ∈ s.diesOf l.part)
      ∧ (b.st ≠ .saved ∨ s.launchTurn lnum l = false ∨ s.fit l = none → exec (.blockResume lnum block) s = .next s)
      ∧ (∀ (g : SavedGroup) (core slot : Nat), g.thread.tx.live = false →
          let t := (s.restoreGroup g core slot false).thread (groupKey core slot)
          t.regs = g.thread.regs ∧ t.pstack = g.thread.pstack ∧ t.fetch = g.thread.fetch ∧ t.status = g.thread.status
          ∧ t.ident = { g.thread.ident with core := core, slot := slot })
  )

/-- R405 to R407: a MERGE or SPLIT that is refused ends with status 2, 3 or 4 and changes no register; one that can be made holds
placement and issue on the affected dies. Once they have drained the registers take the new layout and the translations of the
dies are drained; when the accesses through them are complete and the dies' masked bytes are home, the command ends with status
0. One that has waited too long ends with status 1 and names the first busy queue.

R408, R22, R409: RESET ends with status 2 for a partition that does not exist and 3 for another's issuer; else the partition's
launches are killed and, once nothing of it is left, its lines are dropped, its keys are drawn anew and its distaff threads start
again. FENCE ends with 2 for no such bay, 3 for another's issuer, 0 for a fenced bay; else the bay's launches are killed and,
once its lines are home, its slots lead to the lowest bay in service, and a third fenced bay takes the die out of its partition.
RESTART starts a stopped or idle thread at an aligned address in the mode it names, and ends with 2 or 3 otherwise.

What a time-out reports where no queue is busy is the model's choice (log entry 19). -/
def Obligations.PartitionManager : Prop :=
  (
    (∀ (s : State) (id : Nat) (c : Cmd), s.cmd? id = some c → s.managerTurn c = true → c.st = .queued →
      ∀ p ∈ [(0x60, Instr.merge id, false), (0x61, .split id, true)], c.code = p.1 →
        let a := (c.w 1).toNat % 4
        let b := (c.w 1).toNat / 4 % 4
        let st := s.layoutStatus c p.2.2
        let dies := (List.range 4).filter (fun d => s.partOfDie d = some a ∨ s.partOfDie d = some b)
        (st ≠ 0 → exec p.2.1 s = .next (s.managerDone c st [a, b]))
        ∧ (st = 0 → ∃ x : Cmd, ∃ q : Quiesce, q.cmd = id ∧ q.dies = dies ∧ q.parts = [a, b] ∧ q.phase2 = false ∧ x.id = c.id ∧ x.st = .running
            ∧ exec p.2.1 s = .next { s.putCmd x with pkg := { s.pkg with quiesce := some q } })
        ∧ (a = b → st = 2)
        ∧ (a ≠ b → s.valid a = false → st = 2)
        ∧ (a ≠ b → s.valid a = true → s.valid b = p.2.2 → st = 2))
    ∧ (∀ (s : State) (q : Quiesce) (c : Cmd), s.pkg.quiesce = some q → s.cmd? q.cmd = some c →
        (q.phase2 = false → s.quiesced q.dies = true →
          let t := (s.applyLayout c).mapCmd c.id (fun d => { d with reached := ((s.applyLayout c).irqCores q.parts).foldl insertNat d.reached })
          exec .quiesceDrained s = .next ({ t with pkg := { t.pkg with quiesce := some { q with phase2 := true } } }.drainPlaces q))
        ∧ (q.phase2 = true ∨ s.quiesced q.dies = false → exec .quiesceDrained s = .next s)
        ∧ (∀ b, q.phase2 = false → s.quiesced q.dies = false → s.firstBusy q.dies = some b →
          exec .quiesceTimeout s = .next ({ s.tick with pkg := { s.pkg with quiesce := none } }.putCmd (c.finish [busyWord b])))
        ∧ (q.phase2 = false → s.quiesced q.dies = false → s.firstBusy q.dies = none →
          ∃ w : Word, w.toNat / 2 ^ 60 = 1 ∧
            exec .quiesceTimeout s = .next ({ s.tick with pkg := { s.pkg with quiesce := none } }.putCmd (c.finish [w])))
        ∧ (q.phase2 = true ∨ s.quiesced q.dies = true → exec .quiesceTimeout s = .next s)
        ∧ (∀ t, q.phase2 = true → s.drainOut q = false → s.flushCores (q.dies.flatMap coresOf) = some t →
            (∀ k ∈ q.dies.flatMap coresOf, t.mwbOut k 2 = false) →
            exec .phase2Complete s = .next ({ t.dropDraining 0 with pkg := { t.pkg with quiesce := none } }.putCmd (c.finish [0])))
        ∧ (q.phase2 = false ∨ s.drainOut q = true → exec .phase2Complete s = .next s))
    ∧ (∀ (g : Pkg) (a b gran : Nat), a ≠ b →
        let m := g.merged a b gran
        m.nbnd.getD a 0 = g.nbnd.getD a 0 ||| g.nbnd.getD b 0 ∧ m.nbnd.getD b 0 = 0 ∧ m.ivl.getD b 0 = 0
        ∧ ∀ p, p ≠ a → p ≠ b → m.nbnd.getD p 0 = g.nbnd.getD p 0 ∧ m.ptnRes.getD p 0 = g.ptnRes.getD p 0)
    ∧ (∀ (g : Pkg) (a b : Nat) (nb : Word) (gran mem net : Nat), a ≠ b →
        let m := g.divided a b nb gran mem net
        let moved := nb &&& 0x00FFF0F0FFFF0FFF
        m.nbnd.getD a 0 = g.nbnd.getD a 0 &&& ~~~moved ∧ m.nbnd.getD b 0 = setBits moved 63 1 1
        ∧ ∀ p, p ≠ a → p ≠ b → m.nbnd.getD p 0 = g.nbnd.getD p 0 ∧ m.ptnRes.getD p 0 = g.ptnRes.getD p 0)
  ) ∧ (
    ∀ (s s' : State) (id : Nat) (c : Cmd), s.cmd? id = some c → s.managerTurn c = true →
      let w := (c.w 1).toNat
      let c' : Cmd := { c with st := .running, started := true }
      (c.code = 0x62 →
        let a := w % 4
        let k := (s.putCmd c').killPart a
        (c.started = false → s.valid a = false → exec (.pmReset id) s = .next (s.managerDone c 2 [a]))
        ∧ (c.started = false → s.valid a = true → s.issuerAt c ≠ some a → exec (.pmReset id) s = .next (s.managerDone c 3 [a]))
        ∧ (c.started = true ∨ (s.valid a = true ∧ s.issuerAt c = some a) →
          (k.partBusy a = true → exec (.pmReset id) s = .next k)
          ∧ (k.partBusy a = false → k.wipeLines (fun line _ => k.lineIn a line) = some s' →
              exec (.pmReset id) s = .next (((s'.emptyHomes (s'.lineIn a)).resetPart a).managerDone c' 0 [a]))))
      ∧ (c.code = 0x63 →
        let die := w / 2 ^ 8 % 4
        let bay := w / 2 ^ 10 % 64
        let core := 48 * die + bay
        let part := s.partOfDie die
        let map := s.pkg.slsub.getD die 0
        let third := map.getLsbD 4 && map.getLsbD 17
        let cores := if third then coresOf die else [core]
        let k := (s.putCmd c').killOn cores
        let gives (s : State) (line : Nat) : Bool := if third then classOf (128 * line) == die else s.sliceOf (128 * line) == core
        let idle := k.coresBusy cores = false ∧ ∀ m ∈ k.mem.net, gives k m.line = false
        (c.started = false → (part = none ∨ 48 ≤ bay) → exec (.pmFence id) s = .next (s.managerDone c 2 part.toList))
        ∧ (c.started = false → part ≠ none → bay < 48 → s.issuerAt c ≠ part → exec (.pmFence id) s = .next (s.managerDone c 3 part.toList))
        ∧ (c.started = false → part ≠ none → bay < 48 → s.issuerAt c = part → s.fenced core = true →
            exec (.pmFence id) s = .next (s.managerDone c 0 part.toList))
        ∧ (c.started = true ∨ (part ≠ none ∧ bay < 48 ∧ s.issuerAt c = part ∧ s.fenced core = false) →
          (¬idle → exec (.pmFence id) s = .next k)
          ∧ (idle → k.flushCores cores = some s' → (∀ x ∈ cores, s'.mwbOut x 2 = false) →
            let bare := cores.foldl (fun (s : State) x => (s.linesIn x).foldl (fun (s : State) l => s.wipeLine x l) s) s'
            let gone := bare.emptyHomes (gives bare)
            (third = true → exec (.pmFence id) s = .next ((gone.clearDie (part.getD 0) die).managerDone c' 0 part.toList))
            ∧ (third = false → exec (.pmFence id) s = .next ({ gone with pkg := { gone.pkg with
                slsub := gone.pkg.slsub.put die (slsubFence map bay (gone.spareBay die bay)) } }.managerDone c' 0 part.toList)))))
      ∧ (c.code = 0x64 →
        let dc := w % 64
        let k := 6144 + Config.threadsPerDistaff * dc + w / 2 ^ 8 % 4
        let t := s.thread k
        let part := s.partOfDistaff dc
        let bad := part = none ∨ (t.status ≠ .stopped ∧ t.status ≠ .idle) ∨ (c.w 2).toNat % 4 ≠ 0
        (bad → exec (.restart id) s = .next (s.managerDone c 2 part.toList))
        ∧ (¬bad → s.issuerAt c ≠ part → exec (.restart id) s = .next (s.managerDone c 3 part.toList))
        ∧ (¬bad → s.issuerAt c = part → exec (.restart id) s = .next ((s.putThread k { t with
            status := .running, priv := w.testBit 16, wait := .none, fetch := ⟨c.w 2, 0, []⟩,
            trap := { t.trap with tcs := t.trap.tcs &&& 0x7FFFFFFFFFFFFFFF } }).managerDone c 0 part.toList)))
      ∧ (∀ (map : Word) (bay spare : Nat), bay < 48 → spare < 48 → map.getLsbD 17 = false →
        let m := slsubFence map bay spare
        (map.getLsbD 4 = false → m.getLsbD 4 = true ∧ bitsAt m 5 6 = bay ∧ bitsAt m 11 6 = spare ∧ m.getLsbD 17 = false)
        ∧ (map.getLsbD 4 = true → m.getLsbD 4 = true ∧ m.getLsbD 17 = true ∧ bitsAt m 5 6 = bitsAt map 5 6 ∧ bitsAt m 18 6 = bay
            ∧ bitsAt m 24 6 = spare ∧ (bitsAt map 11 6 = bay → bitsAt m 11 6 = spare)))
  )

/-- R413: SEND reads its payload and ends with status 2 where it cannot be read, 1 for a package of its own node or without a port,
and else 0 or 1 as the other node answers. A message that arrives on a port of a partition whose ring is enabled waits for the
ring, and is written to the next slot where the ring has one free: its header and payload, after which RXH advances and bit 3 is
set, or the arm of its tag fires. A ring that is not enabled receives nothing.

R37, R38, R404, R411, R412, R414: the other events from outside. A doorbell sets bit 2, power bit 5 for every partition, the root
of trust bit 4, on the partition's interrupt thread; a link that fails its training is taken out of use; a permitted access of a
function reads or writes its bytes of one line, a refused one and one to a configuration register change nothing, and a CXL.mem
request is served in the range that its port's CXL.T2 gives, under the key it carries.

R410: a reset of the package leaves the state of reset, with the digests of the stages that ran, its node and package in DSP.NODE
and its installed modules; a stage that fails its verification leaves it in reset, where nothing moves until the next reset.

That a SEND to the own node ends with 1, what another node answers, and that a message whose arm's wait counter is full waits, are the
model's choices (log entries 16, 20 and 43). -/
def Obligations.OutsideWorld : Prop :=
  (
    (∀ (s s' : State) (id : Nat) (c : Cmd) (bs : List (Option (Nat × Bool))), s.cmd? id = some c → c.q = 7 → c.code = 0x70 → c.st = .queued →
      s.firstOfIssuer c = true → s.engRead c.space (s.engineMid c) (c.w 2).toNat (c.w 3).toNat = .ok s' bs →
        let ends (s : State) (st : Word) : State := s.putCmd (c.finish [st])
        let near := (c.w 1).toNat / 2 ^ 16 % 2 ^ 10 = s'.ownNode ∨ s'.sendPort c = none
        (refused bs = true → exec (.send id) s = .next (ends s' 2))
        ∧ (refused bs = false → near → exec (.send id) s = .next (ends s' 1))
        ∧ (refused bs = false → ¬near → ∃ st : Word, (st = 0 ∨ st = 1) ∧ exec (.send id) s = .next (ends s'.tick st)))
    ∧ (∀ (s : State) (port tag node pkg part : Nat) (payload : List Nat), s.portPart port = some part →
      let ring := s.netOf part
      let m : Mail := ⟨port, tag % 2 ^ 32, node % 2 ^ 10, pkg % 8, payload, none⟩
      let t : State := { s with svc := { s.svc with portWait := s.svc.portWait ++ [m] } }
      let slots := 2 ^ (ring.rx.toNat % 16)
      (ring.rxa.getLsbD 0 = false → exec (.ethMessageReceive port tag node pkg payload) s = .next s)
      ∧ (ring.rxa.getLsbD 0 = true → payload ≠ [] → payload.length ≤ 4032 → (∀ x ∈ s.svc.portWait, x.port ≠ port) →
        (slots ≤ (ring.rxh + 2 ^ 32 - ring.rxt) % 2 ^ 32 → exec (.ethMessageReceive port tag node pkg payload) s = .next t)
        ∧ (∀ t' u, (ring.rxh + 2 ^ 32 - ring.rxt) % 2 ^ 32 < slots →
            let arm := s.svc.arms.find? (fun a => a.part == part && a.tag == tag % 2 ^ 32)
            let slot := ring.rx.toNat / 2 ^ 12 % 2 ^ 44 * 4096 + 4096 * (ring.rxh % slots)
            let head := toBytes (tag % 2 ^ 32) 4 ++ (toBytes (node % 2 ^ 10) 2 ++ (toBytes (pkg % 8) 1 ++ ([bit arm.isSome] ++
              (toBytes payload.length 4 ++ (toBytes ring.rxh 4 ++ List.replicate 48 0)))))
            let space : Space := ⟨ring.rxa, ring.rxs.toNat % 2 ^ 16, true, [], 4, 648 + port⟩
            t.engWrite space (648 + port) slot (head ++ payload) = .ok t' u →
            let done := (t'.dropMail port).mapNet part (fun n => { n with rxh := (n.rxh + 1) % 2 ^ 32 })
            (arm = none → exec (.ethMessageReceive port tag node pkg payload) s = .next (done.interrupt part 3))
            ∧ (∀ a, arm = some a → t.fireWaits a = true → exec (.ethMessageReceive port tag node pkg payload) s = .next t)
            ∧ (∀ a, arm = some a → t.fireWaits a = false → exec (.ethMessageReceive port tag node pkg payload) s = .next (done.fire a (slot + 64) port)))))
  ) ∧ (
    ∀ (s : State),
      (∀ port, port < 4 → (∀ p, s.partWith (44 + port) = some p → exec (.cxlDoorbell port) s = .next (s.interrupt p 2))
        ∧ (s.partWith (44 + port) = none → exec (.cxlDoorbell port) s = .next s))
      ∧ exec .powerThrottle s = .next ((((s.interrupt 0 5).interrupt 1 5).interrupt 2 5).interrupt 3 5)
      ∧ (∀ p, p < 4 → exec (.rootOfTrustNotice p) s = .next (s.interrupt p 4))
      ∧ (∀ p b dc, s.irqCore p = some dc → (s.interrupt p b).thread (distaffKey dc 0) = (
          let t := s.thread (distaffKey dc 0)
          { t with trap := { t.trap with irq := setBits t.trap.irq b 1 1 }, status := if t.status = .idle then .running else t.status }))
      ∧ (∀ link, exec (.linkTrainingFailure link) s = .next { s with pkg := { s.pkg with links := s.pkg.links.filter (fun l => !(l == link)) } })
      ∧ (∀ (mid : Nat) (pa : Word) (bytes : List Nat), 1024 ≤ mid → mid < 4096 →
        (∀ w, exec (.pcieFunctionRequest mid pa w true bytes) s = .next s)
        ∧ (isMmio pa = false →
          (∀ r, s.vet mid .write pa = .error r → exec (.pcieFunctionRequest mid pa true false bytes) s = .next s)
          ∧ (∀ a, s.vet mid .write pa = .ok a → bytes ≠ [] → a % 128 + bytes.length ≤ 128 → s.pokeReady a bytes.length = true →
              s.windowHeld pa = false → exec (.pcieFunctionRequest mid pa true false bytes) s = .next (s.poke a (keyOf pa) bytes mid))
          ∧ (∀ a, s.vet mid .read pa = .ok a → bytes ≠ [] → a % 128 + bytes.length ≤ 128 → s.lineBusy ((s.steer a 0).1 / 128) = false →
              s.windowHeld pa = false →
              exec (.pcieFunctionRequest mid pa false false bytes) s = .next (s.readAt a (keyOf pa) bytes.length mid))))
      ∧ (∀ (port mid key offset : Nat) (write : Bool) (bytes : List Nat), 1024 ≤ mid → mid < 4096 → offset < 2 ^ 46 →
        let v := (s.pkg.cxlT2.getD port 0).toNat
        let base := v / 2 ^ 30 % 2 ^ 16 * 2 ^ 30
        let served := port = (mid - 1024) / 768 ∧ v / 2 ^ 63 = 1 ∧ base ≤ offset ∧ offset + bytes.length ≤ base + v / 2 ^ 14 % 2 ^ 16 * 2 ^ 30
        (served → exec (.cxlMemRequest port mid key offset write bytes) s = .next (s.functionAccess mid
            (BitVec.ofNat 64 (key % 2 ^ 10 * 2 ^ 52 + s.ownPkg % 8 * 2 ^ 49 + 4 * 2 ^ 46 + offset)) write bytes))
        ∧ (¬served → exec (.cxlMemRequest port mid key offset write bytes) s = .next s))
  ) ∧ (
    ∀ (s : State) (node : Nat) (stages : List (Bool × List Nat)),
      ∃ t : State, exec (.packageReset node stages) s = .next t
        ∧ t.work = State.reset.work ∧ t.mem = State.reset.mem ∧ t.xlt = State.reset.xlt
        ∧ t.svc = { State.reset.svc with measure := (stages.takeWhile (fun x => x.1)).map (fun x => x.2) }
        ∧ t.pkg.node = BitVec.ofNat 64 node &&& 0x03FF0007 ∧ t.pkg.modules = s.pkg.modules
        ∧ (t.pkg.booted = true ↔ ∀ x ∈ stages, x.1 = true)
        ∧ (t.pkg.booted = false → ∀ k r, step { t with agenda := .issue k :: r } = .next { t with agenda := r })
  )
end

