-- ==== Sys2Proof/Laws/Table.lean ====
section
/-! SUPPORT. Laws of tables: a read after a write, and the canonical form. -/

namespace Sys2Proof.Machine

variable {α : Type}

theorem Tab.find_put (t : Tab α) (k j : Nat) (x : α) : (t.put k x).find j = if j = k then some x else t.find j := by
  induction t with
  | nil => simp [Tab.put, Tab.find, eq_comm]
  | cons p r ih =>
    obtain ⟨i, v⟩ := p
    by_cases hjk : j = k
    · subst hjk
      by_cases h1 : j < i
      · simp [Tab.put, h1, Tab.find]
      · by_cases h2 : j = i
        · subst h2; simp [Tab.put, Tab.find]
        · have h3 : i ≠ j := fun h => h2 h.symm
          simp only [if_true] at ih
          simp [Tab.put, h1, h2, h3, Tab.find, ih]
    · have hkj : k ≠ j := fun h => hjk h.symm
      simp only [if_neg hjk] at ih
      by_cases h1 : k < i
      · simp [Tab.put, h1, Tab.find, hjk, hkj]
      · by_cases h2 : k = i
        · subst h2; simp [Tab.put, Tab.find, hjk, hkj]
        · simp [Tab.put, h1, h2, Tab.find, hjk, ih]

@[simp] theorem Tab.find_put_self (t : Tab α) (k : Nat) (x : α) : (t.put k x).find k = some x := by simp [Tab.find_put]

@[simp] theorem Tab.find_put_ne (t : Tab α) (k j : Nat) (x : α) (h : j ≠ k) : (t.put k x).find j = t.find j := by
  simp [Tab.find_put, h]

@[simp] theorem Tab.getD_put_self (t : Tab α) (k : Nat) (x d : α) : (t.put k x).getD k d = x := by simp [Tab.getD]

@[simp] theorem Tab.getD_put_ne (t : Tab α) (k j : Nat) (x d : α) (h : j ≠ k) : (t.put k x).getD j d = t.getD j d := by
  simp [Tab.getD, h]

/-- No key below the bound of a rising table is listed. -/
theorem Tab.find_below : (t : Tab α) → (lo k : Nat) → Tab.risingFrom lo t = true → k < lo → t.find k = none
  | [], _, _, _, _ => rfl
  | (j, v) :: r, lo, k, h, hk => by
    simp only [Tab.risingFrom, Bool.and_eq_true, decide_eq_true_eq] at h
    have hj : j ≠ k := by omega
    simpa [Tab.find, hj] using Tab.find_below r (j + 1) k h.2 (by omega)

/-- Writing keeps the keys rising. -/
theorem Tab.risingFrom_put : (t : Tab α) → (lo k : Nat) → (x : α) → Tab.risingFrom lo t = true → lo ≤ k →
    Tab.risingFrom lo (t.put k x) = true
  | [], lo, k, x, _, hk => by simp [Tab.put, Tab.risingFrom, hk]
  | (j, v) :: r, lo, k, x, h, hk => by
    simp only [Tab.risingFrom, Bool.and_eq_true, decide_eq_true_eq] at h
    by_cases h1 : k < j
    · simp only [Tab.put, h1, if_true, Tab.risingFrom, Bool.and_eq_true, decide_eq_true_eq]
      exact ⟨hk, by omega, h.2⟩
    · by_cases h2 : k = j
      · subst h2; simp [Tab.put, Tab.risingFrom, h.1, h.2]
      · simp only [Tab.put, h1, h2, if_false, Tab.risingFrom, Bool.and_eq_true, decide_eq_true_eq]
        exact ⟨h.1, Tab.risingFrom_put r (j + 1) k x h.2 (by omega)⟩

/-- A lower bound may be lowered. -/
theorem Tab.risingFrom_mono (t : Tab α) (lo lo' : Nat) (h : Tab.risingFrom lo t = true) (hl : lo' ≤ lo) :
    Tab.risingFrom lo' t = true := by
  cases t with
  | nil => rfl
  | cons p r =>
    simp only [Tab.risingFrom, Bool.and_eq_true, decide_eq_true_eq] at *
    exact ⟨by omega, h.2⟩

/-- Dropping entries keeps the keys rising. -/
theorem Tab.risingFrom_filter (p : Nat × α → Bool) : (t : Tab α) → (lo : Nat) → Tab.risingFrom lo t = true →
    Tab.risingFrom lo (t.filter p) = true
  | [], _, _ => rfl
  | (j, v) :: r, lo, h => by
    simp only [Tab.risingFrom, Bool.and_eq_true, decide_eq_true_eq] at h
    have hr := Tab.risingFrom_filter p r (j + 1) h.2
    by_cases hp : p (j, v)
    · simp [hp, Tab.risingFrom, h.1, hr]
    · simp only [List.filter_cons, hp]
      exact Tab.risingFrom_mono _ _ _ hr (by omega)

/-- Changing values keeps the keys rising. -/
theorem Tab.risingFrom_map {β : Type} (f : Nat × α → β) : (t : Tab α) → (lo : Nat) → Tab.risingFrom lo t = true →
    Tab.risingFrom lo (t.map (fun p => (p.1, f p))) = true
  | [], _, _ => rfl
  | (j, v) :: r, lo, h => by
    simp only [Tab.risingFrom, Bool.and_eq_true, decide_eq_true_eq] at h
    simp [Tab.risingFrom, h.1, Tab.risingFrom_map f r (j + 1) h.2]

theorem Tab.wf_nil : Tab.wf ([] : Tab α) = true := rfl

theorem Tab.wf_put (t : Tab α) (k : Nat) (x : α) (h : t.wf = true) : (t.put k x).wf = true :=
  Tab.risingFrom_put t 0 k x h (Nat.zero_le k)

theorem Tab.wf_filter (t : Tab α) (p : Nat × α → Bool) (h : t.wf = true) : Tab.wf (t.filter p) = true :=
  Tab.risingFrom_filter p t 0 h

/-- Removing a key keeps the keys rising. -/
theorem Tab.risingFrom_del : (t : Tab α) → (lo k : Nat) → Tab.risingFrom lo t = true → Tab.risingFrom lo (t.del k) = true
  | [], _, _, _ => rfl
  | (j, v) :: r, lo, k, h => by
    simp only [Tab.risingFrom, Bool.and_eq_true, decide_eq_true_eq] at h
    have hr := Tab.risingFrom_del r (j + 1) k h.2
    by_cases hj : j = k
    · simp only [Tab.del, hj, if_true]
      exact Tab.risingFrom_mono _ (j + 1) _ (hj ▸ hr) (by omega)
    · simp [Tab.del, hj, Tab.risingFrom, h.1, hr]

theorem Tab.wf_del (t : Tab α) (k : Nat) (h : t.wf = true) : (t.del k).wf = true := Tab.risingFrom_del t 0 k h

theorem Tab.find_del (t : Tab α) (k j : Nat) : (t.del k).find j = if j = k then none else t.find j := by
  induction t with
  | nil => simp [Tab.del, Tab.find]
  | cons p r ih =>
    obtain ⟨i, v⟩ := p
    by_cases hi : i = k
    · subst hi
      by_cases hj : j = i
      · subst hj; simpa [Tab.del] using ih
      · have h' : i ≠ j := fun h => hj h.symm
        simpa [Tab.del, Tab.find, hj, h'] using ih
    · by_cases hj : i = j
      · subst hj; simp [Tab.del, Tab.find, hi]
      · simp [Tab.del, Tab.find, hi, hj, ih]

@[simp] theorem Tab.find_del_self (t : Tab α) (k : Nat) : (t.del k).find k = none := by simp [Tab.find_del]

@[simp] theorem Tab.getD_putD_self [DecidableEq α] (t : Tab α) (d : α) (k : Nat) (x : α) : (t.putD d k x).getD k d = x := by
  by_cases h : x = d <;> simp [Tab.putD, h, Tab.getD]

@[simp] theorem Tab.getD_putD_ne [DecidableEq α] (t : Tab α) (d : α) (k j : Nat) (x e : α) (h : j ≠ k) :
    (t.putD d k x).getD j e = t.getD j e := by
  by_cases hx : x = d <;> simp [Tab.putD, hx, Tab.getD, Tab.find_del, h]

theorem Tab.wf_putD [DecidableEq α] (t : Tab α) (d : α) (k : Nat) (x : α) (h : t.wf = true) : (t.putD d k x).wf = true := by
  by_cases hx : x = d
  · simpa [Tab.putD, hx] using Tab.wf_del t k h
  · simpa [Tab.putD, hx] using Tab.wf_put t k x h

end Sys2Proof.Machine
end

