-- ==== Sys2Proof/Laws/State.lean ====
section
/-! SUPPORT. What the updates of the state leave: one lemma per field per update, and the reads of what was written. -/

namespace Sys2Proof.Machine

/-! ## setThreads -/

@[simp] theorem State.setThreads_cur (s : State) (x : Tab Thread) : (s.setThreads x).work.cur = s.work.cur := rfl
@[simp] theorem State.setThreads_teams (s : State) (x : Tab Thread) : (s.setThreads x).work.teams = s.work.teams := rfl
@[simp] theorem State.setThreads_cores (s : State) (x : Tab Thread) : (s.setThreads x).work.cores = s.work.cores := rfl
@[simp] theorem State.setThreads_launches (s : State) (x : Tab Thread) : (s.setThreads x).work.launches = s.work.launches := rfl
@[simp] theorem State.setThreads_blocks (s : State) (x : Tab Thread) : (s.setThreads x).work.blocks = s.work.blocks := rfl
@[simp] theorem State.setThreads_saved (s : State) (x : Tab Thread) : (s.setThreads x).work.saved = s.work.saved := rfl
@[simp] theorem State.setThreads_lnumNext (s : State) (x : Tab Thread) : (s.setThreads x).work.lnumNext = s.work.lnumNext := rfl
@[simp] theorem State.setThreads_teamNext (s : State) (x : Tab Thread) : (s.setThreads x).work.teamNext = s.work.teamNext := rfl
@[simp] theorem State.setThreads_streams (s : State) (x : Tab Thread) : (s.setThreads x).work.streams = s.work.streams := rfl
@[simp] theorem State.setThreads_rotate (s : State) (x : Tab Thread) : (s.setThreads x).work.rotate = s.work.rotate := rfl
@[simp] theorem State.setThreads_mem (s : State) (x : Tab Thread) : (s.setThreads x).mem = s.mem := rfl
@[simp] theorem State.setThreads_xlt (s : State) (x : Tab Thread) : (s.setThreads x).xlt = s.xlt := rfl
@[simp] theorem State.setThreads_svc (s : State) (x : Tab Thread) : (s.setThreads x).svc = s.svc := rfl
@[simp] theorem State.setThreads_pkg (s : State) (x : Tab Thread) : (s.setThreads x).pkg = s.pkg := rfl
@[simp] theorem State.setThreads_agenda (s : State) (x : Tab Thread) : (s.setThreads x).agenda = s.agenda := rfl
@[simp] theorem State.setThreads_turn (s : State) (x : Tab Thread) : (s.setThreads x).turn = s.turn := rfl
@[simp] theorem State.setThreads_free (s : State) (x : Tab Thread) : (s.setThreads x).free = s.free := rfl
@[simp] theorem State.setThreads_threads (s : State) (x : Tab Thread) : (s.setThreads x).work.threads = x := rfl

/-! ## putThread -/

@[simp] theorem State.putThread_cur (s : State) (k : Nat) (t : Thread) : (s.putThread k t).work.cur = s.work.cur := rfl
@[simp] theorem State.putThread_teams (s : State) (k : Nat) (t : Thread) : (s.putThread k t).work.teams = s.work.teams := rfl
@[simp] theorem State.putThread_cores (s : State) (k : Nat) (t : Thread) : (s.putThread k t).work.cores = s.work.cores := rfl
@[simp] theorem State.putThread_launches (s : State) (k : Nat) (t : Thread) : (s.putThread k t).work.launches = s.work.launches := rfl
@[simp] theorem State.putThread_blocks (s : State) (k : Nat) (t : Thread) : (s.putThread k t).work.blocks = s.work.blocks := rfl
@[simp] theorem State.putThread_saved (s : State) (k : Nat) (t : Thread) : (s.putThread k t).work.saved = s.work.saved := rfl
@[simp] theorem State.putThread_lnumNext (s : State) (k : Nat) (t : Thread) : (s.putThread k t).work.lnumNext = s.work.lnumNext := rfl
@[simp] theorem State.putThread_teamNext (s : State) (k : Nat) (t : Thread) : (s.putThread k t).work.teamNext = s.work.teamNext := rfl
@[simp] theorem State.putThread_streams (s : State) (k : Nat) (t : Thread) : (s.putThread k t).work.streams = s.work.streams := rfl
@[simp] theorem State.putThread_rotate (s : State) (k : Nat) (t : Thread) : (s.putThread k t).work.rotate = s.work.rotate := rfl
@[simp] theorem State.putThread_mem (s : State) (k : Nat) (t : Thread) : (s.putThread k t).mem = s.mem := rfl
@[simp] theorem State.putThread_xlt (s : State) (k : Nat) (t : Thread) : (s.putThread k t).xlt = s.xlt := rfl
@[simp] theorem State.putThread_svc (s : State) (k : Nat) (t : Thread) : (s.putThread k t).svc = s.svc := rfl
@[simp] theorem State.putThread_pkg (s : State) (k : Nat) (t : Thread) : (s.putThread k t).pkg = s.pkg := rfl
@[simp] theorem State.putThread_agenda (s : State) (k : Nat) (t : Thread) : (s.putThread k t).agenda = s.agenda := rfl
@[simp] theorem State.putThread_turn (s : State) (k : Nat) (t : Thread) : (s.putThread k t).turn = s.turn := rfl
@[simp] theorem State.putThread_free (s : State) (k : Nat) (t : Thread) : (s.putThread k t).free = s.free := rfl

/-! ## mapThread -/

@[simp] theorem State.mapThread_cur (s : State) (k : Nat) (f : Thread → Thread) : (s.mapThread k f).work.cur = s.work.cur := rfl
@[simp] theorem State.mapThread_teams (s : State) (k : Nat) (f : Thread → Thread) : (s.mapThread k f).work.teams = s.work.teams := rfl
@[simp] theorem State.mapThread_cores (s : State) (k : Nat) (f : Thread → Thread) : (s.mapThread k f).work.cores = s.work.cores := rfl
@[simp] theorem State.mapThread_launches (s : State) (k : Nat) (f : Thread → Thread) : (s.mapThread k f).work.launches = s.work.launches := rfl
@[simp] theorem State.mapThread_blocks (s : State) (k : Nat) (f : Thread → Thread) : (s.mapThread k f).work.blocks = s.work.blocks := rfl
@[simp] theorem State.mapThread_saved (s : State) (k : Nat) (f : Thread → Thread) : (s.mapThread k f).work.saved = s.work.saved := rfl
@[simp] theorem State.mapThread_lnumNext (s : State) (k : Nat) (f : Thread → Thread) : (s.mapThread k f).work.lnumNext = s.work.lnumNext := rfl
@[simp] theorem State.mapThread_teamNext (s : State) (k : Nat) (f : Thread → Thread) : (s.mapThread k f).work.teamNext = s.work.teamNext := rfl
@[simp] theorem State.mapThread_streams (s : State) (k : Nat) (f : Thread → Thread) : (s.mapThread k f).work.streams = s.work.streams := rfl
@[simp] theorem State.mapThread_rotate (s : State) (k : Nat) (f : Thread → Thread) : (s.mapThread k f).work.rotate = s.work.rotate := rfl
@[simp] theorem State.mapThread_mem (s : State) (k : Nat) (f : Thread → Thread) : (s.mapThread k f).mem = s.mem := rfl
@[simp] theorem State.mapThread_xlt (s : State) (k : Nat) (f : Thread → Thread) : (s.mapThread k f).xlt = s.xlt := rfl
@[simp] theorem State.mapThread_svc (s : State) (k : Nat) (f : Thread → Thread) : (s.mapThread k f).svc = s.svc := rfl
@[simp] theorem State.mapThread_pkg (s : State) (k : Nat) (f : Thread → Thread) : (s.mapThread k f).pkg = s.pkg := rfl
@[simp] theorem State.mapThread_agenda (s : State) (k : Nat) (f : Thread → Thread) : (s.mapThread k f).agenda = s.agenda := rfl
@[simp] theorem State.mapThread_turn (s : State) (k : Nat) (f : Thread → Thread) : (s.mapThread k f).turn = s.turn := rfl
@[simp] theorem State.mapThread_free (s : State) (k : Nat) (f : Thread → Thread) : (s.mapThread k f).free = s.free := rfl

/-! ## mapTh -/

@[simp] theorem State.mapTh_cur (s : State) (f : Thread → Thread) : (s.mapTh f).work.cur = s.work.cur := rfl
@[simp] theorem State.mapTh_teams (s : State) (f : Thread → Thread) : (s.mapTh f).work.teams = s.work.teams := rfl
@[simp] theorem State.mapTh_cores (s : State) (f : Thread → Thread) : (s.mapTh f).work.cores = s.work.cores := rfl
@[simp] theorem State.mapTh_launches (s : State) (f : Thread → Thread) : (s.mapTh f).work.launches = s.work.launches := rfl
@[simp] theorem State.mapTh_blocks (s : State) (f : Thread → Thread) : (s.mapTh f).work.blocks = s.work.blocks := rfl
@[simp] theorem State.mapTh_saved (s : State) (f : Thread → Thread) : (s.mapTh f).work.saved = s.work.saved := rfl
@[simp] theorem State.mapTh_lnumNext (s : State) (f : Thread → Thread) : (s.mapTh f).work.lnumNext = s.work.lnumNext := rfl
@[simp] theorem State.mapTh_teamNext (s : State) (f : Thread → Thread) : (s.mapTh f).work.teamNext = s.work.teamNext := rfl
@[simp] theorem State.mapTh_streams (s : State) (f : Thread → Thread) : (s.mapTh f).work.streams = s.work.streams := rfl
@[simp] theorem State.mapTh_rotate (s : State) (f : Thread → Thread) : (s.mapTh f).work.rotate = s.work.rotate := rfl
@[simp] theorem State.mapTh_mem (s : State) (f : Thread → Thread) : (s.mapTh f).mem = s.mem := rfl
@[simp] theorem State.mapTh_xlt (s : State) (f : Thread → Thread) : (s.mapTh f).xlt = s.xlt := rfl
@[simp] theorem State.mapTh_svc (s : State) (f : Thread → Thread) : (s.mapTh f).svc = s.svc := rfl
@[simp] theorem State.mapTh_pkg (s : State) (f : Thread → Thread) : (s.mapTh f).pkg = s.pkg := rfl
@[simp] theorem State.mapTh_agenda (s : State) (f : Thread → Thread) : (s.mapTh f).agenda = s.agenda := rfl
@[simp] theorem State.mapTh_turn (s : State) (f : Thread → Thread) : (s.mapTh f).turn = s.turn := rfl
@[simp] theorem State.mapTh_free (s : State) (f : Thread → Thread) : (s.mapTh f).free = s.free := rfl

/-! ## setCur -/

@[simp] theorem State.setCur_threads (s : State) (k : Nat) : (s.setCur k).work.threads = s.work.threads := rfl
@[simp] theorem State.setCur_teams (s : State) (k : Nat) : (s.setCur k).work.teams = s.work.teams := rfl
@[simp] theorem State.setCur_cores (s : State) (k : Nat) : (s.setCur k).work.cores = s.work.cores := rfl
@[simp] theorem State.setCur_launches (s : State) (k : Nat) : (s.setCur k).work.launches = s.work.launches := rfl
@[simp] theorem State.setCur_blocks (s : State) (k : Nat) : (s.setCur k).work.blocks = s.work.blocks := rfl
@[simp] theorem State.setCur_saved (s : State) (k : Nat) : (s.setCur k).work.saved = s.work.saved := rfl
@[simp] theorem State.setCur_lnumNext (s : State) (k : Nat) : (s.setCur k).work.lnumNext = s.work.lnumNext := rfl
@[simp] theorem State.setCur_teamNext (s : State) (k : Nat) : (s.setCur k).work.teamNext = s.work.teamNext := rfl
@[simp] theorem State.setCur_streams (s : State) (k : Nat) : (s.setCur k).work.streams = s.work.streams := rfl
@[simp] theorem State.setCur_rotate (s : State) (k : Nat) : (s.setCur k).work.rotate = s.work.rotate := rfl
@[simp] theorem State.setCur_mem (s : State) (k : Nat) : (s.setCur k).mem = s.mem := rfl
@[simp] theorem State.setCur_xlt (s : State) (k : Nat) : (s.setCur k).xlt = s.xlt := rfl
@[simp] theorem State.setCur_svc (s : State) (k : Nat) : (s.setCur k).svc = s.svc := rfl
@[simp] theorem State.setCur_pkg (s : State) (k : Nat) : (s.setCur k).pkg = s.pkg := rfl
@[simp] theorem State.setCur_agenda (s : State) (k : Nat) : (s.setCur k).agenda = s.agenda := rfl
@[simp] theorem State.setCur_turn (s : State) (k : Nat) : (s.setCur k).turn = s.turn := rfl
@[simp] theorem State.setCur_free (s : State) (k : Nat) : (s.setCur k).free = s.free := rfl
@[simp] theorem State.setCur_cur (s : State) (k : Nat) : (s.setCur k).work.cur = k := rfl

/-! ## mapTeam -/

@[simp] theorem State.mapTeam_threads (s : State) (k : Nat) (f : Team → Team) : (s.mapTeam k f).work.threads = s.work.threads := rfl
@[simp] theorem State.mapTeam_cur (s : State) (k : Nat) (f : Team → Team) : (s.mapTeam k f).work.cur = s.work.cur := rfl
@[simp] theorem State.mapTeam_cores (s : State) (k : Nat) (f : Team → Team) : (s.mapTeam k f).work.cores = s.work.cores := rfl
@[simp] theorem State.mapTeam_launches (s : State) (k : Nat) (f : Team → Team) : (s.mapTeam k f).work.launches = s.work.launches := rfl
@[simp] theorem State.mapTeam_blocks (s : State) (k : Nat) (f : Team → Team) : (s.mapTeam k f).work.blocks = s.work.blocks := rfl
@[simp] theorem State.mapTeam_saved (s : State) (k : Nat) (f : Team → Team) : (s.mapTeam k f).work.saved = s.work.saved := rfl
@[simp] theorem State.mapTeam_lnumNext (s : State) (k : Nat) (f : Team → Team) : (s.mapTeam k f).work.lnumNext = s.work.lnumNext := rfl
@[simp] theorem State.mapTeam_teamNext (s : State) (k : Nat) (f : Team → Team) : (s.mapTeam k f).work.teamNext = s.work.teamNext := rfl
@[simp] theorem State.mapTeam_streams (s : State) (k : Nat) (f : Team → Team) : (s.mapTeam k f).work.streams = s.work.streams := rfl
@[simp] theorem State.mapTeam_rotate (s : State) (k : Nat) (f : Team → Team) : (s.mapTeam k f).work.rotate = s.work.rotate := rfl
@[simp] theorem State.mapTeam_mem (s : State) (k : Nat) (f : Team → Team) : (s.mapTeam k f).mem = s.mem := rfl
@[simp] theorem State.mapTeam_xlt (s : State) (k : Nat) (f : Team → Team) : (s.mapTeam k f).xlt = s.xlt := rfl
@[simp] theorem State.mapTeam_svc (s : State) (k : Nat) (f : Team → Team) : (s.mapTeam k f).svc = s.svc := rfl
@[simp] theorem State.mapTeam_pkg (s : State) (k : Nat) (f : Team → Team) : (s.mapTeam k f).pkg = s.pkg := rfl
@[simp] theorem State.mapTeam_agenda (s : State) (k : Nat) (f : Team → Team) : (s.mapTeam k f).agenda = s.agenda := rfl
@[simp] theorem State.mapTeam_turn (s : State) (k : Nat) (f : Team → Team) : (s.mapTeam k f).turn = s.turn := rfl
@[simp] theorem State.mapTeam_free (s : State) (k : Nat) (f : Team → Team) : (s.mapTeam k f).free = s.free := rfl

/-! ## mapCore -/

@[simp] theorem State.mapCore_threads (s : State) (c : Nat) (f : Core → Core) : (s.mapCore c f).work.threads = s.work.threads := rfl
@[simp] theorem State.mapCore_cur (s : State) (c : Nat) (f : Core → Core) : (s.mapCore c f).work.cur = s.work.cur := rfl
@[simp] theorem State.mapCore_teams (s : State) (c : Nat) (f : Core → Core) : (s.mapCore c f).work.teams = s.work.teams := rfl
@[simp] theorem State.mapCore_launches (s : State) (c : Nat) (f : Core → Core) : (s.mapCore c f).work.launches = s.work.launches := rfl
@[simp] theorem State.mapCore_blocks (s : State) (c : Nat) (f : Core → Core) : (s.mapCore c f).work.blocks = s.work.blocks := rfl
@[simp] theorem State.mapCore_saved (s : State) (c : Nat) (f : Core → Core) : (s.mapCore c f).work.saved = s.work.saved := rfl
@[simp] theorem State.mapCore_lnumNext (s : State) (c : Nat) (f : Core → Core) : (s.mapCore c f).work.lnumNext = s.work.lnumNext := rfl
@[simp] theorem State.mapCore_teamNext (s : State) (c : Nat) (f : Core → Core) : (s.mapCore c f).work.teamNext = s.work.teamNext := rfl
@[simp] theorem State.mapCore_streams (s : State) (c : Nat) (f : Core → Core) : (s.mapCore c f).work.streams = s.work.streams := rfl
@[simp] theorem State.mapCore_rotate (s : State) (c : Nat) (f : Core → Core) : (s.mapCore c f).work.rotate = s.work.rotate := rfl
@[simp] theorem State.mapCore_mem (s : State) (c : Nat) (f : Core → Core) : (s.mapCore c f).mem = s.mem := rfl
@[simp] theorem State.mapCore_xlt (s : State) (c : Nat) (f : Core → Core) : (s.mapCore c f).xlt = s.xlt := rfl
@[simp] theorem State.mapCore_svc (s : State) (c : Nat) (f : Core → Core) : (s.mapCore c f).svc = s.svc := rfl
@[simp] theorem State.mapCore_pkg (s : State) (c : Nat) (f : Core → Core) : (s.mapCore c f).pkg = s.pkg := rfl
@[simp] theorem State.mapCore_agenda (s : State) (c : Nat) (f : Core → Core) : (s.mapCore c f).agenda = s.agenda := rfl
@[simp] theorem State.mapCore_turn (s : State) (c : Nat) (f : Core → Core) : (s.mapCore c f).turn = s.turn := rfl
@[simp] theorem State.mapCore_free (s : State) (c : Nat) (f : Core → Core) : (s.mapCore c f).free = s.free := rfl

/-! ## mapLaunch -/

@[simp] theorem State.mapLaunch_threads (s : State) (n : Nat) (f : Launch → Launch) : (s.mapLaunch n f).work.threads = s.work.threads := rfl
@[simp] theorem State.mapLaunch_cur (s : State) (n : Nat) (f : Launch → Launch) : (s.mapLaunch n f).work.cur = s.work.cur := rfl
@[simp] theorem State.mapLaunch_teams (s : State) (n : Nat) (f : Launch → Launch) : (s.mapLaunch n f).work.teams = s.work.teams := rfl
@[simp] theorem State.mapLaunch_cores (s : State) (n : Nat) (f : Launch → Launch) : (s.mapLaunch n f).work.cores = s.work.cores := rfl
@[simp] theorem State.mapLaunch_blocks (s : State) (n : Nat) (f : Launch → Launch) : (s.mapLaunch n f).work.blocks = s.work.blocks := rfl
@[simp] theorem State.mapLaunch_saved (s : State) (n : Nat) (f : Launch → Launch) : (s.mapLaunch n f).work.saved = s.work.saved := rfl
@[simp] theorem State.mapLaunch_lnumNext (s : State) (n : Nat) (f : Launch → Launch) : (s.mapLaunch n f).work.lnumNext = s.work.lnumNext := rfl
@[simp] theorem State.mapLaunch_teamNext (s : State) (n : Nat) (f : Launch → Launch) : (s.mapLaunch n f).work.teamNext = s.work.teamNext := rfl
@[simp] theorem State.mapLaunch_streams (s : State) (n : Nat) (f : Launch → Launch) : (s.mapLaunch n f).work.streams = s.work.streams := rfl
@[simp] theorem State.mapLaunch_rotate (s : State) (n : Nat) (f : Launch → Launch) : (s.mapLaunch n f).work.rotate = s.work.rotate := rfl
@[simp] theorem State.mapLaunch_mem (s : State) (n : Nat) (f : Launch → Launch) : (s.mapLaunch n f).mem = s.mem := rfl
@[simp] theorem State.mapLaunch_xlt (s : State) (n : Nat) (f : Launch → Launch) : (s.mapLaunch n f).xlt = s.xlt := rfl
@[simp] theorem State.mapLaunch_svc (s : State) (n : Nat) (f : Launch → Launch) : (s.mapLaunch n f).svc = s.svc := rfl
@[simp] theorem State.mapLaunch_pkg (s : State) (n : Nat) (f : Launch → Launch) : (s.mapLaunch n f).pkg = s.pkg := rfl
@[simp] theorem State.mapLaunch_agenda (s : State) (n : Nat) (f : Launch → Launch) : (s.mapLaunch n f).agenda = s.agenda := rfl
@[simp] theorem State.mapLaunch_turn (s : State) (n : Nat) (f : Launch → Launch) : (s.mapLaunch n f).turn = s.turn := rfl
@[simp] theorem State.mapLaunch_free (s : State) (n : Nat) (f : Launch → Launch) : (s.mapLaunch n f).free = s.free := rfl

/-! ## tick -/

@[simp] theorem State.tick_threads (s : State) : (s.tick ).work.threads = s.work.threads := rfl
@[simp] theorem State.tick_cur (s : State) : (s.tick ).work.cur = s.work.cur := rfl
@[simp] theorem State.tick_teams (s : State) : (s.tick ).work.teams = s.work.teams := rfl
@[simp] theorem State.tick_cores (s : State) : (s.tick ).work.cores = s.work.cores := rfl
@[simp] theorem State.tick_launches (s : State) : (s.tick ).work.launches = s.work.launches := rfl
@[simp] theorem State.tick_blocks (s : State) : (s.tick ).work.blocks = s.work.blocks := rfl
@[simp] theorem State.tick_saved (s : State) : (s.tick ).work.saved = s.work.saved := rfl
@[simp] theorem State.tick_lnumNext (s : State) : (s.tick ).work.lnumNext = s.work.lnumNext := rfl
@[simp] theorem State.tick_teamNext (s : State) : (s.tick ).work.teamNext = s.work.teamNext := rfl
@[simp] theorem State.tick_streams (s : State) : (s.tick ).work.streams = s.work.streams := rfl
@[simp] theorem State.tick_rotate (s : State) : (s.tick ).work.rotate = s.work.rotate := rfl
@[simp] theorem State.tick_mem (s : State) : (s.tick ).mem = s.mem := rfl
@[simp] theorem State.tick_xlt (s : State) : (s.tick ).xlt = s.xlt := rfl
@[simp] theorem State.tick_svc (s : State) : (s.tick ).svc = s.svc := rfl
@[simp] theorem State.tick_pkg (s : State) : (s.tick ).pkg = s.pkg := rfl
@[simp] theorem State.tick_agenda (s : State) : (s.tick ).agenda = s.agenda := rfl
@[simp] theorem State.tick_turn (s : State) : (s.tick ).turn = s.turn := rfl

/-! ## setS -/

@[simp] theorem State.setS_cur (s : State) (d : BitVec 7) (v : Word) : (s.setS d v).work.cur = s.work.cur := rfl
@[simp] theorem State.setS_teams (s : State) (d : BitVec 7) (v : Word) : (s.setS d v).work.teams = s.work.teams := rfl
@[simp] theorem State.setS_cores (s : State) (d : BitVec 7) (v : Word) : (s.setS d v).work.cores = s.work.cores := rfl
@[simp] theorem State.setS_launches (s : State) (d : BitVec 7) (v : Word) : (s.setS d v).work.launches = s.work.launches := rfl
@[simp] theorem State.setS_blocks (s : State) (d : BitVec 7) (v : Word) : (s.setS d v).work.blocks = s.work.blocks := rfl
@[simp] theorem State.setS_saved (s : State) (d : BitVec 7) (v : Word) : (s.setS d v).work.saved = s.work.saved := rfl
@[simp] theorem State.setS_lnumNext (s : State) (d : BitVec 7) (v : Word) : (s.setS d v).work.lnumNext = s.work.lnumNext := rfl
@[simp] theorem State.setS_teamNext (s : State) (d : BitVec 7) (v : Word) : (s.setS d v).work.teamNext = s.work.teamNext := rfl
@[simp] theorem State.setS_streams (s : State) (d : BitVec 7) (v : Word) : (s.setS d v).work.streams = s.work.streams := rfl
@[simp] theorem State.setS_rotate (s : State) (d : BitVec 7) (v : Word) : (s.setS d v).work.rotate = s.work.rotate := rfl
@[simp] theorem State.setS_mem (s : State) (d : BitVec 7) (v : Word) : (s.setS d v).mem = s.mem := rfl
@[simp] theorem State.setS_xlt (s : State) (d : BitVec 7) (v : Word) : (s.setS d v).xlt = s.xlt := rfl
@[simp] theorem State.setS_svc (s : State) (d : BitVec 7) (v : Word) : (s.setS d v).svc = s.svc := rfl
@[simp] theorem State.setS_pkg (s : State) (d : BitVec 7) (v : Word) : (s.setS d v).pkg = s.pkg := rfl
@[simp] theorem State.setS_agenda (s : State) (d : BitVec 7) (v : Word) : (s.setS d v).agenda = s.agenda := rfl
@[simp] theorem State.setS_turn (s : State) (d : BitVec 7) (v : Word) : (s.setS d v).turn = s.turn := rfl
@[simp] theorem State.setS_free (s : State) (d : BitVec 7) (v : Word) : (s.setS d v).free = s.free := rfl

/-! ## setM -/

@[simp] theorem State.setM_cur (s : State) (k : BitVec 3) (v : Mask) : (s.setM k v).work.cur = s.work.cur := rfl
@[simp] theorem State.setM_teams (s : State) (k : BitVec 3) (v : Mask) : (s.setM k v).work.teams = s.work.teams := rfl
@[simp] theorem State.setM_cores (s : State) (k : BitVec 3) (v : Mask) : (s.setM k v).work.cores = s.work.cores := rfl
@[simp] theorem State.setM_launches (s : State) (k : BitVec 3) (v : Mask) : (s.setM k v).work.launches = s.work.launches := rfl
@[simp] theorem State.setM_blocks (s : State) (k : BitVec 3) (v : Mask) : (s.setM k v).work.blocks = s.work.blocks := rfl
@[simp] theorem State.setM_saved (s : State) (k : BitVec 3) (v : Mask) : (s.setM k v).work.saved = s.work.saved := rfl
@[simp] theorem State.setM_lnumNext (s : State) (k : BitVec 3) (v : Mask) : (s.setM k v).work.lnumNext = s.work.lnumNext := rfl
@[simp] theorem State.setM_teamNext (s : State) (k : BitVec 3) (v : Mask) : (s.setM k v).work.teamNext = s.work.teamNext := rfl
@[simp] theorem State.setM_streams (s : State) (k : BitVec 3) (v : Mask) : (s.setM k v).work.streams = s.work.streams := rfl
@[simp] theorem State.setM_rotate (s : State) (k : BitVec 3) (v : Mask) : (s.setM k v).work.rotate = s.work.rotate := rfl
@[simp] theorem State.setM_mem (s : State) (k : BitVec 3) (v : Mask) : (s.setM k v).mem = s.mem := rfl
@[simp] theorem State.setM_xlt (s : State) (k : BitVec 3) (v : Mask) : (s.setM k v).xlt = s.xlt := rfl
@[simp] theorem State.setM_svc (s : State) (k : BitVec 3) (v : Mask) : (s.setM k v).svc = s.svc := rfl
@[simp] theorem State.setM_pkg (s : State) (k : BitVec 3) (v : Mask) : (s.setM k v).pkg = s.pkg := rfl
@[simp] theorem State.setM_agenda (s : State) (k : BitVec 3) (v : Mask) : (s.setM k v).agenda = s.agenda := rfl
@[simp] theorem State.setM_turn (s : State) (k : BitVec 3) (v : Mask) : (s.setM k v).turn = s.turn := rfl
@[simp] theorem State.setM_free (s : State) (k : BitVec 3) (v : Mask) : (s.setM k v).free = s.free := rfl

/-! ## advance -/

@[simp] theorem State.advance_cur (s : State) (e : Bool) : (s.advance e).work.cur = s.work.cur := rfl
@[simp] theorem State.advance_teams (s : State) (e : Bool) : (s.advance e).work.teams = s.work.teams := rfl
@[simp] theorem State.advance_cores (s : State) (e : Bool) : (s.advance e).work.cores = s.work.cores := rfl
@[simp] theorem State.advance_launches (s : State) (e : Bool) : (s.advance e).work.launches = s.work.launches := rfl
@[simp] theorem State.advance_blocks (s : State) (e : Bool) : (s.advance e).work.blocks = s.work.blocks := rfl
@[simp] theorem State.advance_saved (s : State) (e : Bool) : (s.advance e).work.saved = s.work.saved := rfl
@[simp] theorem State.advance_lnumNext (s : State) (e : Bool) : (s.advance e).work.lnumNext = s.work.lnumNext := rfl
@[simp] theorem State.advance_teamNext (s : State) (e : Bool) : (s.advance e).work.teamNext = s.work.teamNext := rfl
@[simp] theorem State.advance_streams (s : State) (e : Bool) : (s.advance e).work.streams = s.work.streams := rfl
@[simp] theorem State.advance_rotate (s : State) (e : Bool) : (s.advance e).work.rotate = s.work.rotate := rfl
@[simp] theorem State.advance_mem (s : State) (e : Bool) : (s.advance e).mem = s.mem := rfl
@[simp] theorem State.advance_xlt (s : State) (e : Bool) : (s.advance e).xlt = s.xlt := rfl
@[simp] theorem State.advance_svc (s : State) (e : Bool) : (s.advance e).svc = s.svc := rfl
@[simp] theorem State.advance_pkg (s : State) (e : Bool) : (s.advance e).pkg = s.pkg := rfl
@[simp] theorem State.advance_agenda (s : State) (e : Bool) : (s.advance e).agenda = s.agenda := rfl
@[simp] theorem State.advance_turn (s : State) (e : Bool) : (s.advance e).turn = s.turn := rfl
@[simp] theorem State.advance_free (s : State) (e : Bool) : (s.advance e).free = s.free := rfl

/-! ## Reads -/

theorem State.tick_next (s : State) : s.tick.free = s.free + 1 := rfl

@[simp] theorem State.thread_putThread (s : State) (k : Nat) (t : Thread) : (s.putThread k t).thread k = t := by
  simp [State.thread, State.putThread, State.setThreads]

theorem State.thread_putThread_ne (s : State) (k j : Nat) (t : Thread) (h : j ≠ k) : (s.putThread k t).thread j = s.thread j := by
  simp [State.thread, State.putThread, State.setThreads, h]

@[simp] theorem State.thread_mapThread (s : State) (k : Nat) (f : Thread → Thread) : (s.mapThread k f).thread k = f (s.thread k) := by
  simp [State.mapThread]

theorem State.thread_mapThread_ne (s : State) (k j : Nat) (f : Thread → Thread) (h : j ≠ k) :
    (s.mapThread k f).thread j = s.thread j := by
  simp [State.mapThread, State.thread_putThread_ne, h]

@[simp] theorem State.th_mapTh (s : State) (f : Thread → Thread) : (s.mapTh f).th = f s.th := by
  simp [State.mapTh, State.th]

theorem State.thread_mapTh_ne (s : State) (j : Nat) (f : Thread → Thread) (h : j ≠ s.work.cur) :
    (s.mapTh f).thread j = s.thread j := by
  simp [State.mapTh, State.thread_mapThread_ne, h]

@[simp] theorem State.th_setS (s : State) (d : BitVec 7) (v : Word) :
    (s.setS d v).th = s.th.mapRegs (fun r => r.setS (s.th.abs d) v) := by
  simp [State.setS]

@[simp] theorem State.th_advance (s : State) (e : Bool) : (s.advance e).th = (s.th.endRegion e).advance := by
  simp [State.advance]

@[simp] theorem State.thread_mapTeam (s : State) (k j : Nat) (f : Team → Team) : (s.mapTeam k f).thread j = s.thread j := rfl
@[simp] theorem State.th_mapTeam (s : State) (k : Nat) (f : Team → Team) : (s.mapTeam k f).th = s.th := rfl
@[simp] theorem State.thread_mapCore (s : State) (c j : Nat) (f : Core → Core) : (s.mapCore c f).thread j = s.thread j := rfl
@[simp] theorem State.th_mapCore (s : State) (c : Nat) (f : Core → Core) : (s.mapCore c f).th = s.th := rfl

@[simp] theorem State.team_mapTeam (s : State) (k : Nat) (f : Team → Team) : (s.mapTeam k f).team k = f (s.team k) := by
  simp [State.team, State.mapTeam]

theorem State.team_mapTeam_ne (s : State) (k j : Nat) (f : Team → Team) (h : j ≠ k) : (s.mapTeam k f).team j = s.team j := by
  simp [State.team, State.mapTeam, h]

@[simp] theorem State.core_mapCore (s : State) (c : Nat) (f : Core → Core) : (s.mapCore c f).core c = f (s.core c) := by
  simp [State.core, State.mapCore]

theorem State.core_mapCore_ne (s : State) (c j : Nat) (f : Core → Core) (h : j ≠ c) : (s.mapCore c f).core j = s.core j := by
  simp [State.core, State.mapCore, h]

@[simp] theorem State.team_putThread (s : State) (k j : Nat) (t : Thread) : (s.putThread k t).team j = s.team j := rfl
@[simp] theorem State.core_putThread (s : State) (k j : Nat) (t : Thread) : (s.putThread k t).core j = s.core j := rfl
@[simp] theorem State.team_mapTh (s : State) (f : Thread → Thread) (j : Nat) : (s.mapTh f).team j = s.team j := rfl
@[simp] theorem State.core_mapTh (s : State) (f : Thread → Thread) (j : Nat) : (s.mapTh f).core j = s.core j := rfl

/-! ## Threads -/

@[simp] theorem Thread.goto_kind (t : Thread) (h : Word) : (t.goto h).kind = t.kind := rfl
@[simp] theorem Thread.goto_status (t : Thread) (h : Word) : (t.goto h).status = t.status := rfl
@[simp] theorem Thread.goto_ident (t : Thread) (h : Word) : (t.goto h).ident = t.ident := rfl
@[simp] theorem Thread.goto_priv (t : Thread) (h : Word) : (t.goto h).priv = t.priv := rfl
@[simp] theorem Thread.goto_regs (t : Thread) (h : Word) : (t.goto h).regs = t.regs := rfl
@[simp] theorem Thread.goto_rm (t : Thread) (h : Word) : (t.goto h).rm = t.rm := rfl
@[simp] theorem Thread.goto_xltRoot (t : Thread) (h : Word) : (t.goto h).xltRoot = t.xltRoot := rfl
@[simp] theorem Thread.goto_xltAsid (t : Thread) (h : Word) : (t.goto h).xltAsid = t.xltAsid := rfl
@[simp] theorem Thread.goto_wc (t : Thread) (h : Word) : (t.goto h).wc = t.wc := rfl
@[simp] theorem Thread.goto_wcScope (t : Thread) (h : Word) : (t.goto h).wcScope = t.wcScope := rfl
@[simp] theorem Thread.goto_pstack (t : Thread) (h : Word) : (t.goto h).pstack = t.pstack := rfl
@[simp] theorem Thread.goto_region (t : Thread) (h : Word) : (t.goto h).region = t.region := rfl
@[simp] theorem Thread.goto_gap (t : Thread) (h : Word) : (t.goto h).gap = t.gap := rfl
@[simp] theorem Thread.goto_trap (t : Thread) (h : Word) : (t.goto h).trap = t.trap := rfl
@[simp] theorem Thread.goto_res (t : Thread) (h : Word) : (t.goto h).res = t.res := rfl
@[simp] theorem Thread.goto_gang (t : Thread) (h : Word) : (t.goto h).gang = t.gang := rfl
@[simp] theorem Thread.goto_reuse (t : Thread) (h : Word) : (t.goto h).reuse = t.reuse := rfl
@[simp] theorem Thread.goto_wait (t : Thread) (h : Word) : (t.goto h).wait = t.wait := rfl
@[simp] theorem Thread.goto_barRec (t : Thread) (h : Word) : (t.goto h).barRec = t.barRec := rfl
@[simp] theorem Thread.goto_producers (t : Thread) (h : Word) : (t.goto h).producers = t.producers := rfl
@[simp] theorem Thread.goto_park (t : Thread) (h : Word) : (t.goto h).park = t.park := rfl
@[simp] theorem Thread.goto_later (t : Thread) (h : Word) : (t.goto h).later = t.later := rfl
@[simp] theorem Thread.goto_stuck (t : Thread) (h : Word) : (t.goto h).stuck = t.stuck := rfl
@[simp] theorem Thread.goto_tx (t : Thread) (h : Word) : (t.goto h).tx = t.tx := rfl

@[simp] theorem Thread.endRegion_kind (t : Thread) (e : Bool) : (t.endRegion e).kind = t.kind := by
  unfold Thread.endRegion; split <;> rfl
@[simp] theorem Thread.endRegion_status (t : Thread) (e : Bool) : (t.endRegion e).status = t.status := by
  unfold Thread.endRegion; split <;> rfl
@[simp] theorem Thread.endRegion_ident (t : Thread) (e : Bool) : (t.endRegion e).ident = t.ident := by
  unfold Thread.endRegion; split <;> rfl
@[simp] theorem Thread.endRegion_priv (t : Thread) (e : Bool) : (t.endRegion e).priv = t.priv := by
  unfold Thread.endRegion; split <;> rfl
@[simp] theorem Thread.endRegion_regs (t : Thread) (e : Bool) : (t.endRegion e).regs = t.regs := by
  unfold Thread.endRegion; split <;> rfl
@[simp] theorem Thread.endRegion_fetch (t : Thread) (e : Bool) : (t.endRegion e).fetch = t.fetch := by
  unfold Thread.endRegion; split <;> rfl
@[simp] theorem Thread.endRegion_rm (t : Thread) (e : Bool) : (t.endRegion e).rm = t.rm := by
  unfold Thread.endRegion; split <;> rfl
@[simp] theorem Thread.endRegion_xltRoot (t : Thread) (e : Bool) : (t.endRegion e).xltRoot = t.xltRoot := by
  unfold Thread.endRegion; split <;> rfl
@[simp] theorem Thread.endRegion_xltAsid (t : Thread) (e : Bool) : (t.endRegion e).xltAsid = t.xltAsid := by
  unfold Thread.endRegion; split <;> rfl
@[simp] theorem Thread.endRegion_wc (t : Thread) (e : Bool) : (t.endRegion e).wc = t.wc := by
  unfold Thread.endRegion; split <;> rfl
@[simp] theorem Thread.endRegion_wcScope (t : Thread) (e : Bool) : (t.endRegion e).wcScope = t.wcScope := by
  unfold Thread.endRegion; split <;> rfl
@[simp] theorem Thread.endRegion_pstack (t : Thread) (e : Bool) : (t.endRegion e).pstack = t.pstack := by
  unfold Thread.endRegion; split <;> rfl
@[simp] theorem Thread.endRegion_region (t : Thread) (e : Bool) : (t.endRegion e).region = t.region := by
  unfold Thread.endRegion; split <;> rfl
@[simp] theorem Thread.endRegion_trap (t : Thread) (e : Bool) : (t.endRegion e).trap = t.trap := by
  unfold Thread.endRegion; split <;> rfl
@[simp] theorem Thread.endRegion_res (t : Thread) (e : Bool) : (t.endRegion e).res = t.res := by
  unfold Thread.endRegion; split <;> rfl
@[simp] theorem Thread.endRegion_gang (t : Thread) (e : Bool) : (t.endRegion e).gang = t.gang := by
  unfold Thread.endRegion; split <;> rfl
@[simp] theorem Thread.endRegion_reuse (t : Thread) (e : Bool) : (t.endRegion e).reuse = t.reuse := by
  unfold Thread.endRegion; split <;> rfl
@[simp] theorem Thread.endRegion_wait (t : Thread) (e : Bool) : (t.endRegion e).wait = t.wait := by
  unfold Thread.endRegion; split <;> rfl
@[simp] theorem Thread.endRegion_barRec (t : Thread) (e : Bool) : (t.endRegion e).barRec = t.barRec := by
  unfold Thread.endRegion; split <;> rfl
@[simp] theorem Thread.endRegion_producers (t : Thread) (e : Bool) : (t.endRegion e).producers = t.producers := by
  unfold Thread.endRegion; split <;> rfl
@[simp] theorem Thread.endRegion_park (t : Thread) (e : Bool) : (t.endRegion e).park = t.park := by
  unfold Thread.endRegion; split <;> rfl
@[simp] theorem Thread.endRegion_later (t : Thread) (e : Bool) : (t.endRegion e).later = t.later := by
  unfold Thread.endRegion; split <;> rfl
@[simp] theorem Thread.endRegion_stuck (t : Thread) (e : Bool) : (t.endRegion e).stuck = t.stuck := by
  unfold Thread.endRegion; split <;> rfl
@[simp] theorem Thread.endRegion_tx (t : Thread) (e : Bool) : (t.endRegion e).tx = t.tx := by
  unfold Thread.endRegion; split <;> rfl

@[simp] theorem Thread.advance_kind (t : Thread) : (t.advance).kind = t.kind := by
  unfold Thread.advance; split <;> rfl
@[simp] theorem Thread.advance_status (t : Thread) : (t.advance).status = t.status := by
  unfold Thread.advance; split <;> rfl
@[simp] theorem Thread.advance_ident (t : Thread) : (t.advance).ident = t.ident := by
  unfold Thread.advance; split <;> rfl
@[simp] theorem Thread.advance_priv (t : Thread) : (t.advance).priv = t.priv := by
  unfold Thread.advance; split <;> rfl
@[simp] theorem Thread.advance_regs (t : Thread) : (t.advance).regs = t.regs := by
  unfold Thread.advance; split <;> rfl
@[simp] theorem Thread.advance_rm (t : Thread) : (t.advance).rm = t.rm := by
  unfold Thread.advance; split <;> rfl
@[simp] theorem Thread.advance_xltRoot (t : Thread) : (t.advance).xltRoot = t.xltRoot := by
  unfold Thread.advance; split <;> rfl
@[simp] theorem Thread.advance_xltAsid (t : Thread) : (t.advance).xltAsid = t.xltAsid := by
  unfold Thread.advance; split <;> rfl
@[simp] theorem Thread.advance_wc (t : Thread) : (t.advance).wc = t.wc := by
  unfold Thread.advance; split <;> rfl
@[simp] theorem Thread.advance_wcScope (t : Thread) : (t.advance).wcScope = t.wcScope := by
  unfold Thread.advance; split <;> rfl
@[simp] theorem Thread.advance_pstack (t : Thread) : (t.advance).pstack = t.pstack := by
  unfold Thread.advance; split <;> rfl
@[simp] theorem Thread.advance_region (t : Thread) : (t.advance).region = t.region := by
  unfold Thread.advance; split <;> rfl
@[simp] theorem Thread.advance_gap (t : Thread) : (t.advance).gap = t.gap := by
  unfold Thread.advance; split <;> rfl
@[simp] theorem Thread.advance_trap (t : Thread) : (t.advance).trap = t.trap := by
  unfold Thread.advance; split <;> rfl
@[simp] theorem Thread.advance_res (t : Thread) : (t.advance).res = t.res := by
  unfold Thread.advance; split <;> rfl
@[simp] theorem Thread.advance_gang (t : Thread) : (t.advance).gang = t.gang := by
  unfold Thread.advance; split <;> rfl
@[simp] theorem Thread.advance_reuse (t : Thread) : (t.advance).reuse = t.reuse := by
  unfold Thread.advance; split <;> rfl
@[simp] theorem Thread.advance_wait (t : Thread) : (t.advance).wait = t.wait := by
  unfold Thread.advance; split <;> rfl
@[simp] theorem Thread.advance_barRec (t : Thread) : (t.advance).barRec = t.barRec := by
  unfold Thread.advance; split <;> rfl
@[simp] theorem Thread.advance_producers (t : Thread) : (t.advance).producers = t.producers := by
  unfold Thread.advance; split <;> rfl
@[simp] theorem Thread.advance_park (t : Thread) : (t.advance).park = t.park := by
  unfold Thread.advance; split <;> rfl
@[simp] theorem Thread.advance_later (t : Thread) : (t.advance).later = t.later := by
  unfold Thread.advance; split <;> rfl
@[simp] theorem Thread.advance_stuck (t : Thread) : (t.advance).stuck = t.stuck := by
  unfold Thread.advance; split <;> rfl
@[simp] theorem Thread.advance_tx (t : Thread) : (t.advance).tx = t.tx := by
  unfold Thread.advance; split <;> rfl

@[simp] theorem Thread.mapRegs_kind (t : Thread) (f : Regs → Regs) : (t.mapRegs f).kind = t.kind := rfl
@[simp] theorem Thread.mapRegs_status (t : Thread) (f : Regs → Regs) : (t.mapRegs f).status = t.status := rfl
@[simp] theorem Thread.mapRegs_ident (t : Thread) (f : Regs → Regs) : (t.mapRegs f).ident = t.ident := rfl
@[simp] theorem Thread.mapRegs_priv (t : Thread) (f : Regs → Regs) : (t.mapRegs f).priv = t.priv := rfl
@[simp] theorem Thread.mapRegs_fetch (t : Thread) (f : Regs → Regs) : (t.mapRegs f).fetch = t.fetch := rfl
@[simp] theorem Thread.mapRegs_rm (t : Thread) (f : Regs → Regs) : (t.mapRegs f).rm = t.rm := rfl
@[simp] theorem Thread.mapRegs_xltRoot (t : Thread) (f : Regs → Regs) : (t.mapRegs f).xltRoot = t.xltRoot := rfl
@[simp] theorem Thread.mapRegs_xltAsid (t : Thread) (f : Regs → Regs) : (t.mapRegs f).xltAsid = t.xltAsid := rfl
@[simp] theorem Thread.mapRegs_wc (t : Thread) (f : Regs → Regs) : (t.mapRegs f).wc = t.wc := rfl
@[simp] theorem Thread.mapRegs_wcScope (t : Thread) (f : Regs → Regs) : (t.mapRegs f).wcScope = t.wcScope := rfl
@[simp] theorem Thread.mapRegs_pstack (t : Thread) (f : Regs → Regs) : (t.mapRegs f).pstack = t.pstack := rfl
@[simp] theorem Thread.mapRegs_region (t : Thread) (f : Regs → Regs) : (t.mapRegs f).region = t.region := rfl
@[simp] theorem Thread.mapRegs_gap (t : Thread) (f : Regs → Regs) : (t.mapRegs f).gap = t.gap := rfl
@[simp] theorem Thread.mapRegs_trap (t : Thread) (f : Regs → Regs) : (t.mapRegs f).trap = t.trap := rfl
@[simp] theorem Thread.mapRegs_res (t : Thread) (f : Regs → Regs) : (t.mapRegs f).res = t.res := rfl
@[simp] theorem Thread.mapRegs_gang (t : Thread) (f : Regs → Regs) : (t.mapRegs f).gang = t.gang := rfl
@[simp] theorem Thread.mapRegs_reuse (t : Thread) (f : Regs → Regs) : (t.mapRegs f).reuse = t.reuse := rfl
@[simp] theorem Thread.mapRegs_wait (t : Thread) (f : Regs → Regs) : (t.mapRegs f).wait = t.wait := rfl
@[simp] theorem Thread.mapRegs_barRec (t : Thread) (f : Regs → Regs) : (t.mapRegs f).barRec = t.barRec := rfl
@[simp] theorem Thread.mapRegs_producers (t : Thread) (f : Regs → Regs) : (t.mapRegs f).producers = t.producers := rfl
@[simp] theorem Thread.mapRegs_park (t : Thread) (f : Regs → Regs) : (t.mapRegs f).park = t.park := rfl
@[simp] theorem Thread.mapRegs_later (t : Thread) (f : Regs → Regs) : (t.mapRegs f).later = t.later := rfl
@[simp] theorem Thread.mapRegs_stuck (t : Thread) (f : Regs → Regs) : (t.mapRegs f).stuck = t.stuck := rfl
@[simp] theorem Thread.mapRegs_tx (t : Thread) (f : Regs → Regs) : (t.mapRegs f).tx = t.tx := rfl

@[simp] theorem Thread.mapRegs_regs (t : Thread) (f : Regs → Regs) : (t.mapRegs f).regs = f t.regs := rfl
@[simp] theorem Thread.goto_fetch (t : Thread) (h : Word) : (t.goto h).fetch = ⟨h, 0, []⟩ := rfl
@[simp] theorem Thread.endRegion_false (t : Thread) : t.endRegion false = t := rfl

/-! ## Registers -/

@[simp] theorem Regs.s_setS (r : Regs) (k : Nat) (v : Word) : (r.setS k v).s k = v := by simp [Regs.s, Regs.setS]

theorem Regs.s_setS_ne (r : Regs) (k j : Nat) (v : Word) (h : j ≠ k) : (r.setS k v).s j = r.s j := by
  simp [Regs.s, Regs.setS, h]

@[simp] theorem Regs.v_setS (r : Regs) (k j l : Nat) (v : Word) : (r.setS k v).v j l = r.v j l := rfl
@[simp] theorem Regs.m_setS (r : Regs) (k j : Nat) (v : Word) : (r.setS k v).m j = r.m j := rfl

@[simp] theorem Regs.v_setV (r : Regs) (k l : Nat) (v : Lane) : (r.setV k l v).v k l = v := by simp [Regs.v, Regs.setV]

theorem Regs.v_setV_ne (r : Regs) (k l j m : Nat) (v : Lane) (h : 64 * j + m ≠ 64 * k + l) : (r.setV k l v).v j m = r.v j m := by
  simp [Regs.v, Regs.setV, h]

@[simp] theorem Regs.s_setV (r : Regs) (k l j : Nat) (v : Lane) : (r.setV k l v).s j = r.s j := rfl
@[simp] theorem Regs.m_setV (r : Regs) (k l j : Nat) (v : Lane) : (r.setV k l v).m j = r.m j := rfl
@[simp] theorem Regs.m_setM (r : Regs) (k : Nat) (v : Mask) : (r.setM k v).m k = v := by simp [Regs.m, Regs.setM]

theorem Regs.m_setM_ne (r : Regs) (k j : Nat) (v : Mask) (h : j ≠ k) : (r.setM k v).m j = r.m j := by
  simp [Regs.m, Regs.setM, h]

@[simp] theorem Regs.s_setM (r : Regs) (k j : Nat) (v : Mask) : (r.setM k v).s j = r.s j := rfl
@[simp] theorem Regs.v_setM (r : Regs) (k j l : Nat) (v : Mask) : (r.setM k v).v j l = r.v j l := rfl

end Sys2Proof.Machine
end

