-- ==== Sys2Proof/Laws/Issue.lean ====
section
/-! SUPPORT. Issuing a word: what each verdict of R187 leads to, and when a word is performed. -/

namespace Sys2Proof.Machine

/-- A word is performed where no check of R187 stops it. -/
theorem verdict_go (t : Thread) (n : Need) (hi : n.illegal = false) (hd : t.kind = .distaff → n.distaff = true)
    (hs : t.kind = .group → n.simt = true) (hp : n.priv = true → t.priv = true)
    (hr : t.kind = .group → n.role.permits t.ident.role = true) (hl : n.lanes = true → t.active ≠ 0)
    (he : ∀ r ∈ n.reads, t.empty r = false) (hc : ∀ r ∈ n.reads, t.poisoned r = false)
    (hsd : ∀ d ∈ n.sdests, t.regs.sFull d = true) (hvd : ∀ d ∈ n.vdests, t.regs.vFull d = true)
    (ha : n.aborts = true → t.tx.live = false) : verdict t n = .go := by
  have h1 : (t.kind = .distaff && !n.distaff) = false := by
    cases hk : t.kind <;> simp [hk] at hd ⊢; exact hd
  have h2 : (t.kind = .group && !n.simt) = false := by
    cases hk : t.kind <;> simp [hk] at hs ⊢; exact hs
  have h3 : (n.priv && !t.priv) = false := by cases hn : n.priv <;> simp [hn] at hp ⊢; exact hp
  have h4 : (t.kind = .group && !(n.role.permits t.ident.role)) = false := by
    cases hk : t.kind <;> simp [hk] at hr ⊢; exact hr
  have h5 : (n.lanes && t.active = 0) = false := by cases hn : n.lanes <;> simp [hn] at hl ⊢; exact hl
  have h6 : n.reads.any (fun r => r.policy && t.empty r) = false := by
    rw [List.any_eq_false]; intro r hr; simp [he r hr]
  have h7 : n.reads.any t.empty = false := by rw [List.any_eq_false]; intro r hr; simp [he r hr]
  have h8 : n.sdests.any (fun d => !(t.regs.sFull d)) = false := by rw [List.any_eq_false]; intro d hd; simp [hsd d hd]
  have h9 : n.vdests.any (fun d => !(t.regs.vFull d)) = false := by rw [List.any_eq_false]; intro d hd; simp [hvd d hd]
  have h10 : n.reads.any t.poisoned = false := by rw [List.any_eq_false]; intro r hr; simp [hc r hr]
  have h11 : (n.aborts && t.tx.live) = false := by cases hn : n.aborts <;> simp [hn] at ha ⊢; exact ha
  simp only [verdict, hi, h1, h2, h3, h4, h5, h6, h7, h8, h9, h10, h11]
  simp

theorem State.issue_go (s : State) (need : Thread → Need) (body : State → Res) (h : s.th.issues = true)
    (hv : verdict s.th (need s.th) = .go) : s.issue need body = (body s).finish (need s.th).ends := by
  simp [State.issue, h, hv]

theorem State.issue_trap (s : State) (need : Thread → Need) (body : State → Res) (c r : Nat) (h : s.th.issues = true)
    (hv : verdict s.th (need s.th) = .trap c r) : s.issue need body = s.trapHere c r := by
  simp [State.issue, h, hv]

theorem State.issue_wait (s : State) (need : Thread → Need) (body : State → Res) (hv : verdict s.th (need s.th) = .wait) :
    s.issue need body = s := by
  by_cases h : s.th.issues = true <;> simp [State.issue, h, hv]

theorem State.issue_skip (s : State) (need : Thread → Need) (body : State → Res) (h : s.th.issues = true)
    (hv : verdict s.th (need s.th) = .skip) : s.issue need body = s.advance false := by
  simp [State.issue, h, hv]

theorem State.issue_abort (s : State) (need : Thread → Need) (body : State → Res) (h : s.th.issues = true)
    (hv : verdict s.th (need s.th) = .abort) : s.issue need body = s.final s.work.cur 5 := by
  simp [State.issue, h, hv]

theorem State.issue_idle (s : State) (need : Thread → Need) (body : State → Res) (h : s.th.issues = false) :
    s.issue need body = s := by
  simp [State.issue, h]

/-- A scalar source that is full is not empty. -/
theorem Thread.empty_srcS (t : Thread) (f : BitVec 7) (p : Bool) (h : t.regs.sFull (t.abs f) = true) :
    t.empty (⟨false, t.abs f, p, true⟩) = false := by simp [Thread.empty, h]

/-- R385: a group with a trap clause that is not in trap mode enters it. -/
theorem State.groupTrap_enters (s : State) (k : Nat) (i : TrapInfo) (hdr h : Word) (hc : s.trapClause (s.thread k) = some h)
    (hm : (s.thread k).inTrap = false) :
    s.groupTrap k i hdr = s.mapThread k (fun t => ({ t with
      reuse := none, wait := .none, park := none, status := .running,
      trap := { t.trap with tcs := i.tcs, tlm := i.lanes, tva := i.va, trsm := i.rsm } }.goto h)) := by
  have e : s.groupTrap k i hdr = (match s.trapClause (s.thread k) with
      | some h =>
        if (s.thread k).inTrap then s.unhandled k { s.thread k with reuse := none, wait := .none } i hdr
        else s.putThread k ({ s.thread k with
          reuse := none, wait := .none, park := none, status := .running,
          trap := { (s.thread k).trap with tcs := i.tcs, tlm := i.lanes, tva := i.va, trsm := i.rsm } }.goto h)
      | none => s.unhandled k { s.thread k with reuse := none, wait := .none } i hdr) := rfl
  rw [e, hc]
  simp only [hm, Bool.false_eq_true, if_false]
  rfl

/-- R399: a distaff thread that is not in its handler enters it. -/
theorem State.distaffTrap_enters (s : State) (k : Nat) (i : TrapInfo) (hm : (s.thread k).inTrap = false) :
    s.distaffTrap k i = s.mapThread k (fun t => ({ t with
      wait := .none, priv := true,
      trap := { t.trap with tcs := i.tcs ||| BitVec.ofNat 64 (bit t.priv * 2 ^ 61), tva := i.va, trsm := i.rsm } }.goto
        (BitVec.ofNat 64 (bitsAt t.trap.vec 2 54 * 4)))) := by
  have e : s.distaffTrap k i = (if (s.thread k).inTrap then
        (match s.partOfThread { s.thread k with wait := .none } with
        | some p => (s.putThread k { s.thread k with wait := .none, status := .stopped }).interrupt p 6
        | none => s.putThread k { s.thread k with wait := .none, status := .stopped })
      else s.putThread k ({ s.thread k with
        wait := .none, priv := true,
        trap := { (s.thread k).trap with
          tcs := i.tcs ||| BitVec.ofNat 64 (bit (s.thread k).priv * 2 ^ 61), tva := i.va, trsm := i.rsm } }.goto
            (BitVec.ofNat 64 (bitsAt (s.thread k).trap.vec 2 54 * 4)))) := by
    unfold State.distaffTrap
    rfl
  rw [e]
  simp only [hm, Bool.false_eq_true, if_false]
  rfl

/-- A trap outside a transaction is taken as the thread's kind takes it (R383), for the clause given, or the thread's own. -/
theorem State.trap_outside (s : State) (k : Nat) (i : TrapInfo) (hdr : Option Word) (h : (s.thread k).tx.live = false) :
    s.trap k i hdr = match (s.thread k).kind with
      | .group => s.groupTrap k i (hdr.getD (s.thread k).fetch.hdr)
      | .distaff => s.distaffTrap k i := by
  cases hk : (s.thread k).kind <;> simp [State.trap, h, hk]

end Sys2Proof.Machine
end

