-- ==== Sys2Proof/Laws/Memory.lean ====
section
/-! SUPPORT. Laws of memory: what a write of a byte leaves, and that every operation on the bytes keeps their canonical form. -/

namespace Sys2Proof.Machine

/-! ## What the operations leave alone -/

@[simp] theorem State.setPoison_bytes (s : State) (us : List Nat) (b : Bool) : (s.setPoison us b).mem.bytes = s.mem.bytes := rfl
@[simp] theorem State.dropSigs_bytes (s : State) (k : Nat) : (s.dropSigs k).mem.bytes = s.mem.bytes := rfl
@[simp] theorem State.clearSpec_bytes (s : State) (c : Nat) : (s.clearSpec c).mem.bytes = s.mem.bytes := rfl
@[simp] theorem State.releaseLock_bytes (s : State) (k : Nat) : (s.releaseLock k).mem.bytes = s.mem.bytes := rfl
@[simp] theorem State.putLine_bytes (s : State) (c l : Nat) (x : CLine) : (s.putLine c l x).mem.bytes = s.mem.bytes := rfl
@[simp] theorem State.dropLine_bytes (s : State) (c l : Nat) : (s.dropLine c l).mem.bytes = s.mem.bytes := rfl
@[simp] theorem State.putDir_bytes (s : State) (l : Nat) (d : Dir) : (s.putDir l d).mem.bytes = s.mem.bytes := rfl

@[simp] theorem State.dirtyHome_bytes (s : State) (k l : Nat) (us : List Nat) : (s.dirtyHome k l us).mem.bytes = s.mem.bytes := by
  simp only [State.dirtyHome]
  split
  · rfl
  · split
    · rfl
    · split <;> rfl

@[simp] theorem State.loseLine_bytes (s : State) (c l : Nat) : (s.loseLine c l).mem.bytes = s.mem.bytes := by
  simp only [State.loseLine]
  split
  · rfl
  · split <;> rfl

@[simp] theorem State.count_bytes (s : State) (a : Nat) (w : Bool) (m : Nat) : (s.count a w m).mem.bytes = s.mem.bytes := by
  unfold State.count
  split <;> rfl

@[simp] theorem State.retry_bytes (s : State) (k c : Nat) (f : Mask) : (s.retry k c f).mem.bytes = s.mem.bytes := by
  simp only [State.retry]
  split <;> rfl

@[simp] theorem State.final_bytes (s : State) (k c : Nat) : (s.final k c).mem.bytes = s.mem.bytes := rfl

/-- A fold of steps that leave the bytes alone leaves them alone. -/
theorem foldl_bytes {α : Type} (f : State → α → State) (hf : ∀ s x, (f s x).mem.bytes = s.mem.bytes) (l : List α) (s : State) :
    (l.foldl f s).mem.bytes = s.mem.bytes := by
  induction l generalizing s with
  | nil => rfl
  | cons x r ih => rw [List.foldl_cons, ih, hf]

@[simp] theorem State.hitSigs_bytes (s : State) (l : Nat) : (s.hitSigs l).mem.bytes = s.mem.bytes :=
  foldl_bytes _ (fun s e => by dsimp only; split <;> simp) _ _

@[simp] theorem State.snoopSpec_bytes (s : State) (c l : Nat) : (s.snoopSpec c l).mem.bytes = s.mem.bytes := by
  simp only [State.snoopSpec]
  split
  · split
    · exact foldl_bytes _ (fun s k => by split <;> simp) _ _
    · rfl
  · rfl

/-! ## The canonical form -/

/-- A fold of steps that keep the canonical form keeps it. -/
theorem foldl_wf {α : Type} (f : State → α → State) (hf : ∀ s x, Memory.wf s.mem.bytes = true → Memory.wf (f s x).mem.bytes = true)
    (l : List α) (s : State) (h : Memory.wf s.mem.bytes = true) : Memory.wf (l.foldl f s).mem.bytes = true := by
  induction l generalizing s with
  | nil => exact h
  | cons x r ih => exact ih _ (hf s x h)

theorem foldl_put_wf {α : Type} (g : α → Nat) (v : α → Byte) (l : List α) (m : Tab Byte) (h : Tab.wf m = true) :
    Tab.wf (l.foldl (fun (m : Tab Byte) i => m.put (g i) (v i)) m) = true := by
  induction l generalizing m with
  | nil => exact h
  | cons x r ih => exact ih _ (Tab.wf_put m _ _ h)

theorem State.retag_wf (s : State) (key a : Nat) (h : Memory.wf s.mem.bytes = true) :
    Memory.wf (s.retag key a).mem.bytes = true := by
  simp only [State.retag]
  split
  · exact h
  · generalize upto 16 = l
    exact foldl_put_wf (fun i => s.cell a / 16 * 16 + i) (fun i => s.homeByte key (a / 16 * 16 + i)) l _ h

theorem State.setByte_wf (s : State) (key a : Nat) (b : Byte) (h : Memory.wf s.mem.bytes = true) :
    Memory.wf (s.setByte key a b).mem.bytes = true := Tab.wf_put _ _ _ (s.retag_wf key a h)

theorem State.setBytes_wf (s : State) (key a : Nat) (l : List Nat) (h : Memory.wf s.mem.bytes = true) :
    Memory.wf (s.setBytes key a l).mem.bytes = true := by
  induction l generalizing s a with
  | nil => exact h
  | cons b r ih => exact ih _ _ (s.setByte_wf key a _ h)

theorem State.mergeLine_wf (s : State) (key line : Nat) (d : BitVec 1024) (m : BitVec 128) (p : BitVec 16)
    (h : Memory.wf s.mem.bytes = true) : Memory.wf (s.mergeLine key line d m p).mem.bytes = true := by
  simp only [State.mergeLine]
  rw [State.dirtyHome_bytes, State.setPoison_bytes, State.setPoison_bytes]
  refine foldl_wf _ (fun s i hs => ?_) _ _ h
  split
  · exact s.setByte_wf _ _ _ hs
  · exact hs

theorem State.writeBack_wf (s : State) (line : Nat) (l : CLine) (h : Memory.wf s.mem.bytes = true) :
    Memory.wf (s.writeBack line l).mem.bytes = true := by
  unfold State.writeBack
  exact State.mergeLine_wf _ _ _ _ _ _ h

theorem State.settle_wf (s : State) (line : Nat) (h : Memory.wf s.mem.bytes = true) : Memory.wf (s.settle line).mem.bytes = true := by
  have key : ∀ (f g : List Nat) (s : State), Memory.wf s.mem.bytes = true →
      Memory.wf (g.foldl (fun (s : State) c => s.loseLine c line) (match (f.foldl (fun (s : State) c => s.snoopSpec c line) s).dirtyCopy line with
        | some l => (f.foldl (fun (s : State) c => s.snoopSpec c line) s).writeBack line l
        | none => f.foldl (fun (s : State) c => s.snoopSpec c line) s)).mem.bytes = true := by
    intro f g s hs
    have h0 : Memory.wf (f.foldl (fun (s : State) c => s.snoopSpec c line) s).mem.bytes = true := by
      rw [foldl_bytes _ (fun s c => by simp)]
      exact hs
    rw [foldl_bytes (fun (s : State) c => s.loseLine c line) (fun s c => s.loseLine_bytes c line)]
    split
    · exact State.writeBack_wf _ _ _ h0
    · exact h0
  simp only [State.settle]
  split
  · exact key _ _ s h
  · rw [State.putDir_bytes]
    exact key _ _ s h

theorem State.poke_wf (s : State) (a key : Nat) (bs : List Nat) (m : Nat) (h : Memory.wf s.mem.bytes = true) :
    Memory.wf (s.poke a key bs m).mem.bytes = true := by
  simp only [State.poke]
  rw [foldl_bytes _ (fun s l => by simp), foldl_bytes _ (fun s u => by simp), State.setPoison_bytes]
  refine State.setBytes_wf _ _ _ _ (foldl_wf _ (fun s l hs => ?_) _ _ h)
  rw [State.hitSigs_bytes]
  exact s.settle_wf l hs

theorem State.commitHome_wf (s : State) (x : Trans) (c : Mask) (m line : Nat) (h : Memory.wf s.mem.bytes = true) :
    Memory.wf (s.commitHome x c m line).mem.bytes = true := by
  simp only [State.commitHome]
  split
  · exact h
  · rw [State.count_bytes]
    exact s.mergeLine_wf _ _ _ _ _ h

theorem State.fillPool_wf (s : State) (p : Nat) (h : Memory.wf s.mem.bytes = true) : Memory.wf (s.fillPool p).mem.bytes = true := by
  simp only [State.fillPool]
  split
  · exact h
  · exact Tab.wf_filter _ _ h

/-! ## A read after a write -/

/-- Putting a block under a key changes nothing but the bytes and the tags of blocks. -/
theorem State.retag_rest (s : State) (key a : Nat) :
    (s.retag key a).mem.keys = s.mem.keys ∧ (s.retag key a).pkg = s.pkg := by
  simp only [State.retag]
  split <;> exact ⟨rfl, rfl⟩

/-- The tag of a line depends on the key slots only. -/
theorem State.lineTag_setByte (s : State) (key a : Nat) (b : Byte) (k l : Nat) : (s.setByte key a b).lineTag k l = s.lineTag k l := by
  have h : (s.setByte key a b).mem.keys = s.mem.keys := (s.retag_rest key a).1
  simp only [State.lineTag, State.keyTag, State.keySlot, h]

/-- A home address keeps its cell. -/
theorem State.cell_setByte (s : State) (key a : Nat) (b : Byte) (c : Nat) : (s.setByte key a b).cell c = s.cell c := by
  have h : (s.setByte key a b).pkg = s.pkg := (s.retag_rest key a).2
  simp only [State.cell, State.cxlWindow, h]

/-- Outside home class 5 a byte's cell is its address. -/
theorem State.cell_plain (s : State) (a : Nat) (h : classOf a ≠ 5) : s.cell a = a := by simp [State.cell, h]

/-- Putting a byte's block under a key leaves the block under that key's tag. -/
theorem State.blockKey_retag (s : State) (key a : Nat) :
    (s.retag key a).mem.blockKey.find (s.cell a / 16) = some (s.lineTag key (a / 128)) := by
  simp only [State.retag]
  split
  · simp_all
  · simp

/-- A byte of memory reads, under the key it was written with, as it was written. -/
theorem State.homeByte_setByte_self (s : State) (key a : Nat) (b : Byte) (h : classOf a ≠ 5) :
    (s.setByte key a b).homeByte key a = b := by
  have hl : (s.setByte key a b).mem.blockKey.find (a / 16) = some (s.lineTag key (a / 128)) := by
    have := s.blockKey_retag key a
    rw [State.cell_plain _ _ h] at this
    exact this
  have hb : (s.setByte key a b).mem.bytes.find a = some b := by
    have hc : (s.retag key a).cell a = a := State.cell_plain _ _ h
    simp only [State.setByte, hc]
    simp
  simp only [State.homeByte, State.lineTag_setByte, State.cell_plain _ _ h, hl, Tab.getD, hb, if_true]

end Sys2Proof.Machine
end

