-- ==== Sys2Proof/Laws/Updates.lean ====
section
/-! SUPPORT. The small laws of updates of memory, translation and services: one lemma per field that an update leaves alone, true by
unfolding, so that no later proof opens the record. -/

namespace Sys2Proof.Machine

@[simp] theorem State.putLine_work (s : State) (c l : Nat) (x : CLine) : (s.putLine c l x).work = s.work := rfl
@[simp] theorem State.putLine_blockKey (s : State) (c l : Nat) (x : CLine) : (s.putLine c l x).mem.blockKey = s.mem.blockKey := rfl
@[simp] theorem State.putLine_poison (s : State) (c l : Nat) (x : CLine) : (s.putLine c l x).mem.poison = s.mem.poison := rfl
@[simp] theorem State.putLine_keys (s : State) (c l : Nat) (x : CLine) : (s.putLine c l x).mem.keys = s.mem.keys := rfl
@[simp] theorem State.putLine_acl (s : State) (c l : Nat) (x : CLine) : (s.putLine c l x).mem.acl = s.mem.acl := rfl
@[simp] theorem State.putLine_dir (s : State) (c l : Nat) (x : CLine) : (s.putLine c l x).mem.dir = s.mem.dir := rfl
@[simp] theorem State.putLine_rdcVec (s : State) (c l : Nat) (x : CLine) : (s.putLine c l x).mem.rdcVec = s.mem.rdcVec := rfl
@[simp] theorem State.putLine_refill (s : State) (c l : Nat) (x : CLine) : (s.putLine c l x).mem.refill = s.mem.refill := rfl
@[simp] theorem State.putLine_net (s : State) (c l : Nat) (x : CLine) : (s.putLine c l x).mem.net = s.mem.net := rfl
@[simp] theorem State.putLine_grants (s : State) (c l : Nat) (x : CLine) : (s.putLine c l x).mem.grants = s.mem.grants := rfl
@[simp] theorem State.putLine_sliceClk (s : State) (c l : Nat) (x : CLine) : (s.putLine c l x).mem.sliceClk = s.mem.sliceClk := rfl
@[simp] theorem State.putLine_arrNext (s : State) (c l : Nat) (x : CLine) : (s.putLine c l x).mem.arrNext = s.mem.arrNext := rfl
@[simp] theorem State.putLine_mwbNext (s : State) (c l : Nat) (x : CLine) : (s.putLine c l x).mem.mwbNext = s.mem.mwbNext := rfl
@[simp] theorem State.putLine_pend (s : State) (c l : Nat) (x : CLine) : (s.putLine c l x).mem.pend = s.mem.pend := rfl
@[simp] theorem State.putLine_wbBuf (s : State) (c l : Nat) (x : CLine) : (s.putLine c l x).mem.wbBuf = s.mem.wbBuf := rfl
@[simp] theorem State.putLine_counts (s : State) (c l : Nat) (x : CLine) : (s.putLine c l x).mem.counts = s.mem.counts := rfl
@[simp] theorem State.putLine_slcErr (s : State) (c l : Nat) (x : CLine) : (s.putLine c l x).mem.slcErr = s.mem.slcErr := rfl
@[simp] theorem State.putLine_pcDump (s : State) (c l : Nat) (x : CLine) : (s.putLine c l x).mem.pcDump = s.mem.pcDump := rfl
@[simp] theorem State.putLine_sigs (s : State) (c l : Nat) (x : CLine) : (s.putLine c l x).mem.sigs = s.mem.sigs := rfl
@[simp] theorem State.putLine_races (s : State) (c l : Nat) (x : CLine) : (s.putLine c l x).mem.races = s.mem.races := rfl
@[simp] theorem State.putLine_resv (s : State) (c l : Nat) (x : CLine) : (s.putLine c l x).mem.resv = s.mem.resv := rfl
@[simp] theorem State.putLine_locked (s : State) (c l : Nat) (x : CLine) : (s.putLine c l x).mem.locked = s.mem.locked := rfl
@[simp] theorem State.putLine_migr (s : State) (c l : Nat) (x : CLine) : (s.putLine c l x).mem.migr = s.mem.migr := rfl
@[simp] theorem State.putLine_xlt (s : State) (c l : Nat) (x : CLine) : (s.putLine c l x).xlt = s.xlt := rfl
@[simp] theorem State.putLine_svc (s : State) (c l : Nat) (x : CLine) : (s.putLine c l x).svc = s.svc := rfl
@[simp] theorem State.putLine_pkg (s : State) (c l : Nat) (x : CLine) : (s.putLine c l x).pkg = s.pkg := rfl
@[simp] theorem State.putLine_agenda (s : State) (c l : Nat) (x : CLine) : (s.putLine c l x).agenda = s.agenda := rfl
@[simp] theorem State.putLine_turn (s : State) (c l : Nat) (x : CLine) : (s.putLine c l x).turn = s.turn := rfl
@[simp] theorem State.putLine_free (s : State) (c l : Nat) (x : CLine) : (s.putLine c l x).free = s.free := rfl

@[simp] theorem State.putDir_work (s : State) (l : Nat) (d : Dir) : (s.putDir l d).work = s.work := rfl
@[simp] theorem State.putDir_blockKey (s : State) (l : Nat) (d : Dir) : (s.putDir l d).mem.blockKey = s.mem.blockKey := rfl
@[simp] theorem State.putDir_poison (s : State) (l : Nat) (d : Dir) : (s.putDir l d).mem.poison = s.mem.poison := rfl
@[simp] theorem State.putDir_keys (s : State) (l : Nat) (d : Dir) : (s.putDir l d).mem.keys = s.mem.keys := rfl
@[simp] theorem State.putDir_acl (s : State) (l : Nat) (d : Dir) : (s.putDir l d).mem.acl = s.mem.acl := rfl
@[simp] theorem State.putDir_caches (s : State) (l : Nat) (d : Dir) : (s.putDir l d).mem.caches = s.mem.caches := rfl
@[simp] theorem State.putDir_rdcVec (s : State) (l : Nat) (d : Dir) : (s.putDir l d).mem.rdcVec = s.mem.rdcVec := rfl
@[simp] theorem State.putDir_refill (s : State) (l : Nat) (d : Dir) : (s.putDir l d).mem.refill = s.mem.refill := rfl
@[simp] theorem State.putDir_net (s : State) (l : Nat) (d : Dir) : (s.putDir l d).mem.net = s.mem.net := rfl
@[simp] theorem State.putDir_grants (s : State) (l : Nat) (d : Dir) : (s.putDir l d).mem.grants = s.mem.grants := rfl
@[simp] theorem State.putDir_sliceClk (s : State) (l : Nat) (d : Dir) : (s.putDir l d).mem.sliceClk = s.mem.sliceClk := rfl
@[simp] theorem State.putDir_arrNext (s : State) (l : Nat) (d : Dir) : (s.putDir l d).mem.arrNext = s.mem.arrNext := rfl
@[simp] theorem State.putDir_mwbNext (s : State) (l : Nat) (d : Dir) : (s.putDir l d).mem.mwbNext = s.mem.mwbNext := rfl
@[simp] theorem State.putDir_pend (s : State) (l : Nat) (d : Dir) : (s.putDir l d).mem.pend = s.mem.pend := rfl
@[simp] theorem State.putDir_wbBuf (s : State) (l : Nat) (d : Dir) : (s.putDir l d).mem.wbBuf = s.mem.wbBuf := rfl
@[simp] theorem State.putDir_counts (s : State) (l : Nat) (d : Dir) : (s.putDir l d).mem.counts = s.mem.counts := rfl
@[simp] theorem State.putDir_slcErr (s : State) (l : Nat) (d : Dir) : (s.putDir l d).mem.slcErr = s.mem.slcErr := rfl
@[simp] theorem State.putDir_pcDump (s : State) (l : Nat) (d : Dir) : (s.putDir l d).mem.pcDump = s.mem.pcDump := rfl
@[simp] theorem State.putDir_sigs (s : State) (l : Nat) (d : Dir) : (s.putDir l d).mem.sigs = s.mem.sigs := rfl
@[simp] theorem State.putDir_races (s : State) (l : Nat) (d : Dir) : (s.putDir l d).mem.races = s.mem.races := rfl
@[simp] theorem State.putDir_resv (s : State) (l : Nat) (d : Dir) : (s.putDir l d).mem.resv = s.mem.resv := rfl
@[simp] theorem State.putDir_locked (s : State) (l : Nat) (d : Dir) : (s.putDir l d).mem.locked = s.mem.locked := rfl
@[simp] theorem State.putDir_migr (s : State) (l : Nat) (d : Dir) : (s.putDir l d).mem.migr = s.mem.migr := rfl
@[simp] theorem State.putDir_xlt (s : State) (l : Nat) (d : Dir) : (s.putDir l d).xlt = s.xlt := rfl
@[simp] theorem State.putDir_svc (s : State) (l : Nat) (d : Dir) : (s.putDir l d).svc = s.svc := rfl
@[simp] theorem State.putDir_pkg (s : State) (l : Nat) (d : Dir) : (s.putDir l d).pkg = s.pkg := rfl
@[simp] theorem State.putDir_agenda (s : State) (l : Nat) (d : Dir) : (s.putDir l d).agenda = s.agenda := rfl
@[simp] theorem State.putDir_turn (s : State) (l : Nat) (d : Dir) : (s.putDir l d).turn = s.turn := rfl
@[simp] theorem State.putDir_free (s : State) (l : Nat) (d : Dir) : (s.putDir l d).free = s.free := rfl

@[simp] theorem State.setTlb_work (s : State) (p : Nat) (l : List TlbEntry) : (s.setTlb p l).work = s.work := rfl
@[simp] theorem State.setTlb_mem (s : State) (p : Nat) (l : List TlbEntry) : (s.setTlb p l).mem = s.mem := rfl
@[simp] theorem State.setTlb_wcache (s : State) (p : Nat) (l : List TlbEntry) : (s.setTlb p l).xlt.wcache = s.xlt.wcache := rfl
@[simp] theorem State.setTlb_walks (s : State) (p : Nat) (l : List TlbEntry) : (s.setTlb p l).xlt.walks = s.xlt.walks := rfl
@[simp] theorem State.setTlb_faults (s : State) (p : Nat) (l : List TlbEntry) : (s.setTlb p l).xlt.faults = s.xlt.faults := rfl
@[simp] theorem State.setTlb_invals (s : State) (p : Nat) (l : List TlbEntry) : (s.setTlb p l).xlt.invals = s.xlt.invals := rfl
@[simp] theorem State.setTlb_invalNum (s : State) (p : Nat) (l : List TlbEntry) : (s.setTlb p l).xlt.invalNum = s.xlt.invalNum := rfl
@[simp] theorem State.setTlb_invalWrapped (s : State) (p : Nat) (l : List TlbEntry) : (s.setTlb p l).xlt.invalWrapped = s.xlt.invalWrapped := rfl
@[simp] theorem State.setTlb_past (s : State) (p : Nat) (l : List TlbEntry) : (s.setTlb p l).xlt.past = s.xlt.past := rfl
@[simp] theorem State.setTlb_svc (s : State) (p : Nat) (l : List TlbEntry) : (s.setTlb p l).svc = s.svc := rfl
@[simp] theorem State.setTlb_pkg (s : State) (p : Nat) (l : List TlbEntry) : (s.setTlb p l).pkg = s.pkg := rfl
@[simp] theorem State.setTlb_agenda (s : State) (p : Nat) (l : List TlbEntry) : (s.setTlb p l).agenda = s.agenda := rfl
@[simp] theorem State.setTlb_turn (s : State) (p : Nat) (l : List TlbEntry) : (s.setTlb p l).turn = s.turn := rfl
@[simp] theorem State.setTlb_free (s : State) (p : Nat) (l : List TlbEntry) : (s.setTlb p l).free = s.free := rfl

@[simp] theorem State.mapCmd_work (s : State) (n : Nat) (f : Cmd → Cmd) : (s.mapCmd n f).work = s.work := rfl
@[simp] theorem State.mapCmd_mem (s : State) (n : Nat) (f : Cmd → Cmd) : (s.mapCmd n f).mem = s.mem := rfl
@[simp] theorem State.mapCmd_xlt (s : State) (n : Nat) (f : Cmd → Cmd) : (s.mapCmd n f).xlt = s.xlt := rfl
@[simp] theorem State.mapCmd_cmdNext (s : State) (n : Nat) (f : Cmd → Cmd) : (s.mapCmd n f).svc.cmdNext = s.svc.cmdNext := rfl
@[simp] theorem State.mapCmd_regions (s : State) (n : Nat) (f : Cmd → Cmd) : (s.mapCmd n f).svc.regions = s.svc.regions := rfl
@[simp] theorem State.mapCmd_cursors (s : State) (n : Nat) (f : Cmd → Cmd) : (s.mapCmd n f).svc.cursors = s.svc.cursors := rfl
@[simp] theorem State.mapCmd_pmes (s : State) (n : Nat) (f : Cmd → Cmd) : (s.mapCmd n f).svc.pmes = s.svc.pmes := rfl
@[simp] theorem State.mapCmd_ticket (s : State) (n : Nat) (f : Cmd → Cmd) : (s.mapCmd n f).svc.ticket = s.svc.ticket := rfl
@[simp] theorem State.mapCmd_fblHolder (s : State) (n : Nat) (f : Cmd → Cmd) : (s.mapCmd n f).svc.fblHolder = s.svc.fblHolder := rfl
@[simp] theorem State.mapCmd_fblWait (s : State) (n : Nat) (f : Cmd → Cmd) : (s.mapCmd n f).svc.fblWait = s.svc.fblWait := rfl
@[simp] theorem State.mapCmd_arms (s : State) (n : Nat) (f : Cmd → Cmd) : (s.mapCmd n f).svc.arms = s.svc.arms := rfl
@[simp] theorem State.mapCmd_armNext (s : State) (n : Nat) (f : Cmd → Cmd) : (s.mapCmd n f).svc.armNext = s.svc.armNext := rfl
@[simp] theorem State.mapCmd_tokens (s : State) (n : Nat) (f : Cmd → Cmd) : (s.mapCmd n f).svc.tokens = s.svc.tokens := rfl
@[simp] theorem State.mapCmd_tokenNext (s : State) (n : Nat) (f : Cmd → Cmd) : (s.mapCmd n f).svc.tokenNext = s.svc.tokenNext := rfl
@[simp] theorem State.mapCmd_frq (s : State) (n : Nat) (f : Cmd → Cmd) : (s.mapCmd n f).svc.frq = s.svc.frq := rfl
@[simp] theorem State.mapCmd_heldRecs (s : State) (n : Nat) (f : Cmd → Cmd) : (s.mapCmd n f).svc.heldRecs = s.svc.heldRecs := rfl
@[simp] theorem State.mapCmd_netrx (s : State) (n : Nat) (f : Cmd → Cmd) : (s.mapCmd n f).svc.netrx = s.svc.netrx := rfl
@[simp] theorem State.mapCmd_portWait (s : State) (n : Nat) (f : Cmd → Cmd) : (s.mapCmd n f).svc.portWait = s.svc.portWait := rfl
@[simp] theorem State.mapCmd_spdm (s : State) (n : Nat) (f : Cmd → Cmd) : (s.mapCmd n f).svc.spdm = s.svc.spdm := rfl
@[simp] theorem State.mapCmd_measure (s : State) (n : Nat) (f : Cmd → Cmd) : (s.mapCmd n f).svc.measure = s.svc.measure := rfl
@[simp] theorem State.mapCmd_pkg (s : State) (n : Nat) (f : Cmd → Cmd) : (s.mapCmd n f).pkg = s.pkg := rfl
@[simp] theorem State.mapCmd_agenda (s : State) (n : Nat) (f : Cmd → Cmd) : (s.mapCmd n f).agenda = s.agenda := rfl
@[simp] theorem State.mapCmd_turn (s : State) (n : Nat) (f : Cmd → Cmd) : (s.mapCmd n f).turn = s.turn := rfl
@[simp] theorem State.mapCmd_free (s : State) (n : Nat) (f : Cmd → Cmd) : (s.mapCmd n f).free = s.free := rfl

@[simp] theorem State.putCmd_work (s : State) (c : Cmd) : (s.putCmd c).work = s.work := rfl
@[simp] theorem State.putCmd_mem (s : State) (c : Cmd) : (s.putCmd c).mem = s.mem := rfl
@[simp] theorem State.putCmd_xlt (s : State) (c : Cmd) : (s.putCmd c).xlt = s.xlt := rfl
@[simp] theorem State.putCmd_cmdNext (s : State) (c : Cmd) : (s.putCmd c).svc.cmdNext = s.svc.cmdNext := rfl
@[simp] theorem State.putCmd_regions (s : State) (c : Cmd) : (s.putCmd c).svc.regions = s.svc.regions := rfl
@[simp] theorem State.putCmd_cursors (s : State) (c : Cmd) : (s.putCmd c).svc.cursors = s.svc.cursors := rfl
@[simp] theorem State.putCmd_pmes (s : State) (c : Cmd) : (s.putCmd c).svc.pmes = s.svc.pmes := rfl
@[simp] theorem State.putCmd_ticket (s : State) (c : Cmd) : (s.putCmd c).svc.ticket = s.svc.ticket := rfl
@[simp] theorem State.putCmd_fblHolder (s : State) (c : Cmd) : (s.putCmd c).svc.fblHolder = s.svc.fblHolder := rfl
@[simp] theorem State.putCmd_fblWait (s : State) (c : Cmd) : (s.putCmd c).svc.fblWait = s.svc.fblWait := rfl
@[simp] theorem State.putCmd_arms (s : State) (c : Cmd) : (s.putCmd c).svc.arms = s.svc.arms := rfl
@[simp] theorem State.putCmd_armNext (s : State) (c : Cmd) : (s.putCmd c).svc.armNext = s.svc.armNext := rfl
@[simp] theorem State.putCmd_tokens (s : State) (c : Cmd) : (s.putCmd c).svc.tokens = s.svc.tokens := rfl
@[simp] theorem State.putCmd_tokenNext (s : State) (c : Cmd) : (s.putCmd c).svc.tokenNext = s.svc.tokenNext := rfl
@[simp] theorem State.putCmd_frq (s : State) (c : Cmd) : (s.putCmd c).svc.frq = s.svc.frq := rfl
@[simp] theorem State.putCmd_heldRecs (s : State) (c : Cmd) : (s.putCmd c).svc.heldRecs = s.svc.heldRecs := rfl
@[simp] theorem State.putCmd_netrx (s : State) (c : Cmd) : (s.putCmd c).svc.netrx = s.svc.netrx := rfl
@[simp] theorem State.putCmd_portWait (s : State) (c : Cmd) : (s.putCmd c).svc.portWait = s.svc.portWait := rfl
@[simp] theorem State.putCmd_spdm (s : State) (c : Cmd) : (s.putCmd c).svc.spdm = s.svc.spdm := rfl
@[simp] theorem State.putCmd_measure (s : State) (c : Cmd) : (s.putCmd c).svc.measure = s.svc.measure := rfl
@[simp] theorem State.putCmd_pkg (s : State) (c : Cmd) : (s.putCmd c).pkg = s.pkg := rfl
@[simp] theorem State.putCmd_agenda (s : State) (c : Cmd) : (s.putCmd c).agenda = s.agenda := rfl
@[simp] theorem State.putCmd_turn (s : State) (c : Cmd) : (s.putCmd c).turn = s.turn := rfl
@[simp] theorem State.putCmd_free (s : State) (c : Cmd) : (s.putCmd c).free = s.free := rfl

@[simp] theorem State.putRegion_work (s : State) (i : Nat) (r : Region) : (s.putRegion i r).work = s.work := rfl
@[simp] theorem State.putRegion_mem (s : State) (i : Nat) (r : Region) : (s.putRegion i r).mem = s.mem := rfl
@[simp] theorem State.putRegion_xlt (s : State) (i : Nat) (r : Region) : (s.putRegion i r).xlt = s.xlt := rfl
@[simp] theorem State.putRegion_cmds (s : State) (i : Nat) (r : Region) : (s.putRegion i r).svc.cmds = s.svc.cmds := rfl
@[simp] theorem State.putRegion_cmdNext (s : State) (i : Nat) (r : Region) : (s.putRegion i r).svc.cmdNext = s.svc.cmdNext := rfl
@[simp] theorem State.putRegion_cursors (s : State) (i : Nat) (r : Region) : (s.putRegion i r).svc.cursors = s.svc.cursors := rfl
@[simp] theorem State.putRegion_pmes (s : State) (i : Nat) (r : Region) : (s.putRegion i r).svc.pmes = s.svc.pmes := rfl
@[simp] theorem State.putRegion_ticket (s : State) (i : Nat) (r : Region) : (s.putRegion i r).svc.ticket = s.svc.ticket := rfl
@[simp] theorem State.putRegion_fblHolder (s : State) (i : Nat) (r : Region) : (s.putRegion i r).svc.fblHolder = s.svc.fblHolder := rfl
@[simp] theorem State.putRegion_fblWait (s : State) (i : Nat) (r : Region) : (s.putRegion i r).svc.fblWait = s.svc.fblWait := rfl
@[simp] theorem State.putRegion_arms (s : State) (i : Nat) (r : Region) : (s.putRegion i r).svc.arms = s.svc.arms := rfl
@[simp] theorem State.putRegion_armNext (s : State) (i : Nat) (r : Region) : (s.putRegion i r).svc.armNext = s.svc.armNext := rfl
@[simp] theorem State.putRegion_tokens (s : State) (i : Nat) (r : Region) : (s.putRegion i r).svc.tokens = s.svc.tokens := rfl
@[simp] theorem State.putRegion_tokenNext (s : State) (i : Nat) (r : Region) : (s.putRegion i r).svc.tokenNext = s.svc.tokenNext := rfl
@[simp] theorem State.putRegion_frq (s : State) (i : Nat) (r : Region) : (s.putRegion i r).svc.frq = s.svc.frq := rfl
@[simp] theorem State.putRegion_heldRecs (s : State) (i : Nat) (r : Region) : (s.putRegion i r).svc.heldRecs = s.svc.heldRecs := rfl
@[simp] theorem State.putRegion_netrx (s : State) (i : Nat) (r : Region) : (s.putRegion i r).svc.netrx = s.svc.netrx := rfl
@[simp] theorem State.putRegion_portWait (s : State) (i : Nat) (r : Region) : (s.putRegion i r).svc.portWait = s.svc.portWait := rfl
@[simp] theorem State.putRegion_spdm (s : State) (i : Nat) (r : Region) : (s.putRegion i r).svc.spdm = s.svc.spdm := rfl
@[simp] theorem State.putRegion_measure (s : State) (i : Nat) (r : Region) : (s.putRegion i r).svc.measure = s.svc.measure := rfl
@[simp] theorem State.putRegion_pkg (s : State) (i : Nat) (r : Region) : (s.putRegion i r).pkg = s.pkg := rfl
@[simp] theorem State.putRegion_agenda (s : State) (i : Nat) (r : Region) : (s.putRegion i r).agenda = s.agenda := rfl
@[simp] theorem State.putRegion_turn (s : State) (i : Nat) (r : Region) : (s.putRegion i r).turn = s.turn := rfl
@[simp] theorem State.putRegion_free (s : State) (i : Nat) (r : Region) : (s.putRegion i r).free = s.free := rfl

@[simp] theorem State.mapPme_work (s : State) (d : Nat) (f : Pme → Pme) : (s.mapPme d f).work = s.work := rfl
@[simp] theorem State.mapPme_mem (s : State) (d : Nat) (f : Pme → Pme) : (s.mapPme d f).mem = s.mem := rfl
@[simp] theorem State.mapPme_xlt (s : State) (d : Nat) (f : Pme → Pme) : (s.mapPme d f).xlt = s.xlt := rfl
@[simp] theorem State.mapPme_cmds (s : State) (d : Nat) (f : Pme → Pme) : (s.mapPme d f).svc.cmds = s.svc.cmds := rfl
@[simp] theorem State.mapPme_cmdNext (s : State) (d : Nat) (f : Pme → Pme) : (s.mapPme d f).svc.cmdNext = s.svc.cmdNext := rfl
@[simp] theorem State.mapPme_regions (s : State) (d : Nat) (f : Pme → Pme) : (s.mapPme d f).svc.regions = s.svc.regions := rfl
@[simp] theorem State.mapPme_cursors (s : State) (d : Nat) (f : Pme → Pme) : (s.mapPme d f).svc.cursors = s.svc.cursors := rfl
@[simp] theorem State.mapPme_ticket (s : State) (d : Nat) (f : Pme → Pme) : (s.mapPme d f).svc.ticket = s.svc.ticket := rfl
@[simp] theorem State.mapPme_fblHolder (s : State) (d : Nat) (f : Pme → Pme) : (s.mapPme d f).svc.fblHolder = s.svc.fblHolder := rfl
@[simp] theorem State.mapPme_fblWait (s : State) (d : Nat) (f : Pme → Pme) : (s.mapPme d f).svc.fblWait = s.svc.fblWait := rfl
@[simp] theorem State.mapPme_arms (s : State) (d : Nat) (f : Pme → Pme) : (s.mapPme d f).svc.arms = s.svc.arms := rfl
@[simp] theorem State.mapPme_armNext (s : State) (d : Nat) (f : Pme → Pme) : (s.mapPme d f).svc.armNext = s.svc.armNext := rfl
@[simp] theorem State.mapPme_tokens (s : State) (d : Nat) (f : Pme → Pme) : (s.mapPme d f).svc.tokens = s.svc.tokens := rfl
@[simp] theorem State.mapPme_tokenNext (s : State) (d : Nat) (f : Pme → Pme) : (s.mapPme d f).svc.tokenNext = s.svc.tokenNext := rfl
@[simp] theorem State.mapPme_frq (s : State) (d : Nat) (f : Pme → Pme) : (s.mapPme d f).svc.frq = s.svc.frq := rfl
@[simp] theorem State.mapPme_heldRecs (s : State) (d : Nat) (f : Pme → Pme) : (s.mapPme d f).svc.heldRecs = s.svc.heldRecs := rfl
@[simp] theorem State.mapPme_netrx (s : State) (d : Nat) (f : Pme → Pme) : (s.mapPme d f).svc.netrx = s.svc.netrx := rfl
@[simp] theorem State.mapPme_portWait (s : State) (d : Nat) (f : Pme → Pme) : (s.mapPme d f).svc.portWait = s.svc.portWait := rfl
@[simp] theorem State.mapPme_spdm (s : State) (d : Nat) (f : Pme → Pme) : (s.mapPme d f).svc.spdm = s.svc.spdm := rfl
@[simp] theorem State.mapPme_measure (s : State) (d : Nat) (f : Pme → Pme) : (s.mapPme d f).svc.measure = s.svc.measure := rfl
@[simp] theorem State.mapPme_pkg (s : State) (d : Nat) (f : Pme → Pme) : (s.mapPme d f).pkg = s.pkg := rfl
@[simp] theorem State.mapPme_agenda (s : State) (d : Nat) (f : Pme → Pme) : (s.mapPme d f).agenda = s.agenda := rfl
@[simp] theorem State.mapPme_turn (s : State) (d : Nat) (f : Pme → Pme) : (s.mapPme d f).turn = s.turn := rfl
@[simp] theorem State.mapPme_free (s : State) (d : Nat) (f : Pme → Pme) : (s.mapPme d f).free = s.free := rfl

@[simp] theorem State.mapNet_work (s : State) (p : Nat) (f : NetRx → NetRx) : (s.mapNet p f).work = s.work := rfl
@[simp] theorem State.mapNet_mem (s : State) (p : Nat) (f : NetRx → NetRx) : (s.mapNet p f).mem = s.mem := rfl
@[simp] theorem State.mapNet_xlt (s : State) (p : Nat) (f : NetRx → NetRx) : (s.mapNet p f).xlt = s.xlt := rfl
@[simp] theorem State.mapNet_cmds (s : State) (p : Nat) (f : NetRx → NetRx) : (s.mapNet p f).svc.cmds = s.svc.cmds := rfl
@[simp] theorem State.mapNet_cmdNext (s : State) (p : Nat) (f : NetRx → NetRx) : (s.mapNet p f).svc.cmdNext = s.svc.cmdNext := rfl
@[simp] theorem State.mapNet_regions (s : State) (p : Nat) (f : NetRx → NetRx) : (s.mapNet p f).svc.regions = s.svc.regions := rfl
@[simp] theorem State.mapNet_cursors (s : State) (p : Nat) (f : NetRx → NetRx) : (s.mapNet p f).svc.cursors = s.svc.cursors := rfl
@[simp] theorem State.mapNet_pmes (s : State) (p : Nat) (f : NetRx → NetRx) : (s.mapNet p f).svc.pmes = s.svc.pmes := rfl
@[simp] theorem State.mapNet_ticket (s : State) (p : Nat) (f : NetRx → NetRx) : (s.mapNet p f).svc.ticket = s.svc.ticket := rfl
@[simp] theorem State.mapNet_fblHolder (s : State) (p : Nat) (f : NetRx → NetRx) : (s.mapNet p f).svc.fblHolder = s.svc.fblHolder := rfl
@[simp] theorem State.mapNet_fblWait (s : State) (p : Nat) (f : NetRx → NetRx) : (s.mapNet p f).svc.fblWait = s.svc.fblWait := rfl
@[simp] theorem State.mapNet_arms (s : State) (p : Nat) (f : NetRx → NetRx) : (s.mapNet p f).svc.arms = s.svc.arms := rfl
@[simp] theorem State.mapNet_armNext (s : State) (p : Nat) (f : NetRx → NetRx) : (s.mapNet p f).svc.armNext = s.svc.armNext := rfl
@[simp] theorem State.mapNet_tokens (s : State) (p : Nat) (f : NetRx → NetRx) : (s.mapNet p f).svc.tokens = s.svc.tokens := rfl
@[simp] theorem State.mapNet_tokenNext (s : State) (p : Nat) (f : NetRx → NetRx) : (s.mapNet p f).svc.tokenNext = s.svc.tokenNext := rfl
@[simp] theorem State.mapNet_frq (s : State) (p : Nat) (f : NetRx → NetRx) : (s.mapNet p f).svc.frq = s.svc.frq := rfl
@[simp] theorem State.mapNet_heldRecs (s : State) (p : Nat) (f : NetRx → NetRx) : (s.mapNet p f).svc.heldRecs = s.svc.heldRecs := rfl
@[simp] theorem State.mapNet_portWait (s : State) (p : Nat) (f : NetRx → NetRx) : (s.mapNet p f).svc.portWait = s.svc.portWait := rfl
@[simp] theorem State.mapNet_spdm (s : State) (p : Nat) (f : NetRx → NetRx) : (s.mapNet p f).svc.spdm = s.svc.spdm := rfl
@[simp] theorem State.mapNet_measure (s : State) (p : Nat) (f : NetRx → NetRx) : (s.mapNet p f).svc.measure = s.svc.measure := rfl
@[simp] theorem State.mapNet_pkg (s : State) (p : Nat) (f : NetRx → NetRx) : (s.mapNet p f).pkg = s.pkg := rfl
@[simp] theorem State.mapNet_agenda (s : State) (p : Nat) (f : NetRx → NetRx) : (s.mapNet p f).agenda = s.agenda := rfl
@[simp] theorem State.mapNet_turn (s : State) (p : Nat) (f : NetRx → NetRx) : (s.mapNet p f).turn = s.turn := rfl
@[simp] theorem State.mapNet_free (s : State) (p : Nat) (f : NetRx → NetRx) : (s.mapNet p f).free = s.free := rfl

@[simp] theorem State.mapFrq_work (s : State) (p : Nat) (f : Frq → Frq) : (s.mapFrq p f).work = s.work := rfl
@[simp] theorem State.mapFrq_mem (s : State) (p : Nat) (f : Frq → Frq) : (s.mapFrq p f).mem = s.mem := rfl
@[simp] theorem State.mapFrq_xlt (s : State) (p : Nat) (f : Frq → Frq) : (s.mapFrq p f).xlt = s.xlt := rfl
@[simp] theorem State.mapFrq_cmds (s : State) (p : Nat) (f : Frq → Frq) : (s.mapFrq p f).svc.cmds = s.svc.cmds := rfl
@[simp] theorem State.mapFrq_cmdNext (s : State) (p : Nat) (f : Frq → Frq) : (s.mapFrq p f).svc.cmdNext = s.svc.cmdNext := rfl
@[simp] theorem State.mapFrq_regions (s : State) (p : Nat) (f : Frq → Frq) : (s.mapFrq p f).svc.regions = s.svc.regions := rfl
@[simp] theorem State.mapFrq_cursors (s : State) (p : Nat) (f : Frq → Frq) : (s.mapFrq p f).svc.cursors = s.svc.cursors := rfl
@[simp] theorem State.mapFrq_pmes (s : State) (p : Nat) (f : Frq → Frq) : (s.mapFrq p f).svc.pmes = s.svc.pmes := rfl
@[simp] theorem State.mapFrq_ticket (s : State) (p : Nat) (f : Frq → Frq) : (s.mapFrq p f).svc.ticket = s.svc.ticket := rfl
@[simp] theorem State.mapFrq_fblHolder (s : State) (p : Nat) (f : Frq → Frq) : (s.mapFrq p f).svc.fblHolder = s.svc.fblHolder := rfl
@[simp] theorem State.mapFrq_fblWait (s : State) (p : Nat) (f : Frq → Frq) : (s.mapFrq p f).svc.fblWait = s.svc.fblWait := rfl
@[simp] theorem State.mapFrq_arms (s : State) (p : Nat) (f : Frq → Frq) : (s.mapFrq p f).svc.arms = s.svc.arms := rfl
@[simp] theorem State.mapFrq_armNext (s : State) (p : Nat) (f : Frq → Frq) : (s.mapFrq p f).svc.armNext = s.svc.armNext := rfl
@[simp] theorem State.mapFrq_tokens (s : State) (p : Nat) (f : Frq → Frq) : (s.mapFrq p f).svc.tokens = s.svc.tokens := rfl
@[simp] theorem State.mapFrq_tokenNext (s : State) (p : Nat) (f : Frq → Frq) : (s.mapFrq p f).svc.tokenNext = s.svc.tokenNext := rfl
@[simp] theorem State.mapFrq_heldRecs (s : State) (p : Nat) (f : Frq → Frq) : (s.mapFrq p f).svc.heldRecs = s.svc.heldRecs := rfl
@[simp] theorem State.mapFrq_netrx (s : State) (p : Nat) (f : Frq → Frq) : (s.mapFrq p f).svc.netrx = s.svc.netrx := rfl
@[simp] theorem State.mapFrq_portWait (s : State) (p : Nat) (f : Frq → Frq) : (s.mapFrq p f).svc.portWait = s.svc.portWait := rfl
@[simp] theorem State.mapFrq_spdm (s : State) (p : Nat) (f : Frq → Frq) : (s.mapFrq p f).svc.spdm = s.svc.spdm := rfl
@[simp] theorem State.mapFrq_measure (s : State) (p : Nat) (f : Frq → Frq) : (s.mapFrq p f).svc.measure = s.svc.measure := rfl
@[simp] theorem State.mapFrq_pkg (s : State) (p : Nat) (f : Frq → Frq) : (s.mapFrq p f).pkg = s.pkg := rfl
@[simp] theorem State.mapFrq_agenda (s : State) (p : Nat) (f : Frq → Frq) : (s.mapFrq p f).agenda = s.agenda := rfl
@[simp] theorem State.mapFrq_turn (s : State) (p : Nat) (f : Frq → Frq) : (s.mapFrq p f).turn = s.turn := rfl
@[simp] theorem State.mapFrq_free (s : State) (p : Nat) (f : Frq → Frq) : (s.mapFrq p f).free = s.free := rfl

@[simp] theorem State.setPoison_work (s : State) (us : List Nat) (b : Bool) : (s.setPoison us b).work = s.work := rfl
@[simp] theorem State.setPoison_blockKey (s : State) (us : List Nat) (b : Bool) : (s.setPoison us b).mem.blockKey = s.mem.blockKey := rfl
@[simp] theorem State.setPoison_keys (s : State) (us : List Nat) (b : Bool) : (s.setPoison us b).mem.keys = s.mem.keys := rfl
@[simp] theorem State.setPoison_acl (s : State) (us : List Nat) (b : Bool) : (s.setPoison us b).mem.acl = s.mem.acl := rfl
@[simp] theorem State.setPoison_caches (s : State) (us : List Nat) (b : Bool) : (s.setPoison us b).mem.caches = s.mem.caches := rfl
@[simp] theorem State.setPoison_dir (s : State) (us : List Nat) (b : Bool) : (s.setPoison us b).mem.dir = s.mem.dir := rfl
@[simp] theorem State.setPoison_rdcVec (s : State) (us : List Nat) (b : Bool) : (s.setPoison us b).mem.rdcVec = s.mem.rdcVec := rfl
@[simp] theorem State.setPoison_refill (s : State) (us : List Nat) (b : Bool) : (s.setPoison us b).mem.refill = s.mem.refill := rfl
@[simp] theorem State.setPoison_net (s : State) (us : List Nat) (b : Bool) : (s.setPoison us b).mem.net = s.mem.net := rfl
@[simp] theorem State.setPoison_grants (s : State) (us : List Nat) (b : Bool) : (s.setPoison us b).mem.grants = s.mem.grants := rfl
@[simp] theorem State.setPoison_sliceClk (s : State) (us : List Nat) (b : Bool) : (s.setPoison us b).mem.sliceClk = s.mem.sliceClk := rfl
@[simp] theorem State.setPoison_arrNext (s : State) (us : List Nat) (b : Bool) : (s.setPoison us b).mem.arrNext = s.mem.arrNext := rfl
@[simp] theorem State.setPoison_mwbNext (s : State) (us : List Nat) (b : Bool) : (s.setPoison us b).mem.mwbNext = s.mem.mwbNext := rfl
@[simp] theorem State.setPoison_pend (s : State) (us : List Nat) (b : Bool) : (s.setPoison us b).mem.pend = s.mem.pend := rfl
@[simp] theorem State.setPoison_wbBuf (s : State) (us : List Nat) (b : Bool) : (s.setPoison us b).mem.wbBuf = s.mem.wbBuf := rfl
@[simp] theorem State.setPoison_counts (s : State) (us : List Nat) (b : Bool) : (s.setPoison us b).mem.counts = s.mem.counts := rfl
@[simp] theorem State.setPoison_slcErr (s : State) (us : List Nat) (b : Bool) : (s.setPoison us b).mem.slcErr = s.mem.slcErr := rfl
@[simp] theorem State.setPoison_pcDump (s : State) (us : List Nat) (b : Bool) : (s.setPoison us b).mem.pcDump = s.mem.pcDump := rfl
@[simp] theorem State.setPoison_sigs (s : State) (us : List Nat) (b : Bool) : (s.setPoison us b).mem.sigs = s.mem.sigs := rfl
@[simp] theorem State.setPoison_races (s : State) (us : List Nat) (b : Bool) : (s.setPoison us b).mem.races = s.mem.races := rfl
@[simp] theorem State.setPoison_resv (s : State) (us : List Nat) (b : Bool) : (s.setPoison us b).mem.resv = s.mem.resv := rfl
@[simp] theorem State.setPoison_locked (s : State) (us : List Nat) (b : Bool) : (s.setPoison us b).mem.locked = s.mem.locked := rfl
@[simp] theorem State.setPoison_migr (s : State) (us : List Nat) (b : Bool) : (s.setPoison us b).mem.migr = s.mem.migr := rfl
@[simp] theorem State.setPoison_xlt (s : State) (us : List Nat) (b : Bool) : (s.setPoison us b).xlt = s.xlt := rfl
@[simp] theorem State.setPoison_svc (s : State) (us : List Nat) (b : Bool) : (s.setPoison us b).svc = s.svc := rfl
@[simp] theorem State.setPoison_pkg (s : State) (us : List Nat) (b : Bool) : (s.setPoison us b).pkg = s.pkg := rfl
@[simp] theorem State.setPoison_agenda (s : State) (us : List Nat) (b : Bool) : (s.setPoison us b).agenda = s.agenda := rfl
@[simp] theorem State.setPoison_turn (s : State) (us : List Nat) (b : Bool) : (s.setPoison us b).turn = s.turn := rfl
@[simp] theorem State.setPoison_free (s : State) (us : List Nat) (b : Bool) : (s.setPoison us b).free = s.free := rfl

@[simp] theorem State.putMigr_work (s : State) (i : Nat) (m : Migr) : (s.putMigr i m).work = s.work := rfl
@[simp] theorem State.putMigr_bytes (s : State) (i : Nat) (m : Migr) : (s.putMigr i m).mem.bytes = s.mem.bytes := rfl
@[simp] theorem State.putMigr_blockKey (s : State) (i : Nat) (m : Migr) : (s.putMigr i m).mem.blockKey = s.mem.blockKey := rfl
@[simp] theorem State.putMigr_poison (s : State) (i : Nat) (m : Migr) : (s.putMigr i m).mem.poison = s.mem.poison := rfl
@[simp] theorem State.putMigr_keys (s : State) (i : Nat) (m : Migr) : (s.putMigr i m).mem.keys = s.mem.keys := rfl
@[simp] theorem State.putMigr_acl (s : State) (i : Nat) (m : Migr) : (s.putMigr i m).mem.acl = s.mem.acl := rfl
@[simp] theorem State.putMigr_caches (s : State) (i : Nat) (m : Migr) : (s.putMigr i m).mem.caches = s.mem.caches := rfl
@[simp] theorem State.putMigr_dir (s : State) (i : Nat) (m : Migr) : (s.putMigr i m).mem.dir = s.mem.dir := rfl
@[simp] theorem State.putMigr_rdcVec (s : State) (i : Nat) (m : Migr) : (s.putMigr i m).mem.rdcVec = s.mem.rdcVec := rfl
@[simp] theorem State.putMigr_refill (s : State) (i : Nat) (m : Migr) : (s.putMigr i m).mem.refill = s.mem.refill := rfl
@[simp] theorem State.putMigr_net (s : State) (i : Nat) (m : Migr) : (s.putMigr i m).mem.net = s.mem.net := rfl
@[simp] theorem State.putMigr_grants (s : State) (i : Nat) (m : Migr) : (s.putMigr i m).mem.grants = s.mem.grants := rfl
@[simp] theorem State.putMigr_sliceClk (s : State) (i : Nat) (m : Migr) : (s.putMigr i m).mem.sliceClk = s.mem.sliceClk := rfl
@[simp] theorem State.putMigr_arrNext (s : State) (i : Nat) (m : Migr) : (s.putMigr i m).mem.arrNext = s.mem.arrNext := rfl
@[simp] theorem State.putMigr_mwbNext (s : State) (i : Nat) (m : Migr) : (s.putMigr i m).mem.mwbNext = s.mem.mwbNext := rfl
@[simp] theorem State.putMigr_pend (s : State) (i : Nat) (m : Migr) : (s.putMigr i m).mem.pend = s.mem.pend := rfl
@[simp] theorem State.putMigr_wbBuf (s : State) (i : Nat) (m : Migr) : (s.putMigr i m).mem.wbBuf = s.mem.wbBuf := rfl
@[simp] theorem State.putMigr_counts (s : State) (i : Nat) (m : Migr) : (s.putMigr i m).mem.counts = s.mem.counts := rfl
@[simp] theorem State.putMigr_slcErr (s : State) (i : Nat) (m : Migr) : (s.putMigr i m).mem.slcErr = s.mem.slcErr := rfl
@[simp] theorem State.putMigr_pcDump (s : State) (i : Nat) (m : Migr) : (s.putMigr i m).mem.pcDump = s.mem.pcDump := rfl
@[simp] theorem State.putMigr_sigs (s : State) (i : Nat) (m : Migr) : (s.putMigr i m).mem.sigs = s.mem.sigs := rfl
@[simp] theorem State.putMigr_races (s : State) (i : Nat) (m : Migr) : (s.putMigr i m).mem.races = s.mem.races := rfl
@[simp] theorem State.putMigr_resv (s : State) (i : Nat) (m : Migr) : (s.putMigr i m).mem.resv = s.mem.resv := rfl
@[simp] theorem State.putMigr_locked (s : State) (i : Nat) (m : Migr) : (s.putMigr i m).mem.locked = s.mem.locked := rfl
@[simp] theorem State.putMigr_xlt (s : State) (i : Nat) (m : Migr) : (s.putMigr i m).xlt = s.xlt := rfl
@[simp] theorem State.putMigr_svc (s : State) (i : Nat) (m : Migr) : (s.putMigr i m).svc = s.svc := rfl
@[simp] theorem State.putMigr_pkg (s : State) (i : Nat) (m : Migr) : (s.putMigr i m).pkg = s.pkg := rfl
@[simp] theorem State.putMigr_agenda (s : State) (i : Nat) (m : Migr) : (s.putMigr i m).agenda = s.agenda := rfl
@[simp] theorem State.putMigr_turn (s : State) (i : Nat) (m : Migr) : (s.putMigr i m).turn = s.turn := rfl
@[simp] theorem State.putMigr_free (s : State) (i : Nat) (m : Migr) : (s.putMigr i m).free = s.free := rfl

end Sys2Proof.Machine
end

