-- ==== Sys2Proof/Laws/Words.lean ====
section
/-! SUPPORT. What the shared operations behind the instruction words do, once each: the scalar forms, the lane-by-lane forms, and the
register checks they make. -/

namespace Sys2Proof.Machine

open Sys2Proof.Safety

/-- A word that is ready for more registers is ready for fewer. -/
theorem Thread.ready_sub {s : State} {row : RoleRow} {ss ds vs ss' ds' vs' : List Nat} (h : Ready s row ss ds vs)
    (h1 : ∀ r ∈ ss', r ∈ ss) (h2 : ∀ r ∈ ds', r ∈ ds) (h3 : ∀ r ∈ vs', r ∈ vs) : Ready s row ss' ds' vs' :=
  ⟨h.1, h.2.1, fun r hr => h.2.2.1 r (h1 r hr), fun r hr => h.2.2.2.1 r (h2 r hr), fun r hr => h.2.2.2.2 r (h3 r hr)⟩

/-- A ready word that no check stops performs its body. -/
theorem State.issue_ready (s : State) (need : Thread → Need) (body : State → Res) (row : RoleRow) (ss ds vs : List Nat)
    (h : Ready s row ss ds vs) (hv : verdict s.th (need s.th) = .go) : s.issue need body = (body s).finish (need s.th).ends :=
  State.issue_go _ _ _ h.1 hv

/-! ## Scalar forms -/

theorem State.scalar1_eq (s : State) (d a : BitVec 7) (x : Bool) (f : Word → Word)
    (h : Ready s .every [s.th.abs a] [s.th.abs d] []) : s.scalar1 d a x f = gives s d (f (s.th.valS a)) := by
  obtain ⟨h1, h2, h3, h4, h5⟩ := h
  have hv : verdict s.th { distaff := true, reads := [s.th.srcS a x], sdests := [s.th.abs d] } = .go := by
    apply verdict_go <;> simp_all [Thread.srcS, Thread.empty, Thread.poisoned, RoleRow.permits]
  rw [State.scalar1, State.issue_go _ _ _ h1 hv]
  rfl

theorem State.scalar2_eq (s : State) (d a b : BitVec 7) (x y : Bool) (f : Word → Word → Word)
    (h : Ready s .every [s.th.abs a, s.th.abs b] [s.th.abs d] []) :
    s.scalar2 d a b x y f = gives s d (f (s.th.valS a) (s.th.valS b)) := by
  obtain ⟨h1, h2, h3, h4, h5⟩ := h
  have hv : verdict s.th { distaff := true, reads := [s.th.srcS a x, s.th.srcS b y], sdests := [s.th.abs d] } = .go := by
    apply verdict_go <;> simp_all [Thread.srcS, Thread.empty, Thread.poisoned, RoleRow.permits]
  rw [State.scalar2, State.issue_go _ _ _ h1 hv]
  rfl

theorem State.scalarF_eq (s : State) (d a b : BitVec 7) (x y : Bool) (f : Mode → Word → Word → Word)
    (h : Ready s .every [s.th.abs a, s.th.abs b] [s.th.abs d] []) :
    s.scalarF d a b x y f = gives s d (f s.th.mode (s.th.valS a) (s.th.valS b)) := by
  obtain ⟨h1, h2, h3, h4, h5⟩ := h
  have hv : verdict s.th { distaff := true, reads := [s.th.srcS a x, s.th.srcS b y], sdests := [s.th.abs d] } = .go := by
    apply verdict_go <;> simp_all [Thread.srcS, Thread.empty, Thread.poisoned, RoleRow.permits]
  rw [State.scalarF, State.issue_go _ _ _ h1 hv]
  rfl

theorem State.scalar3_eq (s : State) (d a b : BitVec 7) (x y : Bool) (f : Word → Word → Word → Word)
    (h : Ready s .every [s.th.abs a, s.th.abs b, s.th.abs d] [s.th.abs d] []) :
    s.scalar3 d a b x y f = gives s d (f (s.th.valS d) (s.th.valS a) (s.th.valS b)) := by
  obtain ⟨h1, h2, h3, h4, h5⟩ := h
  have hv : verdict s.th { distaff := true, reads := [s.th.srcS a x, s.th.srcS b y, s.th.srcS d false], sdests := [s.th.abs d] }
      = .go := by
    apply verdict_go <;> simp_all [Thread.srcS, Thread.empty, Thread.poisoned, RoleRow.permits]
  rw [State.scalar3, State.issue_go _ _ _ h1 hv]
  rfl

/-! ## Lanes -/

theorem Thread.lanePoison_clean (t : Thread) (srcs : List Src) (vs : List Nat) (l : Nat)
    (hs : ∀ r ∈ srcs, r.vec = true → r.reg ∈ vs) (hc : ∀ r ∈ vs, t.regs.vPoison.contains (64 * r + l) = false) :
    t.lanePoison srcs l = false := by
  simp only [Thread.lanePoison, List.any_eq_false]
  intro r hr hh
  simp at hh
  have := hc r.reg (hs r hr hh.1.1)
  simp at this
  exact this hh.2

/-- A lane-by-lane word whose sources are clean writes every active lane. -/
theorem State.laneWord_clean (s : State) (srcs : List Src) (f : Regs → List Nat → Regs) (vs : List Nat)
    (hs : ∀ r ∈ srcs, r.vec = true → r.reg ∈ vs) (hc : CleanLanes s vs) :
    s.laneWord srcs f = .done (s.mapTh (fun t => t.mapRegs (fun r => f r s.th.lanes))) := by
  have h1 : s.th.cleanLanes srcs = (s.th.lanes, []) := by
    simp only [Thread.cleanLanes]
    have : ∀ l ∈ s.th.lanes, s.th.lanePoison srcs l = false := fun l hl => Thread.lanePoison_clean _ _ _ _ hs (hc l hl)
    rw [List.filter_eq_self.2 (by intro l hl; simp [this l hl]),
      List.filter_eq_nil_iff.2 (by intro l hl; simp [this l hl])]
  simp [State.laneWord, h1, poisonRes]

theorem State.legal32_bad (s : State) (r : BitVec 7) (h : r.toNat < s.th.ident.nvr ∨ 120 ≤ r.toNat) : s.th.badE 32 r = false := by
  have := r.isLt
  simp only [Thread.badE, Thread.badV, regsOf]
  simp
  split <;> omega

theorem State.legal64_bad (s : State) (r : BitVec 7) (h : r.toNat % 2 = 0 ∧ (r.toNat + 1 < s.th.ident.nvr ∨ 120 ≤ r.toNat)) :
    s.th.badE 64 r = false := by
  have := r.isLt
  simp only [Thread.badE, Thread.badV, regsOf]
  simp
  constructor
  · omega
  · split <;> omega

/-- Elements narrower than a pair are checked as words. -/
theorem Thread.badE_narrow (t : Thread) (w : Nat) (hw : w ≠ 64) (r : BitVec 7) : t.badE w r = t.badE 32 r := by
  have h64 : (w == 64) = false := by simpa using hw
  simp [Thread.badE, regsOf, h64, hw]

/-- A two-source lane word on elements of at most 32 bits. -/
theorem State.vec2_eq32 (s : State) (w : Nat) (hw : w ≠ 64) (d a b : BitVec 7) (x y : Bool) (f : Mode → Nat → Nat → Nat)
    (hl : Legal32 s [d, a, b]) (h : LaneReady s [a.toNat, b.toNat] [d.toNat]) :
    s.vec2 w d a b x y f =
      givesLanes s d (fun l => BitVec.ofNat 32 (onElems2 w (f s.th.mode) (lane s a l).toNat (lane s b l).toNat)) := by
  obtain ⟨⟨hg, h1, h2, h3, h4, h5⟩, hc, ha⟩ := h
  have hr : regsOf w = 1 := by simp [regsOf, hw]
  have hb := s.th.badE_narrow w hw
  have b1 := s.legal32_bad d (hl d (by simp))
  have b2 := s.legal32_bad a (hl a (by simp))
  have b3 := s.legal32_bad b (hl b (by simp))
  rw [State.vec2, State.issue_go _ _ _ h1]
  · simp only []
    rw [State.laneWord_clean s _ _ [a.toNat, b.toNat] _ hc]
    · simp only [Res.finish, givesLanes, passed]
      simp only [State.mapTh, State.mapThread, Thread.mapRegs, Regs.mapE, hw, if_false, State.th, Regs.elem, lane]
    · simp [groupV, hr, upto]
  · apply verdict_go <;> simp_all [groupV, upto, destsV, Thread.empty, Thread.poisoned, RoleRow.permits]

/-- A one-source lane word on elements of at most 32 bits. -/
theorem State.vec1_eq32 (s : State) (w : Nat) (hw : w ≠ 64) (d a : BitVec 7) (x : Bool) (f : Mode → Nat → Nat)
    (hl : Legal32 s [d, a]) (h : LaneReady s [a.toNat] [d.toNat]) :
    s.vec1 w d a x f = givesLanes s d (fun l => BitVec.ofNat 32 (onElems1 w (f s.th.mode) (lane s a l).toNat)) := by
  obtain ⟨⟨hg, h1, h2, h3, h4, h5⟩, hc, ha⟩ := h
  have hr : regsOf w = 1 := by simp [regsOf, hw]
  have hb := s.th.badE_narrow w hw
  have b1 := s.legal32_bad d (hl d (by simp))
  have b2 := s.legal32_bad a (hl a (by simp))
  rw [State.vec1, State.issue_go _ _ _ h1]
  · simp only []
    rw [State.laneWord_clean s _ _ [a.toNat] _ hc]
    · simp only [Res.finish, givesLanes, passed]
      simp only [State.mapTh, State.mapThread, Thread.mapRegs, Regs.mapE, hw, if_false, State.th, Regs.elem, lane]
    · simp [groupV, hr, upto]
  · apply verdict_go <;> simp_all [groupV, upto, destsV, Thread.empty, Thread.poisoned, RoleRow.permits]

/-- A lane word that reads its destination too, on elements of at most 32 bits. -/
theorem State.vec3_eq32 (s : State) (w : Nat) (hw : w ≠ 64) (d a b : BitVec 7) (x y : Bool) (f : Mode → Nat → Nat → Nat → Nat)
    (hl : Legal32 s [d, a, b]) (h : LaneReady s [a.toNat, b.toNat, d.toNat] [d.toNat]) :
    s.vec3 w d a b x y f = givesLanes s d (fun l =>
      BitVec.ofNat 32 (onElems3 w (f s.th.mode) (lane s d l).toNat (lane s a l).toNat (lane s b l).toNat)) := by
  obtain ⟨⟨hg, h1, h2, h3, h4, h5⟩, hc, ha⟩ := h
  have hr : regsOf w = 1 := by simp [regsOf, hw]
  have hb := s.th.badE_narrow w hw
  have b1 := s.legal32_bad d (hl d (by simp))
  have b2 := s.legal32_bad a (hl a (by simp))
  have b3 := s.legal32_bad b (hl b (by simp))
  rw [State.vec3, State.issue_go _ _ _ h1]
  · simp only []
    rw [State.laneWord_clean s _ _ [a.toNat, b.toNat, d.toNat] _ hc]
    · simp only [Res.finish, givesLanes, passed]
      simp only [State.mapTh, State.mapThread, Thread.mapRegs, Regs.mapE, hw, if_false, State.th, Regs.elem, lane]
    · simp [groupV, hr, upto]
  · apply verdict_go <;> simp_all [groupV, upto, destsV, Thread.empty, Thread.poisoned, RoleRow.permits]

/-! ## Memory words -/

/-- R378: at level 0 no flush goes before a word's accesses. -/
theorem State.wordFlush_zero (s : State) (k : Nat) (rs : List Resolved) (h : s.level (s.thread k) = 0) :
    s.wordFlush k rs = some (s, 0, 0) := by
  simp [State.wordFlush, h]

end Sys2Proof.Machine
end

