-- ==== Sys2Proof/Tests/Slice0.lean ====
section
/-! SUPPORT. Tests: the well-formedness checks, words written out from the spec's encodings, and one step of an instruction on a small
state. Every expected value is the spec's, or worked out by hand from its rule; the comment or name says which. -/

namespace Sys2Proof.Tests

-- One proof after another: a few hundred kernel evaluations at once would want a thread each.
set_option Elab.async false

open Sys2Proof.Machine Sys2Proof.Safety

/-! ## Small states -/

/-- A group alone on core 0, privileged, of role any, with 32 active lanes and 120 vector registers. -/
def grp : State := (State.reset.placeGroup 3 0).setCur (groupKey 0 0)

/-- The same group of the matrix role. -/
def mat : State := (State.reset.placeGroup 1 0).setCur (groupKey 0 0)

/-- Hardware thread 0 of distaff core 0, fetched to a clause of one word. -/
def dst : State := (State.reset.giveWord (distaffKey 0 0) 0).setCur (distaffKey 0 0)

/-- A scalar register of the current thread holds a value. -/
def withS (s : State) (r : BitVec 7) (v : Word) : State := s.setS r v

/-- Every lane of a vector register holds a value. -/
def withV (s : State) (r : Nat) (v : Lane) : State :=
  s.mapTh (fun t => t.mapRegs (fun g => g.mapV r (List.range 64) (fun _ => v)))

/-- The state that an instruction leaves. -/
def after (i : Instr) (s : State) : State :=
  match exec i s with
  | .next t => t
  | _ => s

/-- Scalar register 5 after a word on s3 and s4. -/
def s5 (i : Instr) (u v : Word) : Word := (after i (withS (withS grp 3 u) 4 v)).th.regs.s 5

/-- Lane 7 of v5 after a word on v3 and v4. -/
def v5 (i : Instr) (u v : Lane) : Lane := (after i (withV (withV grp 3 u) 4 v)).th.regs.v 5 7

/-- A word on s3 that holds a value: the state after it. -/
def on3 (s : State) (u : Word) (i : Instr) : State := after i (withS s 3 u)

/-! ## Ill-formed terms are refused (R193) -/

theorem test_wf_sset_code : illFormed (.sset 6 5 3 4 false false) = some .reservedCode := by decide
theorem test_wf_vcmp_code : illFormed (.vcmp false 7 0 3 4 false false) = some .reservedCode := by decide
theorem test_wf_mlog_code : illFormed (.mlog 6 1 2 3) = some .reservedCode := by decide
theorem test_wf_vshuf_code : illFormed (.vshuf 5 3 4 5 false false) = some .reservedCode := by decide
theorem test_wf_vld_form : illFormed (.vld 7 4 3 20 false false) = some .reservedCode := by decide
theorem test_wf_vst_form : illFormed (.vst 5 4 3 20 false false) = some .reservedCode := by decide
theorem test_wf_vlds_form : illFormed (.vlds 4 4 3 20 false false) = some .reservedCode := by decide
theorem test_wf_mmas_format : illFormed (.mmas 3 0 0 0 false 0 false false false) = some .reservedCode := by decide
theorem test_wf_mma_format : illFormed (.mma 5 0 16 40 false 0 false false) = some .reservedCode := by decide
theorem test_wf_sfcvt_equal : illFormed (.sfcvt 1 1 5 3 false) = some .scalarConversion := by decide
theorem test_wf_sfcvt_integers : illFormed (.sfcvt 2 3 5 3 false) = some .scalarConversion := by decide
theorem test_wf_mlog_not_operand : illFormed (.mlog 5 1 2 3) = some .maskOperand := by decide
theorem test_wf_vunpk_format : illFormed (.vunpk 5 3 4 0) = some .unpackFormat := by decide
theorem test_wf_vunpk_element : illFormed (.vunpk 5 3 8 2) = some .unpackFormat := by decide
theorem test_wf_vpack_operand : illFormed (.vpack 4 5 3 1 false false) = some .packOperand := by decide
theorem test_wf_vcvt_equal : illFormed (.vcvt 10 10 4 6 false) = some .vectorConversion := by decide
theorem test_wf_vcvt_reserved : illFormed (.vcvt 14 10 4 6 false) = some .vectorConversion := by decide
theorem test_wf_vred_operation : illFormed (.vred 6 0 5 3 false) = some .reduction := by decide
theorem test_wf_vscan_bitwise_float : illFormed (.vscan 3 4 5 3 false) = some .reduction := by decide
theorem test_wf_mma_scale : illFormed (.mma 3 0 16 40 false 1 false false) = some .scaleSelect := by decide
theorem test_wf_sld_type : illFormed (.sld 5 3 false 3) = some .memoryType := by decide
theorem test_wf_sst_type : illFormed (.sst 5 3 false 1) = some .memoryType := by decide
theorem test_wf_swaitge_type : illFormed (.swaitge 5 3 false false 1 0 0) = some .memoryType := by decide
theorem test_wf_sldo_release : illFormed (.sldo 5 3 false false 2 2 1) = some .memoryOrder := by decide
theorem test_wf_ssto_acquire : illFormed (.ssto 5 3 false 2 1 1) = some .memoryOrder := by decide
theorem test_wf_satom_bitwise_float : illFormed (.satom 3 5 3 false 4 0 0) = some .atomicType := by decide
theorem test_wf_vatom_type : illFormed (.vatom 0 5 3 false 6 0 0) = some .atomicType := by decide
theorem test_wf_fence_relaxed : illFormed (.fence 0 1) = some .fenceOrder := by decide
theorem test_wf_push_queue : illFormed (.push 5 16 10) = some .reservedQueue := by decide
theorem test_wf_push_registers : illFormed (.push 5 121 0) = some .commandRegisters := by decide
theorem test_wf_barinit_b0 : illFormed (.barinit 5 0 false) = some .barrier := by decide
theorem test_wf_bararv_number : illFormed (.bararv 20) = some .barrier := by decide
theorem test_wf_txbegin_count : illFormed (.txbegin 5 0) = some .retryCount := by decide
theorem test_wf_good : WellFormed (.push 5 120 9) ∧ WellFormed (.barinit 5 19 true) ∧ WellFormed (.sset 5 5 3 4 false false) ∧ WellFormed (.mma 4 0 16 40 false 0 false false) := by exact ⟨rfl, rfl, rfl, rfl⟩

/-! ## Words written out in the spec (chapters 9, 10, 11, 13, 14 and 25) -/

theorem test_word_sadd : decode 0x04050611#32 = .ok (.sadd 5 3 4 false true) ∧ encode (.sadd 5 3 4 false true) = some 0x04050611#32 := by exact ⟨rfl, rfl⟩
theorem test_word_smovi : decode 0x28280048#32 = .ok (.smovi 5 0x48) ∧ encode (.smovi 5 0x48) = some 0x28280048#32 := by exact ⟨rfl, rfl⟩
theorem test_word_shigh : decode 0x2C2E8ACF#32 = .ok (.shigh 5 0x68ACF) ∧ encode (.shigh 5 0x68ACF) = some 0x2C2E8ACF#32 := by exact ⟨rfl, rfl⟩
theorem test_word_saddi : decode 0x20142BFF#32 = .ok (.saddi 10 10 0x3FF) ∧ encode (.saddi 10 10 0x3FF) = some 0x20142BFF#32 := by exact ⟨rfl, rfl⟩
theorem test_word_brnz : decode 0x410A0000#32 = .ok (.brnz 10 0) ∧ encode (.brnz 10 0) = some 0x410A0000#32 := by exact ⟨rfl, rfl⟩
theorem test_word_br : decode 0x4000FFF6#32 = .ok (.br 0xFFF6) ∧ encode (.br 0xFFF6) = some 0x4000FFF6#32 := by exact ⟨rfl, rfl⟩
theorem test_word_brz : decode 0x408B000B#32 = .ok (.brz 11 11) ∧ encode (.brz 11 11) = some 0x408B000B#32 := by exact ⟨rfl, rfl⟩
theorem test_word_haltg : decode 0x45800000#32 = .ok (.haltg) ∧ encode (.haltg) = some 0x45800000#32 := by exact ⟨rfl, rfl⟩
theorem test_word_mma : decode 0xA0220A28#32 = .ok (.mma 0 2 16 40 true 1 false false) ∧ encode (.mma 0 2 16 40 true 1 false false) = some 0xA0220A28#32 := by exact ⟨rfl, rfl⟩
theorem test_word_sldo : decode 0xBC881226#32 = .ok (.sldo 8 9 false false 2 1 2) ∧ encode (.sldo 8 9 false false 2 1 2) = some 0xBC881226#32 := by exact ⟨rfl, rfl⟩
theorem test_word_fence : decode 0xFC100009#32 = .ok (.fence 2 1) ∧ encode (.fence 2 1) = some 0xFC100009#32 := by exact ⟨rfl, rfl⟩
theorem test_word_vcvt : decode 0xFDCA0818#32 = .ok (.vcvt 12 10 4 6 false) ∧ encode (.vcvt 12 10 4 6 false) = some 0xFDCA0818#32 := by exact ⟨rfl, rfl⟩
theorem test_word_vshuf : decode 0x98830814#32 = .ok (.vshuf 1 3 4 5 false false) ∧ encode (.vshuf 1 3 4 5 false false) = some 0x98830814#32 := by exact ⟨rfl, rfl⟩
theorem test_word_vred : decode 0xFE041820#32 = .ok (.vred 0 4 12 8 false) ∧ encode (.vred 0 4 12 8 false) = some 0xFE041820#32 := by exact ⟨rfl, rfl⟩
theorem test_word_vxch : decode 0x9B900054#32 = .ok (.vxch 16 21 false) ∧ encode (.vxch 16 21 false) = some 0x9B900054#32 := by exact ⟨rfl, rfl⟩
theorem test_word_vrebal : decode 0x9D8A04A0#32 = .ok (.vrebal 3 10 2 40 false false) ∧ encode (.vrebal 3 10 2 40 false false) = some 0x9D8A04A0#32 := by exact ⟨rfl, rfl⟩
theorem test_word_vld : decode 0xB2040650#32 = .ok (.vld 4 4 3 20 false false) ∧ encode (.vld 4 4 3 20 false false) = some 0xB2040650#32 := by exact ⟨rfl, rfl⟩
theorem test_word_vst : decode 0xB5040650#32 = .ok (.vst 2 4 3 20 false false) ∧ encode (.vst 2 4 3 20 false false) = some 0xB5040650#32 := by exact ⟨rfl, rfl⟩
theorem test_word_sld : decode 0xBE8A1020#32 = .ok (.sld 10 8 false 2) ∧ encode (.sld 10 8 false 2) = some 0xBE8A1020#32 := by exact ⟨rfl, rfl⟩
theorem test_word_swaitge : decode 0xBE0C1AA6#32 = .ok (.swaitge 12 13 false true 2 1 2) ∧ encode (.swaitge 12 13 false true 2 1 2) = some 0xBE0C1AA6#32 := by exact ⟨rfl, rfl⟩
theorem test_word_satom : decode 0xCC0A1622#32 = .ok (.satom 0 10 11 false 2 0 2) ∧ encode (.satom 0 10 11 false 2 0 2) = some 0xCC0A1622#32 := by exact ⟨rfl, rfl⟩
theorem test_word_zld : decode 0xD00A18A0#32 = .ok (.zld 10 12 40 false false) ∧ encode (.zld 10 12 40 false false) = some 0xD00A18A0#32 := by exact ⟨rfl, rfl⟩
theorem test_word_znext : decode 0xD2982878#32 = .ok (.znext true 24 20 30 false false) ∧ encode (.znext true 24 20 30 false false) = some 0xD2982878#32 := by exact ⟨rfl, rfl⟩
theorem test_word_push : decode 0xD8022010#32 = .ok (.push 2 16 4) ∧ encode (.push 2 16 4) = some 0xD8022010#32 := by exact ⟨rfl, rfl⟩
theorem test_word_waitc : decode 0xD8800010#32 = .ok (.waitc 4) ∧ encode (.waitc 4) = some 0xD8800010#32 := by exact ⟨rfl, rfl⟩
theorem test_word_sgetwp : decode 0xD9050004#32 = .ok (.sgetwp 5 1) ∧ encode (.sgetwp 5 1) = some 0xD9050004#32 := by exact ⟨rfl, rfl⟩
theorem test_word_barinit : decode 0xE0000E44#32 = .ok (.barinit 7 17 false) ∧ encode (.barinit 7 17 false) = some 0xE0000E44#32 := by exact ⟨rfl, rfl⟩
theorem test_word_bararw : decode 0xE1000008#32 = .ok (.bararw 2) ∧ encode (.bararw 2) = some 0xE1000008#32 := by exact ⟨rfl, rfl⟩
theorem test_word_ringget_free : decode 0xE3830014#32 = .ok (.ringgetFree 3 5) ∧ encode (.ringgetFree 3 5) = some 0xE3830014#32 := by exact ⟨rfl, rfl⟩
theorem test_word_mbpost : decode 0xE4005058#32 = .ok (.mbpost 40 22 false false) ∧ encode (.mbpost 40 22 false false) = some 0xE4005058#32 := by exact ⟨rfl, rfl⟩
theorem test_word_mbtake : decode 0xE4B02E58#32 = .ok (.mbtake 48 23 22 false false) ∧ encode (.mbtake 48 23 22 false false) = some 0xE4B02E58#32 := by exact ⟨rfl, rfl⟩
theorem test_word_txbegin : decode 0xE8090008#32 = .ok (.txbegin 9 2) ∧ encode (.txbegin 9 2) = some 0xE8090008#32 := by exact ⟨rfl, rfl⟩
theorem test_word_txend : decode 0xE88A0000#32 = .ok (.txend 10) ∧ encode (.txend 10) = some 0xE88A0000#32 := by exact ⟨rfl, rfl⟩
theorem test_word_txabort : decode 0xE9000014#32 = .ok (.txabort 5) ∧ encode (.txabort 5) = some 0xE9000014#32 := by exact ⟨rfl, rfl⟩
theorem test_word_txstat : decode 0xE98B0000#32 = .ok (.txstat 11) ∧ encode (.txstat 11) = some 0xE98B0000#32 := by exact ⟨rfl, rfl⟩
theorem test_word_srd : decode 0xF0201001#32 = .ok (.srd 4 0x1001) ∧ encode (.srd 4 0x1001) = some 0xF0201001#32 := by exact ⟨rfl, rfl⟩
theorem test_word_swr : decode 0xF4301000#32 = .ok (.swr 6 0x1000) ∧ encode (.swr 6 0x1000) = some 0xF4301000#32 := by exact ⟨rfl, rfl⟩
theorem test_word_trap : decode 0xF8000024#32 = .ok (.trap 9) ∧ encode (.trap 9) = some 0xF8000024#32 := by exact ⟨rfl, rfl⟩
theorem test_word_tinvc : decode 0xF9830800#32 = .ok (.tinvc 3 4 false) ∧ encode (.tinvc 3 4 false) = some 0xF9830800#32 := by exact ⟨rfl, rfl⟩
theorem test_word_launch : decode 0xFA022000#32 = .ok (.launch 2 16) ∧ encode (.launch 2 16) = some 0xFA022000#32 := by exact ⟨rfl, rfl⟩
theorem test_word_idle : decode 0xFFC00000#32 = .ok (.idle) ∧ encode (.idle) = some 0xFFC00000#32 := by exact ⟨rfl, rfl⟩
theorem test_word_keysel : decode 0xFFC10014#32 = .ok (.keysel 5 false) ∧ encode (.keysel 5 false) = some 0xFFC10014#32 := by exact ⟨rfl, rfl⟩
theorem test_word_rtcall : decode 0xFFC20C1C#32 = .ok (.rtcall 6 7 false) ∧ encode (.rtcall 6 7 false) = some 0xFFC20C1C#32 := by exact ⟨rfl, rfl⟩
theorem test_word_unassigned : decode 0xE5000000#32 = .error .unassignedFunction := by rfl
theorem test_word_illegal : wordInstr 0xE0000050#32 = none ∧ wordInstr 0xD802203C#32 = none := by decide
theorem test_table_word : decodeTableWord 32 0x28280048 = some (.smovi 5 0x48) := by decide
theorem test_first_turn : ((match Sys2Proof.Machine.step (State.reset.withFetchWord 32 0x28280048) with
    | .next t => (t.thread 0).regs.s 5
    | _ => 0) = 0x48) := by decide +kernel

/-! ## Scalar words (the table after R206; R208) -/

theorem test_sdiv_by_zero : s5 (.sdiv 5 3 4 false false) 0x7 0x0 = 0x0 := by decide +kernel
theorem test_srem_by_zero : s5 (.srem 5 3 4 false false) 0x7 0x0 = 0x7 := by decide +kernel
theorem test_sdiv_truncates : s5 (.sdiv 5 3 4 false false) 0xFFFFFFFFFFFFFFF9 0x2 = 0xFFFFFFFFFFFFFFFD := by decide +kernel
theorem test_srem_sign : s5 (.srem 5 3 4 false false) 0xFFFFFFFFFFFFFFF9 0x2 = 0xFFFFFFFFFFFFFFFF := by decide +kernel
theorem test_sdiv_overflow : s5 (.sdiv 5 3 4 false false) 0x8000000000000000 0xFFFFFFFFFFFFFFFF = 0x8000000000000000 := by decide +kernel
theorem test_sdivn : s5 (.sdivn 5 3 4 false false) 0xFFFFFFFFFFFFFFFF 0x2 = 0x7FFFFFFFFFFFFFFF := by decide +kernel
theorem test_sshl_modulo : s5 (.sshl 5 3 4 false false) 0x1 0x41 = 0x2 := by decide +kernel
theorem test_srot : s5 (.srot 5 3 4 false false) 0x8000000000000001 0x4 = 0x18 := by decide +kernel
theorem test_smulh : s5 (.smulh 5 3 4 false false) 0xFFFFFFFFFFFFFFFF 0x3 = 0xFFFFFFFFFFFFFFFF := by decide +kernel
theorem test_smulhn : s5 (.smulhn 5 3 4 false false) 0xFFFFFFFFFFFFFFFF 0x3 = 0x2 := by decide +kernel
theorem test_sbfe_signed : s5 (.sbfe 5 3 4 false false) 0xB70 0x8804 = 0xFFFFFFFFFFFFFFB7 := by decide +kernel
theorem test_sbfe_unsigned : s5 (.sbfe 5 3 4 false false) 0xB70 0x804 = 0xB7 := by decide +kernel
theorem test_sbfe_cut : s5 (.sbfe 5 3 4 false false) 0xF000000000000000 0x883C = 0xFFFFFFFFFFFFFFFF := by decide +kernel
theorem test_sbfe_empty : s5 (.sbfe 5 3 4 false false) 0xF000000000000000 0x803C = 0x0 := by decide +kernel
theorem test_ssub_wraps : s5 (.ssub 5 3 4 false false) 0x0 0x1 = 0xFFFFFFFFFFFFFFFF := by decide +kernel
theorem test_sminn_unsigned : s5 (.sminn 5 3 4 false false) 0xFFFFFFFFFFFFFFFF 0x1 = 0x1 := by decide +kernel
theorem test_smin_signed : s5 (.smin 5 3 4 false false) 0xFFFFFFFFFFFFFFFF 0x1 = 0xFFFFFFFFFFFFFFFF := by decide +kernel
theorem test_sandn : s5 (.sandn 5 3 4 false false) 0xFF 0xF = 0xF0 := by decide +kernel
theorem test_sclz_zero : s5 (.sclz 5 3 false) 0 0 = 64 := by decide +kernel
theorem test_sset_signed : s5 (.sset 2 5 3 4 false false) 0xFFFFFFFFFFFFFFFF 0 = 1 ∧ s5 (.sset 4 5 3 4 false false) 0xFFFFFFFFFFFFFFFF 0 = 0 := by decide +kernel
theorem test_shigh : (after (.shigh 5 0x9ABC) (withS grp 5 0x2468ACF)).th.regs.s 5 = 0x123456789ABC := by decide +kernel
theorem test_smovi_sign : (after (.smovi 5 0x7FFFF) grp).th.regs.s 5 = 0xFFFFFFFFFFFFFFFF := by decide +kernel
theorem test_ssel_else : (after (.ssel 5 3 4 false false) (withS (withS (withS grp 3 1) 4 2) 5 0)).th.regs.s 5 = 2 := by decide +kernel
theorem test_sfadd_f32 : s5 (.sfadd false 5 3 4 false false) 0x3F800000 0x40000000 = 0x40400000 := by decide +kernel
theorem test_sfcvt_f64_f32 : s5 (.sfcvt 1 0 5 3 false) 0x3F800000 0 = 0x3FF0000000000000 := by decide +kernel
theorem test_call_links : (after (.call 5 2) grp).th.regs.s 5 = 8 ∧ (after (.call 5 2) grp).th.fetch.hdr = 8 := by decide +kernel
theorem test_jmpi_misaligned : (on3 grp 6 (.jmpi 3 false)).th.status = .parked := by decide +kernel
theorem test_br_backward : (after (.br 0xFFFF) (grp.mapTh (fun t => { t with fetch := { t.fetch with hdr := 64 } }))).th.fetch.hdr = 60 := by decide +kernel
theorem test_ppush_pinv : ((after .pinv (after (.ppush 1) (grp.mapTh (fun t => t.mapRegs (fun r => r.setM 1 5))))).th.pstack.head?) = some (0xFFFFFFFA, 0xFFFFFFFA) := by decide +kernel
theorem test_psetm_cuts : ((on3 grp 0xFFFFFFFFFFFFFFFF (.psetm 2 3 false)).th.regs.m 2) = 0xFFFFFFFF := by decide +kernel
theorem test_haltg_ends : (after .haltg grp).th.status = .ended ∧ (after .haltg dst).th.status = .stopped := by decide +kernel

/-! ## Vector words (the table after R230; R226, R237, R241) -/

theorem test_vadd8 : v5 (.vadd8 5 3 4 false false) 0x7F01FF80 0x1010180 = 0x80020000 := by decide +kernel
theorem test_vsadd8 : v5 (.vsaddI8 5 3 4 false false) 0x7F01FF80 0x1010180 = 0x7F020080 := by decide +kernel
theorem test_vssub_n32 : v5 (.vssubN32 5 3 4 false false) 0x5 0x9 = 0x0 := by decide +kernel
theorem test_vmulh : v5 (.vmulhI32 5 3 4 false false) 0xFFFFFFFF 0x3 = 0xFFFFFFFF := by decide +kernel
theorem test_vsra32 : v5 (.vsra32 5 3 4 false false) 0x80000000 0x21 = 0xC0000000 := by decide +kernel
theorem test_vabs_min : v5 (.vabs 2 5 3 false) 0x80000000 0x0 = 0x80000000 := by decide +kernel
theorem test_vclz16 : v5 (.vclz 1 5 3 false) 0x10000 0x0 = 0xF0010 := by decide +kernel
theorem test_vbfe_signed : v5 (.vbfeI32 5 3 4 false false) 0xB70 0x804 = 0xFFFFFFB7 := by decide +kernel
theorem test_vbfe_cut : v5 (.vbfeN32 5 3 4 false false) 0xB70 0x81C = 0x0 := by decide +kernel
theorem test_vfadd32 : v5 (.vfadd 2 5 3 4 false false) 0x3F800000 0x40000000 = 0x40400000 := by decide +kernel
theorem test_vfmul16 : v5 (.vfmul 0 5 3 4 false false) 0x3C004000 0x40003C00 = 0x40004000 := by decide +kernel
theorem test_vunpk_zt8 : v5 (.vunpk 5 3 12 1) 0x807F2348 0x0 = 0x3E980000 := by decide +kernel
theorem test_vfclass_minus_zero : v5 (.vfclass 2 5 3 false) 0x80000000 0x0 = 0x8 := by decide +kernel
theorem test_vbcast_any_lane : ((after (.vbcast 5 3 4 false false) (withS (grp.mapTh (fun t => t.mapRegs (fun r => r.mapV 3 (List.range 64) (fun l => BitVec.ofNat 32 (100 + l))))) 4 31)).th.regs.v 5 2) = 131 := by decide +kernel
theorem test_vballot : ((after (.vballot 5 3 false) (grp.mapTh (fun t => t.mapRegs (fun r => r.setV 3 4 9)))).th.regs.s 5) = 16 := by decide +kernel
theorem test_vred_add : ((after (.vred 0 0 5 3 false) (withV grp 3 0xFFFFFFFF)).th.regs.s 5) = 0xFFFFFFFFFFFFFFE0 := by decide +kernel
theorem test_vscan_add : ((after (.vscan 0 0 5 3 false) (withV grp 3 2)).th.regs.v 5 7) = 16 := by decide +kernel
theorem test_vcmp_lanes : ((after (.vcmp false 2 1 3 4 false false) (withV (withV grp 3 1) 4 2)).th.regs.m 1) = 0xFFFFFFFF := by decide +kernel
theorem test_vpack_zt8 : ((after (.vpack 4 20 12 0 false false) ((((grp.mapTh (fun t => t.mapRegs (fun r => r.setV 12 0 0x3FC00000))).mapTh
    (fun t => t.mapRegs (fun r => r.setV 13 0 0x3E99999A))).mapTh (fun t => t.mapRegs (fun r => r.setV 14 0 0x453B8000))).mapTh
    (fun t => t.mapRegs (fun r => r.setV 15 0 0xFF800000)))).th.regs.v 20 0) = 0x807F2348 := by decide +kernel

/-! ## Traps, system words and checks (R144, R148, R323, R324, R385, R386, R399) -/

theorem test_trap_saves : (let t := (after (.trap 9) dst).th
    t.trap.tcs = 0xA012000900000000 ∧ t.priv = true ∧ t.fetch.words = []) := by decide +kernel
theorem test_eret_returns : (let t := (after .eret (dst.mapTh (fun t => { t with
      trap := { t.trap with tcs := 0x8000000000000000, trsm := 0x3000000000000040 } }))).th
    t.fetch = ⟨0x40, 3, []⟩ ∧ t.priv = false ∧ t.trap.tcs = 0) := by decide +kernel
theorem test_group_parks : (after (.trap 9) grp).th.status = .parked := by decide +kernel
theorem test_user_swr_refused : ((after (.swr 3 0x2000) (dst.mapTh (fun t => { t with priv := false }))).th.trap.tcs.toNat / 2 ^ 48 % 256) = 0x0F := by decide +kernel
theorem test_simt_word_on_distaff : ((after (.vadd32 5 3 4 false false) dst).th.trap.tcs.toNat / 2 ^ 48 % 256) = 1 := by decide +kernel
theorem test_swr_rm : (on3 grp 3 (.swr 3 0x1000)).th.rm = 3 ∧ (on3 grp 5 (.swr 3 0x1000)).th.rm = 0 := by decide +kernel
theorem test_srd_group_id : ((after (.srd 5 0x1001) grp).th.regs.s 5) = grp.sysRead grp.th .id := by decide +kernel
theorem test_idle_stops : (after .idle dst).th.status = .idle := by decide +kernel
theorem test_txbegin : (let t := (after (.txbegin 5 2) grp).th; t.tx.live = true ∧ t.tx.budget = 2 ∧ t.fetch = ⟨8, 0, []⟩) := by decide +kernel
theorem test_txabort : (let t := (after (.txabort 5) (after (.txbegin 5 2) grp)).th
    t.tx.live = false ∧ t.tx.cause = 4 ∧ t.tx.code = 5 ∧ t.regs.s 5 = 0xFFFFFFFF ∧ t.fetch.hdr = 8) := by decide +kernel
theorem test_txstat_outside : (after (.txstat 5) grp).th.regs.s 5 = 0 := by decide +kernel
theorem test_fence_nothing_outstanding : (after (.fence 3 2) grp).th.fetch.hdr = 8 := by decide +kernel
theorem test_region_enters : (after (.region 0) dst).th.fetch.hdr = 8 := by decide +kernel

/-! ## Scratchpad and memory (R102, R103, R272) -/

theorem test_setByte_reads_back : ((State.reset.setByte 7 0x1000 0xAB).homeByte 7 0x1000) = 0xAB := by decide +kernel
theorem test_setByte_form : Memory.wf ((State.reset.setByte 7 0x1001 1).setByte 7 0x1000 2).mem.bytes = true := by decide +kernel

/-! ## Events (R365, R371, R404, R410, R412) -/

theorem test_link_failure : (after (.linkTrainingFailure 3) State.reset).pkg.links = [0, 1, 2, 4, 5, 6] := by decide +kernel
theorem test_power_throttle : ((after .powerThrottle State.reset).thread (distaffKey 16 0)).trap.irq = 0x20 := by decide +kernel
theorem test_doorbell_wakes : (let t := (after (.cxlDoorbell 0) (after .idle dst)).thread (distaffKey 0 0)
    t.trap.irq = 4 ∧ t.status = .running) := by decide +kernel
theorem test_failed_boot_stays : (after (.packageReset 5 [(true, [1]), (false, [2])]) State.reset).pkg.booted = false := by decide +kernel
theorem test_block_end_frees : ((after (.blockEnd 1 0) (after .haltg grp)).thread 0).status = .vacant := by decide +kernel
theorem test_debug_stop : ((after (.debugTrap 0) (grp.mapCore 0 (fun c => { c with dbgStop := 1 }))).core 0).dbgStop = 0 := by decide +kernel
theorem test_throttle_interval : ((after (.throttleInterval 0) grp).core 0).permits = [0] := by decide +kernel
theorem test_swr_not_assigned : ((after (.sysregWrite 0x7FFFF 0) dst).th.trap.tcs.toNat / 2 ^ 48 % 256) = 1 := by decide +kernel

/-! ## Witnesses: states and operands that meet the hypotheses of the obligations together -/

/-- An outcome is a next state. -/
def goes (o : Host.Outcome State Fault Refusal) : Bool :=
  match o with
  | .next _ => true
  | _ => false

/-- A thread of which nothing is fetched. -/
def unfetched (s : State) : State := s.mapTh (fun t => { t with fetch := ⟨0, 0, []⟩ })

/-- A group whose kernel has a trap clause at 64. -/
def guarded (s : State) : State := s.mapLaunch s.th.ident.lnum (fun l => { l with trapOff := 64 })

/-- A thread in user mode. -/
def user (s : State) : State := s.mapTh (fun t => { t with priv := false })

/-- The registers of a thread, changed. -/
def regs (s : State) (f : Regs → Regs) : State := s.mapTh (fun t => t.mapRegs f)

/-- The active lanes of a group are those of a mask. -/
def lanesOf (s : State) (m : Mask) : State := s.mapTh (fun t => { t with pstack := [(m, m)] })

/-- A placed word, before its turn. -/
def placed : State := State.reset.withFetchWord 32 0x28280048

/-- A group alone on core 0 with one active lane, whose core holds the line at 0x1000 exclusively: that address stands in s3 and in the
pair v4, v5, and v8 holds no offset. -/
def near : State :=
  let s := lanesOf (withV (withS grp 3 0x1000) 4 0x1000) 1
  { s with mem := { s.mem with
    acl := [(0, 0x0028003F), (192, 0x0028003F)]
    caches := [(0, [(32, CLine.clean 0 0 .E 0)])] } }

theorem witness_EncodeAndDecode : WellFormed (.sadd 5 3 4 false true) ∧ encode (.sadd 5 3 4 false true) = some 0x04050611#32 :=
  ⟨rfl, rfl⟩

theorem witness_StepRunsDecodedInstruction : placed.agenda.head? = some (.issue 0) ∧ placed.pkg.booted = true
    ∧ (placed.thread 0).status = .running ∧ (placed.thread 0).kind = .group ∧ placed.dieHeld (dieOf 0) = false
    ∧ (placed.thread 0).wait = .none ∧ (placed.thread 0).later = [] ∧ (placed.core 0).dbgStop.testBit 0 = false
    ∧ (placed.block? 1 0).map (·.st) = some .resident ∧ (placed.thread 0).fetch.wix = 1 ∧ (placed.thread 0).tx.live = false
    ∧ placed.isActive 0 = false ∧ (placed.seat 0 0).isSome = true
    ∧ wordInstr (nth (placed.thread 0).fetch.words 1 0) = some (.smovi 5 0x48)
    ∧ goes (exec (.smovi 5 0x48) (placed.setCur 0)) = true := by decide +kernel

theorem witness_StepKeepsMemoryForm : MemoryForm State.reset ∧ goes (step State.reset) = true :=
  ⟨by unfold MemoryForm; decide +kernel, by decide +kernel⟩

theorem witness_IssueChecks : (grp.th.issues = true ∧ grp.th.kind = .group ∧ (user grp).th.priv = false)
    ∧ (dst.th.issues = true ∧ dst.th.kind = .distaff ∧ (user dst).th.priv = false) := by decide +kernel

theorem witness_IssueChecks_role : (∃ s : State, s = (State.reset.placeGroup 0 0).setCur 0 ∧ s.th.issues = true ∧ s.th.kind = .group
    ∧ s.th.ident.role = 0 ∧ ∀ r ∈ [6, 4, 8], r < s.th.ident.nvr) := ⟨_, rfl, by decide +kernel⟩

theorem witness_IssueChecks_registers : (∃ s : State, s = regs grp (fun r => { r with sEmpty := [3], sPoison := [4] }) ∧ s.th.issues = true
    ∧ s.th.regs.sFull (s.th.abs 3) = false ∧ s.th.regs.sFull (s.th.abs 4) = true ∧ s.th.regs.sPoison.contains (s.th.abs 4) = true) :=
  ⟨_, rfl, by decide +kernel⟩

theorem witness_IssueChecks_fetch : (unfetched near).th.issues = true ∧ (unfetched near).th.fetch.words = []
    ∧ (unfetched near).matrixOut = false ∧ (unfetched near).th.fetch.hdr.toNat % 4 = 0
    ∧ (match (unfetched near).fetchWord 0 0 with | .ok _ [_] => true | _ => false) = true
    ∧ (match (unfetched near).fetchWord 0 0 with | .ok s _ => (match s.fetchWords 0 4 2 with | .ok _ _ => true | _ => false) | _ => false) = true := by decide +kernel

theorem witness_TrapEntry : (Outside (guarded grp) ∧ (guarded grp).th.kind = .group ∧ (guarded grp).trapClause (guarded grp).th = some 64
      ∧ (guarded grp).th.trap.tcs.getLsbD 63 = false)
    ∧ (Outside grp ∧ grp.trapClause grp.th = none ∧ grp.holdRoom grp.th.die = true)
    ∧ Outside dst ∧ dst.th.kind = .distaff ∧ dst.th.trap.tcs.getLsbD 63 = false := by decide +kernel

theorem witness_TrapAndReturn : Ready (guarded grp) .every [] [] [] ∧ Ready dst .every [] [] [] ∧ dst.th.trap.trsm.toNat % 2 ^ 56 % 4 = 0
    ∧ (∃ s : State, s = grp.mapTh (fun t => { t with trap := { t.trap with tcs := 0x8000000000000000 } }) ∧ Ready s .every [] [] []
        ∧ Outside s ∧ s.th.trap.tcs.getLsbD 63 = true)
    ∧ ∃ s : State, s = guarded (after (.txbegin 5 2) grp) ∧ Ready s .every [] [] [] ∧ s.th.tx.live = true ∧ s.trapClause s.th = some 64 :=
  ⟨by decide +kernel, by decide +kernel, by decide +kernel, ⟨_, rfl, by decide +kernel⟩, ⟨_, rfl, by decide +kernel⟩⟩

/-- The scalar words' obligations, their frame among them. -/
theorem witness_scalar_words : Ready grp .every [grp.th.abs 3, grp.th.abs 4, grp.th.abs 5] [grp.th.abs 5] []
    ∧ Ready dst .every [dst.th.abs 3, dst.th.abs 4, dst.th.abs 5] [dst.th.abs 5] [] := by decide +kernel

theorem witness_ControlTransfers : Ready grp .every [grp.th.abs 3] [] [] ∧ grp.th.kind = .group ∧ (grp.th.valS 3).toNat % 4 = 0 := by
  decide +kernel

theorem witness_ThreadControl : Ready grp .every [] [] [] ∧ grp.th.tx.live = false ∧ grp.th.producers = [] ∧ grp.th.kind = .group
    ∧ ((grp.mapLaunch 1 (fun l => { l with regCnt := 4 })).launch? grp.th.ident.lnum).map (·.regCnt) = some 4
    ∧ Ready dst .every [] [] [] ∧ dst.th.tx.live = false ∧ dst.th.producers = [] ∧ dst.th.priv = true := by decide +kernel

theorem witness_PredicationAndMasks : Outside grp ∧ GroupReady grp .every [grp.th.abs 5] [grp.th.abs 5] []
    ∧ grp.th.pstack = [(0xFFFFFFFF, 0xFFFFFFFF)]
    ∧ (after (.ppush 1) grp).th.pstack = [(0, 0), (0xFFFFFFFF, 0xFFFFFFFF)] := by decide +kernel

/-- The lane-by-lane vector words' obligations: integer, fields and comparisons, floating point, conversions. -/
theorem witness_vector_words : Legal32 grp [6, 4, 8] ∧ Legal64 grp [6, 4, 8] ∧ LaneReady grp [4, 5, 8, 9, 6, 7] [6, 7]
    ∧ GroupReady grp .vector [grp.th.abs 3] [grp.th.abs 5] [6, 4, 8] ∧ grp.th.badV 8 4 = false ∧ LaneReady grp [8, 9, 10, 11] [6]
    ∧ Code.of 12 = some (.flt .zt8) ∧ Code.of 10 = some (.flt .f32) ∧ grp.th.badV 6 2 = false := by decide +kernel

theorem witness_EmptyAndPoisonedLanes : GroupReady (lanesOf grp 0) .vector [] [] [] ∧ (lanesOf grp 0).th.active = 0
    ∧ (∀ r ∈ [6, 4, 8], (lanesOf grp 0).th.badE 64 r = false ∧ (lanesOf grp 0).th.badE 32 r = false)
    ∧ ∃ s : State, s = regs grp (fun r => { r with vPoison := [64 * 4 + 7] }) ∧ Legal32 s [6, 4, 8] ∧ GroupReady s .vector [] [] [4, 8, 6]
        ∧ s.th.lanes.filter (fun l => s.th.regs.vPoison.contains (64 * 4 + l)) = [7] :=
  ⟨by decide +kernel, by decide +kernel, by decide +kernel, ⟨_, rfl, by decide +kernel⟩⟩

theorem witness_VectorFrame : ∃ f, exec (.vneg 2 6 4 false) grp = .next (givesLanes grp 6 f) :=
  ⟨_, congrArg Host.Outcome.next (grp.vec1_eq32 32 (by decide) 6 4 false _ (by decide +kernel) (by decide +kernel))⟩

theorem witness_CrossLaneMoves : (∀ l ∈ List.range 64, grp.th.regs.vPoison.contains (64 * 4 + l) = false) ∧ Legal32 grp [6, 4, 8]
    ∧ LaneReady grp [4, 8] [6] ∧ 4 * 2 ^ 3 ≤ grp.th.width ∧ GroupReady grp .vector [grp.th.abs 3] [] [6, 7, 4] ∧ grp.th.active ≠ 0 := by
  decide +kernel

theorem witness_ReductionsAndScans : Legal64 grp [4, 6] ∧ CleanLanes grp [4, 5] ∧ GroupReady grp .vector [] [grp.th.abs 5] [4, 5]
    ∧ LaneReady grp [4, 5] [6, 7] := by decide +kernel

/-- Two groups of one launch on two cores that name each other, each offering its v4, the first in the lanes of a mask. -/
def offered (la : Mask) : State :=
  let s := guarded grp
  (s.putThread 0 { s.th with wait := .exchange 4 1 la }).putThread (groupKey 1 0)
    { s.th with ident := { s.th.ident with core := 1, block := 1 }, wait := .exchange 4 0 0xFFFFFFFF }

theorem witness_Exchange_offer : Legal32 grp [4] ∧ GroupReady grp .vector [grp.th.abs 3] [] [4] ∧ grp.th.active ≠ 0 ∧ CleanLanes grp [4]
    ∧ Outside grp ∧ grp.th.wait = .none := by decide +kernel

theorem witness_Exchange_match : ∀ la ∈ ([0xFFFFFFFF, 0xFFFFFFFE] : List Mask), ∃ s : State, s = offered la
    ∧ (s.thread 0).wait = .exchange 4 1 la ∧ (s.thread (groupKey 1 0)).wait = .exchange 4 0 0xFFFFFFFF
    ∧ (s.thread 0).kind = .group ∧ (s.thread (groupKey 1 0)).kind = .group ∧ (s.thread 0).status = .running
    ∧ (s.thread (groupKey 1 0)).status = .running ∧ (s.thread 0).ident.lnum = (s.thread (groupKey 1 0)).ident.lnum
    ∧ (s.thread 0).ident.block ≠ (s.thread (groupKey 1 0)).ident.block
    ∧ 1 = (s.thread (groupKey 1 0)).ident.gnum * 2 ^ 8 + (s.thread (groupKey 1 0)).ident.core
    ∧ 0 = (s.thread 0).ident.gnum * 2 ^ 8 + (s.thread 0).ident.core
    ∧ (s.thread (groupKey 1 0)).active &&& ~~~0xFFFFFFFF = 0 ∧ (s.thread 0).active = 0xFFFFFFFF
    ∧ s.trapClause (s.thread 0) = some 64 ∧ (s.thread 0).inTrap = false ∧ (s.thread 0).tx.live = false := by
  intro la h
  simp only [List.mem_cons, List.not_mem_nil, or_false] at h
  rcases h with rfl | rfl <;> exact ⟨_, rfl, by decide +kernel⟩

/-- A memory word's requests pass every check, at level 0, and their lines are held in the thread's own cache: a check that runs. -/
def fine (s : State) (reqs : List LaneReq) : Bool :=
  let rs := laneFates s reqs
  s.level s.th == 0 && s.recordRoom s.th.die 0
    && rs.all (fun r => r.isGood && !s.replayHolds s.work.cur r.req.va && !s.behindOwn s.work.cur r && match r.fate with
      | .good (.mem h key) => match s.cached s.th.cache (h / 128) with
        | some l => h % r.req.size == 0 && (s.waiting s.th.cache (h / 128)).isEmpty && l.key == key && !l.stale && l.stage.isEmpty
            && !l.spec && l.poison == 0 && (l.st == .E || l.st == .M)
        | none => false
      | _ => false)

theorem fine_sound {s : State} {reqs : List LaneReq} (h : fine s reqs = true) :
    LanesGood s reqs s 0 ∧ LanesHeld s (laneFates s reqs) := by
  simp only [fine, Bool.and_eq_true, beq_iff_eq, List.all_eq_true, Bool.not_eq_true'] at h
  obtain ⟨⟨hl, hr⟩, hs⟩ := h
  refine ⟨⟨hr, s.wordFlush_zero _ _ hl, fun r m => ?_⟩, hl, fun r m => ?_⟩
  · exact ⟨(hs r m).1.1.1, (hs r m).1.1.2, (hs r m).1.2⟩
  · have := (hs r m).2
    split at this
    · next a key hf =>
      split at this
      · next l hc =>
        simp only [Bool.and_eq_true, beq_iff_eq, Bool.or_eq_true, Bool.not_eq_true', List.isEmpty_iff] at this
        obtain ⟨⟨⟨⟨⟨⟨⟨h1, h2⟩, h3⟩, h4⟩, h5⟩, h6⟩, h7⟩, h8⟩ := this
        exact ⟨a, key, l, hf, h1, h2, hc, h3, h4, h5, h6, h7, h8⟩
      · cases this
    · cases this

theorem settled_quiet {s : State} {o : Order} (h : s.th.acqPending = false ∧ Outside s ∧ o.rel = false) : Settled s o s :=
  ⟨h.1, h.2.1, by simp [h.2.2]⟩

theorem settled_rel {s s' : State} {o : Order} (h : s.th.acqPending = false ∧ Outside s ∧ o.rel = true)
    (r : s.release o.scope = (s', some 0)) : Settled s o s' := ⟨h.1, h.2.1, by simp [h.2.2, r]⟩

theorem pair_of {α β : Type} {p : α × β} {b : β} (h : p.2 = b) : p = (p.1, b) := by
  rw [← h]

/-- The registers of the memory words' witnesses: addresses in the pair v4, offsets in v8, data in v6 and v7, the base in s3. -/
theorem witness_memory_words : Settled near Order.relaxed near ∧ near.th.active ≠ 0 ∧ Legal32 near [8] ∧ Legal64 near [4]
    ∧ CleanLanes near [4, 5, 6, 7, 8] ∧ GroupReady near .vector [near.th.abs 3, near.th.abs 9] [near.th.abs 5] [4, 5, 6, 7, 8, 9]
    ∧ near.th.badDest 6 1 false = false ∧ near.th.badDest 6 2 true = false ∧ near.th.badDest 6 4 false = false
    ∧ near.th.badV 6 1 false = false ∧ near.th.badV 6 2 true = false ∧ near.th.badV 6 4 false = false
    ∧ (near.core near.th.ident.core).rqcWait = [] ∧ near.th.cache = near.th.ident.core ∧ Near near 0 0 ∧ Near near 1 1 :=
  ⟨settled_quiet (by decide +kernel), by decide +kernel⟩

theorem witness_PlainLoads : ∀ n ∈ [1, 2, 4, 8, 16],
    (∃ reqs, reqs = near.th.lanes.map (fun l => laneReq l (near.th.valS 3 + (lane near 8 l).signExtend 64) .load n)
      ∧ LanesGood near reqs near 0 ∧ LanesHeld near (laneFates near reqs)) := by
  intro n h
  simp only [List.mem_cons, List.not_mem_nil, or_false] at h
  rcases h with rfl | rfl | rfl | rfl | rfl <;> exact ⟨_, rfl, fine_sound (by decide +kernel)⟩

theorem witness_PlainLoads_strided : ∃ reqs, reqs = near.th.lanes.map (fun l =>
      laneReq l (near.th.valS 3 + BitVec.ofNat 64 l * near.th.valS 9) .load 8)
    ∧ LanesGood near reqs near 0 ∧ LanesHeld near (laneFates near reqs) := ⟨_, rfl, fine_sound (by decide +kernel)⟩

theorem witness_PlainLoads_pairs : ∃ reqs, reqs = near.th.lanes.map (fun l => laneReq l (pair near 4 l) .load 8)
    ∧ LanesGood near reqs near 0 ∧ LanesHeld near (laneFates near reqs) := ⟨_, rfl, fine_sound (by decide +kernel)⟩

theorem witness_PlainLoads_gather : ∃ reqs, reqs = near.th.lanes.map (fun l =>
      laneReq l (near.th.valS 3 + (lane near 8 l).setWidth 64 * BitVec.ofNat 64 4) .load 4)
    ∧ LanesGood near reqs near 0 ∧ LanesHeld near (laneFates near reqs)
    ∧ ∀ r ∈ laneFates near reqs, near.behindLine near.th.ident.core r = false :=
  ⟨_, rfl, (fine_sound (by decide +kernel)).1, (fine_sound (by decide +kernel)).2, by decide +kernel⟩

theorem witness_PlainLoads_scalar : ∃ reqs, reqs = [laneReq (near.th.lanes.headD 0) (near.th.valS 3) .load 8]
    ∧ LanesGood near reqs near 0 ∧ LanesHeld near (laneFates near reqs) := ⟨_, rfl, fine_sound (by decide +kernel)⟩

theorem witness_Stores : ∃ reqs, reqs = near.th.lanes.map (fun l =>
      laneReq l (near.th.valS 3 + (lane near 8 l).signExtend 64) (near.th.storeOp 6 l 2 8) 8)
    ∧ LanesGood near reqs near 0 ∧ LanesHeld near (laneFates near reqs) := ⟨_, rfl, fine_sound (by decide +kernel)⟩

theorem witness_Stores_pairs : ∃ reqs, reqs = near.th.lanes.map (fun l => laneReq l (pair near 4 l) (near.th.storeOp 6 l 2 8) 8)
    ∧ LanesGood near reqs near 0 ∧ LanesHeld near (laneFates near reqs) := ⟨_, rfl, fine_sound (by decide +kernel)⟩

theorem witness_Stores_scatter : ∃ reqs, reqs = near.th.lanes.map (fun l =>
      laneReq l (near.th.valS 3 + (lane near 8 l).setWidth 64 * BitVec.ofNat 64 4) (near.th.storeOp 6 l 1 4) 4)
    ∧ LanesGood near reqs near 0 ∧ LanesHeld near (laneFates near reqs) := ⟨_, rfl, fine_sound (by decide +kernel)⟩

theorem witness_Stores_scalar : ∃ reqs, reqs = [laneReq (near.th.lanes.headD 0) (near.th.valS 3) (near.th.scalarStore 5 8) 8]
    ∧ LanesGood near reqs near 0 ∧ LanesHeld near (laneFates near reqs) := ⟨_, rfl, fine_sound (by decide +kernel)⟩

/-- A release at package scope with nothing outstanding is over at once. -/
theorem witness_Stores_ordered : ∃ s' reqs, Settled near ⟨false, true, 2⟩ s'
    ∧ reqs = near.th.lanes.map (fun l => (⟨l, pair near 4 l, near.th.storeOp 6 l 1 4, 4, 2, true⟩ : LaneReq))
    ∧ LanesGood s' reqs s' 0 :=
  ⟨(near.release 2).1, _, settled_rel (by decide +kernel) (pair_of (by decide +kernel)), rfl, (fine_sound (by decide +kernel)).1⟩

theorem witness_Stores_ordered_scalar : ∃ reqs, Settled near ⟨false, false, 0⟩ near
    ∧ reqs = [(⟨near.th.lanes.headD 0, near.th.valS 3, near.th.scalarStore 5 8, 8, 0, false⟩ : LaneReq)]
    ∧ LanesGood near reqs near 0 ∧ LanesHeld near (laneFates near reqs) :=
  ⟨_, settled_quiet (by decide +kernel), rfl, fine_sound (by decide +kernel)⟩

/-- A polling load that finds a value other than the one it knows, at team scope. -/
theorem witness_OrderedLoads : ∃ reqs, Settled near ⟨true, false, 0⟩ near
    ∧ reqs = near.th.lanes.map (fun l => (⟨l, pair near 4 l, .poll 1, 4, 0, true⟩ : LaneReq))
    ∧ LanesGood near reqs near 0 ∧ LanesHeld near (laneFates near reqs) ∧ ∀ r ∈ laneFates near reqs, met near r = true :=
  ⟨_, settled_quiet (by decide +kernel), rfl, (fine_sound (by decide +kernel)).1, (fine_sound (by decide +kernel)).2, by decide +kernel⟩

theorem witness_OrderedLoads_scalar : ∃ (s : State) (reqs : List LaneReq), s = withS near 5 1 ∧ Settled s ⟨true, false, 0⟩ s
    ∧ reqs = [⟨s.th.lanes.headD 0, s.th.valS 3, .poll ((s.th.valS 5).toNat % 2 ^ 64), 8, 0, true⟩]
    ∧ Ready s .every [s.th.abs 3, s.th.abs 5] [s.th.abs 5] []
    ∧ LanesGood s reqs s 0 ∧ LanesHeld s (laneFates s reqs) ∧ ∀ r ∈ laneFates s reqs, met s r = true :=
  ⟨_, _, rfl, settled_quiet (by decide +kernel), rfl, by decide +kernel, (fine_sound (by decide +kernel)).1, (fine_sound (by decide +kernel)).2,
    by decide +kernel⟩

theorem witness_OrderedLoads_swaitge : ∃ (reqs : List LaneReq), Settled near ⟨true, false, 0⟩ near
    ∧ reqs = [⟨near.th.lanes.headD 0, near.th.valS 3, .waitGe ((near.th.valS 5).toNat % 2 ^ 64), 8, 0, true⟩]
    ∧ Ready near .every [near.th.abs 3, near.th.abs 5] [near.th.abs 5] []
    ∧ LanesGood near reqs near 0 ∧ LanesHeld near (laneFates near reqs) ∧ ∀ r ∈ laneFates near reqs, met near r = true :=
  ⟨_, settled_quiet (by decide +kernel), rfl, by decide +kernel, (fine_sound (by decide +kernel)).1, (fine_sound (by decide +kernel)).2,
    by decide +kernel⟩

theorem witness_Atomics : ∃ (reqs : List LaneReq), Settled near ⟨false, false, 1⟩ near
    ∧ reqs = near.th.lanes.map (fun l => ⟨l, pair near 4 l, .atomic 7 2 (near.th.regs.lanesValue 6 l 2 8)
        (near.th.regs.lanesValue 8 l 2 8) near.th.rm, 8, 1, true⟩)
    ∧ GroupReady near .vector [] [] [4, 5, 6, 7, 8, 9] ∧ CleanLanes near [4, 5, 6, 7, 8, 9] ∧ near.th.badDest 6 4 true = false
    ∧ LanesGood near reqs near 0 ∧ LanesHeld near (laneFates near reqs) ∧ ((laneFates near reqs).map place).Nodup :=
  ⟨_, settled_quiet (by decide +kernel), rfl, by decide +kernel, by decide +kernel, by decide +kernel, (fine_sound (by decide +kernel)).1,
    (fine_sound (by decide +kernel)).2, by decide +kernel⟩

theorem witness_Atomics_scalar : ∃ (reqs : List LaneReq), Settled near ⟨false, false, 1⟩ near
    ∧ reqs = [⟨near.th.lanes.headD 0, near.th.valS 3, .atomic 0 2 ((near.th.valS 5).toNat % 2 ^ 64)
        ((near.th.regs.s (near.th.abs 5 + 1)).toNat % 2 ^ 64) near.th.rm, 8, 1, true⟩]
    ∧ Ready near .every [near.th.abs 3, near.th.abs 5, near.th.abs 5 + 1] [near.th.abs 5] []
    ∧ LanesGood near reqs near 0 ∧ LanesHeld near (laneFates near reqs) :=
  ⟨_, settled_quiet (by decide +kernel), rfl, by decide +kernel, (fine_sound (by decide +kernel)).1, (fine_sound (by decide +kernel)).2⟩

theorem only_one {l : List Resolved} {f : Fate} (h : l.map (·.fate) = [f]) : ∃ r, l = [r] ∧ r.fate = f := by
  match l, h with
  | [r], h => exact ⟨r, rfl, by simpa using h⟩

theorem witness_MemoryFrames : ∃ r, near.resolveAll near.work.cur [laneReq (near.th.lanes.headD 0) (near.th.valS 3) .load 8] = [r]
    ∧ r.fate = .good (.mem 0x1000 0) := only_one (by decide +kernel)

theorem witness_MemoryFrames_line : (near.cached near.th.cache (0x1000 / 128)).map (fun l => (l.key, l.stale, l.st, l.stage)) =
    some (0, false, .E, []) ∧ near.waiting near.th.cache (0x1000 / 128) = [] ∧ near.level near.th = 0 := by decide +kernel

theorem witness_Scratchpads : GroupReady near .vector [near.th.abs 7] [] (8 :: from_ 6 1) ∧ near.th.active ≠ 0 ∧ CleanLanes near [8]
    ∧ Legal32 near [8] ∧ near.scratchWaits = false
    ∧ (∀ l ∈ near.th.lanes, (near.th.valS 7 + (lane near 8 l).setWidth 64).toNat % 4 = 0
        ∧ (near.th.valS 7 + (lane near 8 l).setWidth 64).toNat + 4 ≤ near.tm.alloc)
    ∧ near.th.badDest 6 1 = false ∧ near.th.badV 6 1 = false ∧ near.th.park = none := by decide +kernel

theorem witness_Fences : Ready near .every [] [] [] ∧ near.th.acqPending = false ∧ near.th.loadsOut = false
    ∧ near.inReplay near.work.cur = false ∧ near.acquireReady near.work.cur 2 = true := by decide +kernel

theorem witness_Fences_release : ∃ s', near.release 2 = (s', some 0) ∧ s'.th.loadsOut = false ∧ s'.inReplay s'.work.cur = false
    ∧ s'.acquireReady s'.work.cur 2 = true := ⟨(near.release 2).1, pair_of (by decide +kernel), by decide +kernel⟩

/-- A word that has brought its value, before its landing. -/
def loaded : State := after (.sld 5 3 false 2) near

theorem witness_Landings : (loaded.thread 0).producers.map (fun p => (p.left, p.order.acq, p.failed.isEmpty)) = [(0, false, true)]
    ∧ (loaded.thread 0).producers.map (·.vals) = [[(.s 5, 0)]] ∧ (loaded.thread 0).producers.map (·.await) = [.none]
    ∧ (loaded.thread 0).park = none
    ∧ (loaded.thread 0).producers.all (fun p => (loaded.thread 0).findProducer p.id == some p) = true := by decide +kernel

/-- A polling load that has not found what it asks for. -/
def polling : State := after (.sldo 5 3 false true 2 1 0) near

theorem witness_Reperformance : (polling.thread 0).status = .running ∧ polling.recordRoom (polling.thread 0).die 0 = true
    ∧ (polling.thread 0).producers.all (fun p => match p.await with
      | .poll l => l.map (fun (a : Access) => a.lane) == [0]
      | _ => false) = true
    ∧ (polling.thread 0).producers.map (fun p => (polling.resolveAll 0 p.reqs).map (fun r =>
        (r.isGood, (polling.unpolled 0 p.id).behindOwn 0 r))) = [[(true, false)]]
    ∧ polling.level (polling.thread 0) = 0 := by decide +kernel

/-! ### Matrix words -/

/-- A block of two groups of the matrix role alone on core 0, the first current. -/
def pairs : State :=
  let l := placedLaunch 1
  let l := { l with cmd := l.cmd.set 0 (setBits (nth l.cmd 0 0) 10 5 1) |>.set 3 5 }
  let s : State := { State.reset with work := { State.reset.work with launches := State.reset.work.launches.put 1 l, lnumNext := 2 } }
  (((s.placeBlock 1 l 0 [0]).giveWord (groupKey 0 0) 0).giveWord (groupKey 0 1) 0).setCur (groupKey 0 0)

/-- The same with one gang of both, each waiting in the latch with a dense operation. -/
def ganged : State :=
  let o : MatOp := ⟨false, 0, 0, false, 0, 0, 16, 0, false, false⟩
  let g (t : Thread) : Thread := { t with gang := 3, wait := .latch o }
  (pairs.mapThread (groupKey 0 0) g).mapThread (groupKey 0 1) g

theorem witness_MatrixWords : GroupReady mat .gang [mat.th.abs 3] [] [] ∧ GroupReady mat .tile [mat.th.abs 3] [] (from_ 8 4)
    ∧ (mat.core mat.th.ident.core).mxq = [] ∧ mat.th.badV 8 4 = false ∧ mat.th.badDest 8 4 = false ∧ mat.th.acqPending = false
    ∧ (mat.th.valS 3).toNat % 2 ^ 32 = 0 := by decide +kernel

theorem witness_MatrixWords_gang : ∃ s : State, s = withS pairs 3 3 ∧ GroupReady s .gang [s.th.abs 3] [] []
    ∧ (gangGroups ((s.th.valS 3).toNat % 2 ^ 32)) = [0, 1] ∧ ((s.th.valS 3).toNat % 2 ^ 32).testBit s.th.ident.gnum = true
    ∧ ∀ n ∈ [0, 1], n < s.tm.groups ∧ s.groupOf s.th.ident.team n = some (groupKey 0 n) ∧ (s.thread (groupKey 0 n)).ident.role = 1 :=
  ⟨_, rfl, by decide +kernel⟩

theorem witness_MatrixWords_rows : ∀ n ∈ [0, 1, 95], ∃ s : State, s = withS mat 3 (BitVec.ofNat 64 (n * 2 ^ 32 + 2 ^ 24))
    ∧ GroupReady s .tile [s.th.abs 3] [] [] ∧ (s.th.valS 3).toNat % 2 ^ 19 = 0
    ∧ min ((s.th.valS 3).toNat / 2 ^ 24 % 128 + (s.th.valS 3).toNat / 2 ^ 32 % 128) 96 - (s.th.valS 3).toNat / 2 ^ 24 % 128 = n
    ∧ 256 * n ≤ s.tm.alloc := by
  intro n h; refine ⟨_, rfl, ?_⟩; revert n; decide +kernel

theorem witness_MatrixOperations : ∃ o : MatOp, o = ⟨false, 0, 0, false, 0, 0, 16, 0, false, false⟩
    ∧ GroupReady ganged .gang [ganged.th.abs 3] [] (ganged.th.matRegs o (ganged.th.reuses 0 16).isSome)
    ∧ ganged.th.badV 16 (regSpan 0 ganged.th.width false) = false ∧ ganged.th.acqPending = false ∧ ganged.th.latched = some o
    ∧ ganged.disagrees ganged.th.ident.team ganged.th = []
    ∧ firstGang (ganged.complete? ganged.th.ident.core) = some (0, groupKey 0 0, [groupKey 0 0, groupKey 0 1])
    ∧ (gangGroups ganged.th.gang).map (ganged.groupOf ganged.th.ident.team) = [some (groupKey 0 0), some (groupKey 0 1)]
    ∧ (∀ k ∈ [groupKey 0 0, groupKey 0 1], (ganged.thread k).kind = .group ∧ (ganged.thread k).gang = ganged.th.gang
        ∧ (ganged.thread k).latched = some o ∧ o.agrees o = true)
    ∧ (ganged.team ganged.th.ident.team).holds 0 (63 * colBytes 0 + colUsed 0) = true
    ∧ (ganged.team ganged.th.ident.team).core = ganged.th.ident.core ∧ (ganged.core ganged.th.ident.core).mxq.length < 4 :=
  ⟨_, rfl, by decide +kernel⟩

theorem witness_MatrixOperations_wait : pairs.th.latched = none ∧ pairs.th.acqPending = false
    ∧ GroupReady pairs .gang [pairs.th.abs 3] [] (from_ 16 24) := by decide +kernel

theorem witness_MatrixOperations_engine : ∃ s : State, s = after (.mma 0 0 16 3 false 0 false false) ganged
    ∧ (s.core 0).mxq.map (fun j => (j.members, (s.team j.team).jobPoisoned j)) = [([groupKey 0 0, groupKey 0 1], false)] :=
  ⟨_, rfl, by decide +kernel⟩

/-! ### Sparse regions -/

/-- What an answer of the tree engine holds. -/
def came {α : Type} (z : Zr α) : Option (State × α) :=
  match z with
  | .ok s a => some (s, a)
  | _ => none

theorem came_ok {α : Type} {z : Zr α} {s : State} {a : α} (h : came z = some (s, a)) : z = .ok s a := by
  cases z <;> simp_all [came]

theorem ok_of {α : Type} {z : Zr α} (p : α → Bool) (h : (came z).any (fun q => p q.2) = true) : ∃ s a, z = .ok s a ∧ p a = true := by
  cases z with
  | ok s a => exact ⟨s, a, rfl, by simpa [came] using h⟩
  | fail c r b => simp [came] at h
  | busy q => simp [came] at h

/-- Does an answer pass a test, and does one deny? -/
def taken {ε α : Type} (z : Except ε α) (p : α → Bool) : Bool :=
  match z with
  | .ok a => p a
  | .error _ => false

def denied {ε α : Type} (z : Except ε α) : Bool :=
  match z with
  | .ok _ => false
  | .error _ => true

theorem taken_ok {ε α : Type} {z : Except ε α} {p : α → Bool} (h : taken z p = true) : ∃ a, z = .ok a ∧ p a = true := by
  cases z with
  | ok a => exact ⟨a, rfl, h⟩
  | error e => simp [taken] at h

theorem denied_error {ε α : Type} {z : Except ε α} (h : denied z = true) : ∃ e, z = .error e := by
  cases z with
  | ok a => simp [denied] at h
  | error e => exact ⟨e, rfl⟩

/-- A leaf that holds key 7 in slot 0, live since generation 1. -/
def leaf7 : Node := ⟨0, 0, 0, true, none32, [⟨7, 0, 1, none32⟩], [], []⟩

/-- A region at 0x10000 of one dimension of 8 bits. -/
def region : Region :=
  ⟨0x2000, 0x10000, 0x1000, 0, 0, [8], 0x4000, 0x8000, 4, 16, 1, 1, 0, 0, 1, 1, [], false, [], none⟩

/-- Home memory whose bytes under key 0 are these at a page's start, and zero elsewhere in the blocks `bs`. -/
def holding (s : State) (bs : List Nat) (cells : List (Nat × Nat)) : State :=
  { s with mem := { s.mem with blockKey := bs.map (fun b => (b, s.lineTag 0 (b / 8))), bytes := cells.map (fun p => (p.1, BitVec.ofNat 8 p.2)) } }

/-- The group of `near`, with that region registered and its leaf in memory; s3 names it and `v4` holds a key. -/
def sparse (k : Lane) : State :=
  let s := withV (withS near 3 0x10000) 4 k
  let s : State := { s with svc := { s.svc with regions := [(0, region)] } }
  holding s ([0x200, 0x201, 0x202, 0x203] ++ (List.range 32).map (0x400 + ·) ++ [0x800])
    [(0x4008, 255), (0x4009, 255), (0x400A, 255), (0x400B, 255), (0x400C, 1), (0x400F, 1), (0x4020, 7), (0x402C, 1), (0x4030, 255),
      (0x4031, 255), (0x4032, 255), (0x4033, 255), (0x8000, 9)]

theorem witness_SparseWords : Outside (sparse 7) ∧ (sparse 7).th.acqPending = false ∧ (sparse 7).th.active ≠ 0 ∧ Legal64 (sparse 7) [4]
    ∧ CleanLanes (sparse 7) [4, 5, 6] ∧ GroupReady (sparse 7) .vector [(sparse 7).th.abs 3] [] ([4, 5] ++ from_ 6 1) :=
  ⟨by decide +kernel, by decide +kernel, by decide +kernel, by decide +kernel, by decide +kernel, by decide +kernel⟩

theorem witness_SparseWords_region : (sparse 7).regionAt ((sparse 7).th.xltAsid.toNat % 2 ^ 16) ((sparse 7).th.valS 3) = some (0, region)
    ∧ (sparse 7).th.badDest 6 1 false = false ∧ (sparse 7).th.badV 6 1 false = false ∧ (sparse 7).th.lanes = [0]
    ∧ (sparse 7).region? 0 = some region ∧ (pair (sparse 7) 4 0).toNat < 2 ^ region.keyBits :=
  ⟨by decide +kernel, by decide +kernel, by decide +kernel, by decide +kernel, by decide +kernel, by decide +kernel⟩

theorem witness_SparseWords_absent : ∃ s p, (sparse 8).leafFor (sparse 8).th.mid region 8 = .ok s p ∧ (p.1.live 8).isNone = true :=
  ok_of _ (by decide +kernel)

theorem witness_SparseWords_present : ∃ s z, (sparse 7).zlanes (sparse 7).th.mid 0 0x10000 (fun _ => .read) ((sparse 7).th.laneKey 4)
    (sparse 7).th.lanes ⟨[], []⟩ = .ok s z ∧ (z.vals == [(0, [9, 0, 0, 0])] && z.fails.isEmpty) = true := ok_of _ (by decide +kernel)

theorem witness_SparseWords_value : ∃ s v, (sparse 7).zread (sparse 7).th.mid (region.slotAt 0) 4 1 = .ok s v ∧ (v == [9, 0, 0, 0]) = true :=
  ok_of _ (by decide +kernel)

theorem witness_SparseWords_form : none32 = none32 ∧ region.ncnt ≤ none32 ∧ region.vcnt ≤ none32 ∧ leaf7.entries.length ≤ 20
    ∧ (∀ e ∈ leaf7.entries, e.key < 2 ^ 64 ∧ e.vslot < region.vcnt ∧ e.birth < 2 ^ 32 ∧ e.death < 2 ^ 32)
    ∧ ascending (leaf7.entries.map Entry.rank) = true := by decide

/-- The same region after two sealed generations, with a cursor open at the first. -/
def sealed : State :=
  let s := sparse 7
  { s with svc := { s.svc with
      regions := [(0, { region with cur := 3 })], cursors := [(64 * s.servingSlice region, ⟨0, 1, s.th.ident.lnum⟩)] } }

/-- The cursor's handle. -/
def handle : Word := BitVec.ofNat 64 1

theorem witness_SparseLifetimes : ∀ g ∈ [0, 1, 2, 3], ∃ s : State, s = withS (withS sealed 4 (BitVec.ofNat 64 g)) 3 0x10000 ∧ Outside s
    ∧ s.th.acqPending = false ∧ GroupReady s .vector [s.th.abs 3, s.th.abs 4] [s.th.abs 5] []
    ∧ s.regionAt (s.th.xltAsid.toNat % 2 ^ 16) (s.th.valS 3) = some (0, { region with cur := 3 })
    ∧ s.svc.cursors.free (64 * s.servingSlice { region with cur := 3 }) 64 < 64 * s.servingSlice { region with cur := 3 } + 64 := by
  intro g h; refine ⟨_, rfl, ?_⟩; revert g; decide +kernel

theorem witness_SparseLifetimes_cursor : ∃ s : State, s = withS (withS sealed 4 0) 3 handle
    ∧ s.cursorOf (s.th.valS 3) s.th.ident.lnum = some (64 * s.servingSlice region, { region with cur := 3 }, 1)
    ∧ s.region? ((s.th.valS 3).toNat / 2 ^ 48 % 256) = some { region with cur := 3 } ∧ region.asid = s.th.xltAsid.toNat % 2 ^ 16
    ∧ (∀ j, j < 3 → s.th.regs.sFull (s.th.abs 5 + j) = true) := ⟨_, rfl, by decide +kernel⟩

theorem witness_SparseLifetimes_next : ∃ s e, sealed.zstep sealed.th.mid { region with cur := 3 } 7 1 = .ok s e
    ∧ (e == some (7, [9, 0, 0, 0])) = true := ok_of _ (by decide +kernel)

theorem witness_SparseLifetimes_seal : ∃ s s₀ : State, s = withS (withS sealed 4 2) 3 0x10000 ∧ s.release 2 = (s₀, some 0)
    ∧ ∃ s' u, s₀.zwrite s.th.mid (0x2000 + 48) (toBytes (4 * 2 ^ 32 + 2) 8) = .ok s' u ∧ true = true :=
  ⟨_, _, rfl, pair_of (by decide +kernel), ok_of (fun _ => true) (by decide +kernel)⟩

theorem witness_SparseLifetimes_sweep : ∃ s nd, sealed.readNode 0 { region with sweep := some (0, some 0) } 0 0 = .ok s nd
    ∧ (nd == leaf7) = true := ok_of _ (by decide +kernel)

/-- A descriptor of that region in memory, where no region is registered. -/
def described : State := holding near [0x200, 0x201, 0x202, 0x203]
  [(0x2002, 1), (0x2008, 8), (0x2011, 0x10), (0x2019, 0x40), (0x2021, 0x80), (0x2028, 4), (0x202C, 16)]

theorem witness_RegionRegistration : described.th.priv = true ∧ described.homedRange 0x2000 64 = true
    ∧ (user described).th.priv = false ∧ described.homedRange 0xFFFFFFFFFFFC0 64 = false
    ∧ (sealed.svc.regions.find? (fun p => p.2.desc == 0x2000)).isSome = true
    ∧ (∃ c ∈ sealed.svc.cursors, c.2.region = 0) := by decide +kernel

theorem witness_RegionRegistration_words : ∃ s bs, described.zread described.th.mid 0x2000 64 1 = .ok s bs
    ∧ (!(described.descBad 0x2000 (wordsOf bs 8)) && described.svc.regions.isEmpty) = true := ok_of _ (by decide +kernel)

theorem witness_RegionRegistration_leaf : ∃ s u, described.zwrite described.th.mid 0x4000 (Node.mk 0 0 0 true none32 [] [] []).bytes = .ok s u
    ∧ true = true := ok_of (fun _ => true) (by decide +kernel)

/-! ### Commands, barriers and rings, mailboxes -/

/-- A thread whose s16 to s23 hold a command, with translation on. -/
def offering (s : State) (w : List Nat) : State :=
  ((List.range 8).foldl (fun (s : State) i => s.setS (BitVec.ofNat 7 (16 + i)) (BitVec.ofNat 64 (nth w i 0))) s).mapTh (fun t =>
    { t with xltRoot := 1 })

/-- A queue fence, and a launch of one block of one group. -/
def fenceWords : List Nat := [0x0F * 2 ^ 56, 1]

def launchWords : List Nat := [0x50 * 2 ^ 56 + 2 ^ 6 + 2 ^ 15, 0x3000, 0, 0, 0, 0, 0x3100, 2 ^ 32]

theorem witness_QueuePushes : ∀ q ∈ [0, 4, 5, 6, 8], ∃ s s₀ : State, s = offering near fenceWords
    ∧ Ready s .copy ((List.range 8).map (fun i => s.th.abs 16 + i)) [s.th.abs 5] [] ∧ Outside s ∧ s.th.priv = true
    ∧ s.cmdCause s.th q ((List.range 8).map (fun i => s.th.regs.s (s.th.abs 16 + i))) = 0 ∧ s.release (pushScope q) = (s₀, some 0)
    ∧ s₀.queueRoom (s₀.newCmd s₀.work.cur q (fenceWords.map (BitVec.ofNat 64))) = true := by
  intro q h
  simp only [List.mem_cons, List.not_mem_nil, or_false] at h
  rcases h with rfl | rfl | rfl | rfl | rfl <;> exact ⟨_, _, rfl, by decide +kernel, by decide +kernel, by decide +kernel, by decide +kernel,
    pair_of (by decide +kernel), by decide +kernel⟩

theorem some_of {α : Type} {o : Option (α × Nat)} {n : Nat} (h : o.map (·.2) = some n) : ∃ a, o = some (a, n) := by
  match o, h with
  | some (a, m), h => exact ⟨a, by simpa using h⟩

theorem witness_QueuePushes_immediate : ∃ s', (offering near fenceWords).immediate false = some (s', 0) := some_of (by decide +kernel)

theorem witness_QueuePushes_launch : ∃ s s' : State, s = withS (offering near launchWords) 6 9
    ∧ Ready s .every (s.th.abs 6 :: (List.range 8).map (fun i => s.th.abs 16 + i)) [s.th.abs 5] [] ∧ (s.th.valS 6).toNat < 2 ^ 32
    ∧ s.cmdCause s.th 6 ((List.range 8).map (fun i => s.th.regs.s (s.th.abs 16 + i))) = 0 ∧ s.release 2 = (s', some 0)
    ∧ s'.queueRoom (s'.newCmd s'.work.cur 6 (launchWords.map (BitVec.ofNat 64))) = true ∧ s'.svc.arms = [] :=
  ⟨_, _, rfl, by decide +kernel, by decide +kernel, by decide +kernel, pair_of (by decide +kernel), by decide +kernel, by decide +kernel⟩

theorem witness_QueuePushes_cancel : ∃ s : State, s = withS (offering (after (.arml 5 16 6 false false) (withS (offering near launchWords) 6 9)) [0]) 6 9
    ∧ s.svc.arms.map (fun m => (m.tag, m.part == (s.partOfThread s.th).getD 4)) = [(9, true)] ∧ s.th.priv = true :=
  ⟨_, rfl, by decide +kernel⟩

theorem witness_QueuePushes_waits : Ready near .every [] [] [] ∧ (∀ i, i < 6 → near.th.wc.getD i 0 = 0 ∧ near.th.wcScope.getD i 0 = 0)
    ∧ GroupReady near .walker [near.th.abs 3] [near.th.abs 5] [] ∧ (near.th.valS 3).toNat % 64 = 0
    ∧ fine near [laneReq (near.th.lanes.headD 0) (near.th.valS 3) .load 64] = true := by decide +kernel

theorem witness_TeamSynchronisation : Outside near ∧ GroupReady near .every [near.th.abs 3] [near.th.abs 5] []
    ∧ (∀ n ∈ [1, 15, 16, 19], (near.tm.bar n).count = 0 ∧ (near.tm.bar n).scope = 0 ∧ near.th.barRec.find n = none)
    ∧ near.unperformed near.work.cur = false ∧ near.coreOut near.work.cur = false ∧ near.th.wait = .none := by decide +kernel

theorem witness_TeamSynchronisation_release : ∀ n ∈ [0, 1], ∃ s', near.release n = (s', some 0) := by
  intro n h; exact ⟨(near.release n).1, pair_of (by revert n; decide +kernel)⟩

theorem witness_TeamSynchronisation_ended : ∃ s : State, s = near.mapTh (fun t => { t with wait := .barrier 3 false (some 0) })
    ∧ Outside s ∧ GroupReady s .every [s.th.abs 3] [] [] ∧ s.th.wait = .barrier 3 false (some 0) := ⟨_, rfl, by decide +kernel⟩

/-- A ring of two slots of 128 bytes, of which `full` hold an image. -/
def ringed (full : Tab Nat) : State := near.mapRing near.th.ident.team 2 (fun _ => ⟨BitVec.ofNat 64 (2 ^ 56 + 2 ^ 32), false, false, full, 0, 0⟩)

theorem witness_TeamSynchronisation_rings : ((ringed []).tm.ring 2).full.has ((ringed []).tm.ring 2).prod = false
    ∧ ((ringed [(0, 0)]).tm.ring 2).full.has ((ringed [(0, 0)]).tm.ring 2).prod = true
    ∧ ((ringed [(0, 0)]).tm.ring 2).full.find ((ringed [(0, 0)]).tm.ring 2).cons = some 0
    ∧ ((ringed []).tm.ring 2).cfg.toNat / 2 ^ 32 % 1024 * 128 ≠ 0 ∧ (near.tm.ring 2).cfg.toNat / 2 ^ 32 % 1024 * 128 = 0
    ∧ (ringed []).unperformed (ringed []).work.cur = false ∧ (ringed []).coreOut (ringed []).work.cur = false := by decide +kernel

/-- A share of two rows of an open pass of die 0 that serves the team of `near`, one page of its list merged. -/
def sharing (st : ShareSt) (results : Tab RowRes) : State :=
  let x : Share := ⟨0, 0, 1, 1, 0, false, [0, 1], 1, st, 0, near.th.ident.team, 2, 1, []⟩
  let p : Pass := ⟨1, 0x9000, 4, false, 0, 0, 1, true, 0, 1, [x], results, false⟩
  let z : Slot := ⟨0xFF800000, 0, List.replicate 64 0, 0, 0, [], 0, 1, 0⟩
  let s := withS (withS near 6 (x.token (passHandle 0 1 0))) 4 1
  { s with svc := { s.svc with pmes := [(0, ⟨[(0, p)], [(0, 1)], [], [(0, z), (1, z)], [], []⟩)] } }

theorem witness_MailboxWords : ∀ st ∈ [ShareSt.live, .sent, .done, .aborted],
    ((sharing st []).shareOf (sharing st []).th.ident.team ((sharing st []).th.valS 6)).map (fun q => (q.1, q.2.1, q.2.2.2.1)) = some (0, 0, 0)
    ∧ Outside (sharing st []) ∧ GroupReady (sharing st []) .vector [(sharing st []).th.abs 4, (sharing st []).th.abs 6] [] (from_ 8 3)
    ∧ (sharing st []).th.badV 8 3 = false ∧ (sharing st []).th.badDest 8 3 = false ∧ (sharing st []).th.acqPending = false
    ∧ ((sharing st []).pme 0).posts.length < 64 := by decide +kernel

theorem witness_MailboxWords_release : ∃ s', (sharing .live []).release 1 = (s', some 0) := ⟨_, pair_of (by decide +kernel)⟩

/-- A take of row 1 that waits for its result. -/
def taking : State := after (.mbtake 8 4 6 false false) (sharing .live [])

theorem witness_MailboxWords_take : (taking.thread taking.work.cur).producers.map (fun p => (p.await == .take 0 (taking.th.valS 6) 1)) = [true]
    ∧ (taking.thread taking.work.cur).producers.map (fun p => (taking.thread taking.work.cur).findProducer p.id == some p) = [true] := by
  decide +kernel

/-- A record in the merge unit's queue. -/
def posted (st : ShareSt) (pos : Nat) : State :=
  let s := sharing st []
  s.mapPme 0 (fun m => { m with posts := [⟨0, 1, 0, 0x3F800000, 0x3F800000, pos, 1, List.replicate 64 0, false⟩] })

theorem witness_MailboxWords_merge : ∀ st ∈ [ShareSt.live, .aborted, .taken], (((posted st 0).pme 0).posts.length = 1)
    ∧ ((posted st 0).pass? 0 0).map (fun p => (p.ser, (p.share? 0).map (fun x => (x.st, x.list.length)))) = some (1, some (st, 2))
    ∧ ((((posted st 0).pass? 0 0).bind (fun p => (p.share? 0).bind (fun x => ((posted st 0).pme 0).slotOf 0 1 0 x 1))).map (·.next)) = some 0 := by
  decide +kernel

theorem witness_MailboxWords_values : (Fmt.decode .f32 0).isNaN = false ∧ (Fmt.decode .f32 0x3F800000).isNaN = false
    ∧ (Fmt.decode .f32 0).lt (Fmt.decode .f32 0x3F800000) = true ∧ (Fmt.decode .f32 0).eq (Fmt.decode .f32 0x3F800000) = false
    ∧ (Fmt.decode .f32 0x7FC00000).isNaN = true := by decide +kernel

/-! ### Transactions -/

/-- A transaction of the group of `near` with an entry at one line, in the last word of its clause. -/
def transacting (sigs : List Sig) (w : Wait) : State :=
  let s := near.mapTh (fun t => { t with
    fetch := ⟨0, 1, [0]⟩, wait := w
    tx := { t.tx with live := true, tm := 1, budget := 3, rh := 0x40, rd := t.abs 5, lkeys := [(32, 0)], buf := [(64 * 0x1000, 7)] } })
  { s with mem := { s.mem with sigs := sigs, caches := [] } }

theorem witness_TransactionWords : ∃ s : State, s = near.mapTh (fun t => { t with fetch := ⟨0, 1, [0]⟩ }) ∧ Ready s .every [] [s.th.abs 5] []
    ∧ s.th.tx.live = false ∧ s.th.lastWord = true := ⟨_, rfl, by decide +kernel⟩

theorem witness_TransactionWords_end : ∀ g ∈ [([] : List Sig), [⟨32, 0, true, false⟩]], ∃ s s' : State, s = transacting g .none
    ∧ Ready s .every [] [s.th.abs 5] [] ∧ s.th.tx.live = true ∧ s.th.lastWord = true ∧ s.release 2 = (s', some 0) ∧ s'.svc.fblHolder = none
    ∧ s'.sigSlices s'.work.cur = g.map (fun _ => s.sliceOf 0x1000) ∧ s'.level s'.th = 0 := by
  intro g h
  simp only [List.mem_cons, List.not_mem_nil, or_false] at h
  rcases h with rfl | rfl <;> exact ⟨_, _, rfl, by decide +kernel, by decide +kernel, by decide +kernel, pair_of (by decide +kernel),
    by decide +kernel, by decide +kernel, by decide +kernel⟩

theorem witness_TransactionWords_commit : ∀ c ∈ [(0 : Mask), 1], ∃ s : State, s = transacting [] (.commit 4 [] c false) ∧ s.th.tx.live = true
    ∧ s.th.lastWord = true ∧ s.level s.th = 0 ∧ s.mem.resv = [] ∧ s.th.tx.fbk = false ∧ s.th.tx.att + 1 < s.th.tx.budget
    ∧ (s.th.tx.tm &&& ~~~c = if c = 0 then 1 else 0) := by
  intro c h
  simp only [List.mem_cons, List.not_mem_nil, or_false] at h
  rcases h with rfl | rfl <;> exact ⟨_, rfl, by decide +kernel⟩

theorem witness_CommitSequence : ∃ s : State, s = transacting [⟨32, 0, true, true⟩] (.commit 0 [near.sliceOf 0x1000] 1 false)
    ∧ (s.thread 0).status = .running ∧ s.svc.fblHolder = none ∧ (s.thread 0).kind = .group := ⟨_, rfl, by decide +kernel⟩

/-- A reservation at the slice of its line. -/
def reserved (head write : Bool) : State :=
  let s := transacting [⟨32, 0, true, true⟩] (.commit 4 [near.sliceOf 0x1000] 1 false)
  { s with mem := { s.mem with resv := [⟨4, 0, near.sliceOf 0x1000, head, write, false⟩] } }

theorem witness_CommitSequence_head : (reserved false false).firstResv (near.sliceOf 0x1000) = some ⟨4, 0, near.sliceOf 0x1000, false, false, false⟩
    ∧ (reserved false false).sigsAt 0 (near.sliceOf 0x1000) = [⟨32, 0, true, true⟩]
    ∧ (reserved false false).txHome ((reserved false false).thread 0).tx 32 = (32, 0) ∧ (reserved false false).lineMoves 32 = false
    ∧ (reserved false false).mem.caches = [] := by decide +kernel

theorem witness_CommitSequence_answers : ∃ s : State, s = (reserved true false).mapTh (fun t => { t with wait := .commit 4 [] 1 false })
    ∧ (s.thread 0).wait = .commit 4 [] 1 false ∧ (∀ r ∈ s.mem.resv, r.agent = 0 → r.atomic = false → r.head = true ∧ r.write = false)
    ∧ (s.thread 0).kind = .group := ⟨_, rfl, by decide +kernel⟩

theorem witness_CommitSequence_write : (reserved true true).firstResv (near.sliceOf 0x1000) = some ⟨4, 0, near.sliceOf 0x1000, true, true, false⟩
    ∧ (reserved true true).level ((reserved true true).thread 0) = 0
    ∧ (((reserved true true).sigsAt 0 (near.sliceOf 0x1000)).map (·.line)).Nodup
    ∧ (((reserved true true).thread 0).tx.buf.filter (fun p => p.1 % 64 == 0)).map (fun p => classOf (p.1 / 64)) = [0] := by decide +kernel

theorem witness_CommitSequence_lock : ∃ s : State, s = near.mapTh (fun t => { t with wait := .lock }) ∧ (s.thread 0).wait = .lock
    ∧ ({ s with svc := { s.svc with fblWait := [0] } } : State).svc.fblHolder = none := ⟨_, rfl, by decide +kernel⟩

/-! ### System registers, devices, translation -/

theorem witness_SystemRegisterReads : Ready near .every [] [near.th.abs 5] [] ∧ Ready dst .every [] [dst.th.abs 5] []
    ∧ near.th.kind = .group ∧ dst.th.kind = .distaff ∧ near.th.priv = true ∧ dst.th.priv = true
    ∧ (near.launch? near.th.ident.lnum).isSome = true ∧ (user near).th.priv = false := by decide +kernel

theorem witness_SystemRegisterWrites : ∀ v ∈ [(0 : Word), 4, 5, 0x20001, 0x8000E00100000005], ∃ s t : State, s = withS near 3 v ∧ t = withS dst 3 v
    ∧ Ready s .every [s.th.abs 3] [] [] ∧ s.th.priv = true ∧ s.th.kind = .group ∧ Ready t .every [t.th.abs 3] [] [] ∧ t.th.priv = true
    ∧ t.th.kind = .distaff := by
  intro v h
  simp only [List.mem_cons, List.not_mem_nil, or_false] at h
  rcases h with rfl | rfl | rfl | rfl | rfl <;> exact ⟨_, _, rfl, rfl, by decide +kernel⟩

theorem witness_SystemRegisterWrites_queue : dst.partOfThread dst.th = some 0 ∧ dst.partSaved 0 = false
    ∧ (dst.frqOf 0).head = (dst.frqOf 0).tail := by decide +kernel

theorem witness_DeviceRegisters : near.th.priv = true ∧ (near.mem.pcDump.getD 0 0).getLsbD 63 = false
    ∧ (dumpPages 0 0x4000).all (fun pa => (near.home pa).isSome) = true := by decide +kernel

theorem witness_DeviceRegisters_host : (dumpPages 192 0x4000).all (fun pa => (near.home pa).isSome) = true := by decide +kernel

/-- A dump under way, by a master that may write the buffer. -/
def dumping (entry : Nat) : State :=
  { near with mem := { near.mem with pcDump := [(0, 0x8000000000004002)], acl := near.mem.acl ++ [(645, entry)] } }

theorem witness_DeviceRegisters_copy : ∀ pa ∈ dumpPages 0 ((dumping 0x0028003F).mem.pcDump.getD 0 0), ∃ a,
    (dumping 0x0028003F).vet 645 .write pa = .ok a ∧ (dumping 0x0028003F).pokeReady a 4096 = true := by
  intro pa h
  exact taken_ok ((List.all_eq_true.mp (by decide +kernel : (dumpPages 0 ((dumping 0x0028003F).mem.pcDump.getD 0 0)).all (fun pa =>
    taken ((dumping 0x0028003F).vet 645 .write pa) (fun a => (dumping 0x0028003F).pokeReady a 4096)) = true)) pa h)

theorem witness_DeviceRegisters_denied : ∃ pa ∈ dumpPages 0 ((dumping 0).mem.pcDump.getD 0 0), ∃ r, (dumping 0).vet 645 .write pa = .error r :=
  ⟨_, .head _, denied_error (by decide +kernel)⟩

/-- The class 6 address of an access-table entry of table 0. -/
def entryAt (die index : Nat) : Word := BitVec.ofNat 64 (6 * 2 ^ 46 + die * 2 ^ 40 + 4 * index)

theorem witness_DeviceRegisters_entry : ∃ r, ({ near with mem := { near.mem with acl := [(5 * 4096 + 645, 0x0028003F)] } } : State).mmioAdmit 645 .write
    (entryAt 0 192) 4 = .ok r ∧ (r == .entry 0 192) = true := taken_ok (by decide +kernel)

theorem witness_DeviceRegisters_stop : ∃ s : State, s = near.mapCore 0 (fun c => { c with dbgStop := 1 })
    ∧ (s.core (s.thread 0).ident.core).dbgStop.testBit (s.thread 0).ident.slot = true ∧ (s.thread 0).status = .running
    ∧ (s.thread 0).wait = .none := ⟨_, rfl, by decide +kernel⟩

/-- A core's TLB holds the leaf of a page, in user mode with translation on. -/
def mapped (leaf : Word) : State := { near with xlt := { near.xlt with tlbs := [(0, [⟨0, 0, 0x1000, leaf, false, 0⟩])] } }

/-- An address space with translation on or off. -/
def space (root : Word) (priv : Bool) : Space := ⟨root, 0, priv, near.th.space.chain, 0, 192⟩

theorem witness_Translation : (space 0 true).root.getLsbD 0 = false ∧ (space 1 false).root.getLsbD 0 = true
    ∧ ((mapped 0x50FF).findTlb 0 0x1000 [] (space 1 false).chain).isSome = true
    ∧ ((mapped 0x50FF).findTlb 0 0x2000 [] (space 1 false).chain).isNone = true ∧ (mapped 0x50FF).svc.regions = [] := by decide +kernel


theorem witness_Translation_leaf : leafFault 0xDF false .read = some (0x08, 4) ∧ leafFault 0xFB false .read = some (0x08, 1)
    ∧ leafFault 0xF7 false .write = some (0x08, 2) ∧ leafFault 0xEF false .fetch = some (0x08, 3) ∧ leafFault 0xBF false .read = some (0x07, 4)
    ∧ leafFault 0x7F false .write = some (0x07, 5) ∧ leafFault 0xFF false .atomic = none := by decide

/-- A table at 0x4000 whose first entries are an invalid one, a leaf, a pointer and a malformed one, and a walker that may read it. -/
def tabled : State :=
  let s := holding near ((List.range 4).map (0x400 + ·)) [(0x4008, 0xFF), (0x4009, 0x50), (0x4010, 0x01), (0x4011, 0x60), (0x401F, 0xC0), (0x4018, 0xFF)]
  { s with mem := { s.mem with acl := s.mem.acl ++ [(640, 0x0028003F)] } }

theorem witness_Translation_walk : ∀ p ∈ [((0x4000 : Word), (0 : Word)), (0x4008, 0x50FF), (0x4010, 0x6001), (0x4018, 0xC0000000000000FF)],
    ∃ w, tabled.readEntry 640 p.1 = .ok w ∧ (w == p.2) = true := by
  intro p h
  exact taken_ok (List.all_eq_true.mp (by decide +kernel : [((0x4000 : Word), (0 : Word)), (0x4008, 0x50FF), (0x4010, 0x6001),
    (0x4018, 0xC0000000000000FF)].all (fun p => taken (tabled.readEntry 640 p.1) (fun w => w == p.2)) = true) p h)

theorem witness_Translation_denied : ∃ e, tabled.readEntry 641 0x4000 = .error e := denied_error (by decide +kernel)

theorem witness_Invalidations : ∃ s s' : State, s = withS (withS near 3 0x1000) 4 1 ∧ Ready s .every [s.th.abs 3, s.th.abs 4] [s.th.abs 5] []
    ∧ s.th.priv = true ∧ Outside s ∧ s.release 2 = (s', some 0) ∧ s'.xlt.invals.length < 16 :=
  ⟨_, _, rfl, by decide +kernel, by decide +kernel, by decide +kernel, pair_of (by decide +kernel), by decide +kernel⟩

/-- An invalidation has been given a number, and is outstanding or over. -/
def invalidated (out : List Inval) : State := withS { near with xlt := { near.xlt with invalNum := 3, invals := out } } 3 3

theorem witness_Invalidations_number : (invalidated []).xlt.invalNum = 3 ∧ (invalidated []).acquireReady (invalidated []).work.cur 2 = true
    ∧ ((invalidated []).th.valS 3).toNat = 3 := ⟨by decide +kernel, by decide +kernel, by decide +kernel⟩

theorem witness_Invalidations_outstanding : ∃ s : State, s = invalidated (after (.tinva 5 3 4 false false) (withS (withS near 3 0x1000) 4 1)).xlt.invals
    ∧ s.xlt.invals.map (·.num) = [1] ∧ (s.th.valS 3).toNat = 3 := ⟨_, rfl, by decide +kernel, by decide +kernel⟩

theorem witness_Invalidations_complete : ∃ s : State, s = after (.tinva 5 3 4 false false) (withS (withS near 3 0x1000) 4 1)
    ∧ s.xlt.invals.map (fun v => (v.num, s.draining v.num)) = [(1, false)]
    ∧ s.xlt.invals.all (fun v => (s.flushCores v.cores).any (fun u => v.cores.all (fun c => !(u.mwbOut c 2)))) = true :=
  ⟨_, rfl, by decide +kernel⟩

/-! ### Contexts, keys and the root of trust -/

/-- A privileged distaff thread with a part of home memory written, whose s3 holds an address. -/
def saving (va : Word) : State :=
  let s := withS dst 3 va
  { s with mem := { s.mem with acl := [(192, 0x0028003F), (647, 0x0028003F)] } }

theorem witness_ContextMoves : ∀ va ∈ [(0x4000 : Word), 0x4001], (saving va).th.kind = .distaff ∧ (saving va).th.priv = true ∧ Outside (saving va)
    ∧ Ready (saving va) .every [(saving va).th.abs 3] ((saving va).th.abs 5 :: List.range 128) []
    ∧ (saving va).unperformed (saving va).work.cur = false ∧ (saving va).coreOut (saving va).work.cur = false
    ∧ (saving va).th.acqPending = false := by
  intro va h
  simp only [List.mem_cons, List.not_mem_nil, or_false] at h
  rcases h with rfl | rfl <;> decide +kernel

theorem witness_ContextMoves_parts : ((saving 0x4000).resolveAll (saving 0x4000).work.cur (contextReqs 0x4000 (.store 0 0))).all (fun r =>
      !r.waits && r.isGood && !((saving 0x4000).laneHeld r)) = true
    ∧ (places ((saving 0x4000).resolveAll (saving 0x4000).work.cur (contextReqs 0x4000 .load))).all (fun p =>
      (saving 0x4000).pokeReady p.1 64 && !((saving 0x4000).lineBusy (((saving 0x4000).steer p.1 p.2).1 / 128))
        && !((saving 0x4000).peekPoison p.1 64)) = true := ⟨by decide +kernel, by decide +kernel⟩

theorem witness_IdleKeysAndTrust : ∀ a ∈ [(5 : Word), 0x4000000000000005, 0x8000000000000005], (saving a).th.priv = true ∧ Outside (saving a)
    ∧ Ready (saving a) .every [(saving a).th.abs 3] [] [] ∧ (saving a).partOfThread (saving a).th = some 0 ∧ (saving a).rotBusy = false
    ∧ (saving a).keyInFlight 5 = false ∧ ((saving a).wipeLines (fun _ l => l.key == 5)).isSome = true ∧ (saving a).th.trap.irq = 0 := by
  intro a h
  simp only [List.mem_cons, List.not_mem_nil, or_false] at h
  rcases h with rfl | rfl | rfl <;> exact ⟨by decide +kernel, by decide +kernel, by decide +kernel, by decide +kernel, by decide +kernel,
    by decide +kernel, by decide +kernel, by decide +kernel⟩

/-- A call of the root of trust, and the call with its request page. -/
def calling : State := after (.rtcall 5 3 false) (saving 0x4000)

theorem witness_IdleKeysAndTrust_call : (saving 0x4000).th.acqPending = false ∧ ((saving 0x4000).release 2).2 = some 0
    ∧ (match (saving 0x4000).look (saving 0x4000).th.space .atomic 0x4000 1 with
      | .ok _ _ => true
      | _ => false) = true
    ∧ (calling.thread calling.work.cur).producers.map (fun p => (calling.thread calling.work.cur).rotPage p.id) = [some 0x4000]
    ∧ taken (calling.vet 647 .read 0x4000) (fun a => calling.pokeReady a 4096) = true ∧ taken (calling.vet 647 .write 0x4000) (fun _ => true) = true
    ∧ calling.windowHeld 0x4000 = false :=
  ⟨by decide +kernel, by decide +kernel, by decide +kernel, by decide +kernel, by decide +kernel, by decide +kernel, by decide +kernel⟩

/-! ### Engines -/

/-- The group of `near` has pushed a command. -/
def commanded (q : BitVec 4) (w : List Nat) : State := after (.push 5 16 q) (offering near w)

/-- What a pushed command is, and that its number finds it. -/
def stands (s : State) : List (Nat × Nat × CmdSt × Bool) :=
  s.svc.cmds.map (fun c => (c.q, c.code, c.st, decide (s.cmd? c.id = some c)))

/-- A copy between scratchpad ranges, and a load by a record at 0x3000 that moves one row of 64 bytes. -/
def within : State := commanded 0 [0x10 * 2 ^ 56 + 2 * 2 ^ 36, 0, 0x100, 0, 0, 0, 64]
def loading : State := commanded 1 [0x10 * 2 ^ 56, 0x3000, 0x100, 0, 0, 1, 0]

theorem witness_CopyEngines : stands within = [(0, 0x10, .queued, true)] ∧ within.svc.cmds.all (fun c => within.heads c && c.dir == 2) = true
    ∧ stands loading = [(1, 0x10, .queued, true)] ∧ loading.svc.cmds.all (fun c => loading.heads c && c.dir == 0) = true :=
  ⟨by decide +kernel, by decide +kernel, by decide +kernel, by decide +kernel⟩

/-- The copy, begun. -/
def begun (s : State) : State :=
  match exec (.copy 0) s with
  | .next t => t
  | _ => s

theorem witness_CopyEngines_fetches : (begun within).svc.cmds.map (fun c => (c.id, c.st, c.fetches, c.total)) = [(0, .running, true, 1)] := by
  decide +kernel

/-- A gather of two rows of 32 bytes by a list in scratchpad. -/
def gathering : State := commanded 4 [0x20 * 2 ^ 56 + 2 ^ 36, 0x1000, 32 * 2 ^ 48 + 32, 0x40, 2, 0x100, 0]

theorem witness_CopyEngines_gather : stands gathering = [(4, 0x20, .queued, true)]
    ∧ gathering.svc.cmds.all (fun c => gathering.heads c && (c.w 0).getLsbD 36) = true := ⟨by decide +kernel, by decide +kernel⟩

/-- A densify command on the region at 0x10000. -/
def densifying : State :=
  after (.push 5 16 2) (offering (sparse 7) [0x30 * 2 ^ 56, 0x10000, 4, 4, 0x3000, 4, 0, 0])

theorem witness_CopyEngines_densify : (densifying.svc.cmds.map (fun c => (c.q, c.code, c.st)) = [(2, 0x30, .queued)])
    ∧ densifying.svc.cmds.all (fun c => densifying.heads c && (densifying.regionAt c.asid (c.w 1)).isSome) = true :=
  ⟨by decide +kernel, by decide +kernel⟩

theorem witness_EngineDelivery : ∃ s : State, s = begun (begun within) ∧ s.svc.cmds.map (fun c => (c.st, c.q, c.sectors.length, c.hold.isNone))
    = [(.running, 0, 2, true)] := ⟨_, rfl, by decide +kernel⟩

theorem witness_EngineDelivery_fence : stands (commanded 3 fenceWords) = [(3, 0x0F, .queued, true)]
    ∧ (commanded 3 fenceWords).svc.cmds.all (fun c => (commanded 3 fenceWords).fencePasses c) = true := ⟨by decide +kernel, by decide +kernel⟩

/-- A command of a signal type that has done its work. -/
def finished (sigt : Nat) : State :=
  let s := commanded 3 [0x0F * 2 ^ 56 + sigt * 2 ^ 52, 1]
  { s with svc := { s.svc with cmds := s.svc.cmds.map (fun c => c.finish []) } }

theorem witness_EngineDelivery_signal : ∀ g ∈ [0, 1, 2, 3], (finished g).svc.cmds.map (fun c => (c.st, c.sta, c.sigt, c.statusDone, c.code))
    = [(.finishing, none, g, false, 0x0F)] ∧ (finished g).work.teams.has near.th.ident.team = true := by
  intro g h
  simp only [List.mem_cons, List.not_mem_nil, or_false] at h
  rcases h with rfl | rfl | rfl | rfl <;> exact ⟨by decide +kernel, by decide +kernel⟩

/-! ### Page-major attention, migration -/

/-- A command of q5 that opens a pass, one of an open pass, and a subscription to it. -/
def opening : State := commanded 5 [0x40 * 2 ^ 56, 0x3000, 4, 0x3800]
def q5 (code : Nat) : State := after (.push 5 16 5) (offering (sharing .live []) [code * 2 ^ 56, passHandle 0 1 0, 0x3800])

theorem witness_PageMajorAttention : stands opening = [(5, 0x40, .queued, true)] ∧ opening.svc.cmds.all (fun c => opening.q5Head c) = true
    ∧ ∀ code ∈ [0x42, 0x43], (q5 code).svc.cmds.map (fun c => (c.code, (q5 code).q5Head c, ((q5 code).ownPass c (passHandle 0 1 0)).isSome))
      = [(code, true, true)] := by
  refine ⟨by decide +kernel, by decide +kernel, ?_⟩
  intro c h
  simp only [List.mem_cons, List.not_mem_nil, or_false] at h
  rcases h with rfl | rfl <;> decide +kernel

def subscribing : State := after (.push 5 16 5) (offering (sharing .live [])
  [0x41 * 2 ^ 56, passHandle 0 1 0 * 2 ^ 48 + 2 ^ 45 + 2 ^ 42 + 2 ^ 35, 0x3000, 2, 0, 0x3800, 1])

theorem witness_PageMajorAttention_subscribe : stands subscribing = [(5, 0x41, .queued, true)] ∧ subscribing.svc.cmds.all (fun c =>
    subscribing.q5Head c && ((subscribing.ownPass c (passHandle 0 1 0)).map (fun q => q.2.2.aborted) == some false)) = true :=
  ⟨by decide +kernel, by decide +kernel⟩

theorem witness_PageMajorAttention_sweep : ((sharing .live []).pass? 0 0).map (fun p => (p.aborted, p.held, p.sweepPage)) = some (false, false, some 1)
    ∧ ((sharing .live []).pme 0).store = [] := ⟨by decide +kernel, by decide +kernel⟩

theorem witness_PageMajorAttention_catchup : ((sharing .catchup []).pass? 0 0).map (fun p => (p.pos, (p.share? 0).map (fun x => (x.st, x.nextPage))))
    = some (0, some (.catchup, some 1)) ∧ ((sharing .aborted []).pass? 0 0).map (fun p => (p.share? 0).map (·.st)) = some (some .aborted)
    ∧ (ringed []).ringRoom near.th.ident.team 2 = true := ⟨by decide +kernel, by decide +kernel, by decide +kernel⟩

/-- An image in the page store for the share. -/
def imaged : State :=
  let s := (sharing .live []).mapRing near.th.ident.team 2 (fun _ => ⟨BitVec.ofNat 64 (2 ^ 56 + 96 * 2 ^ 32), true, false, [], 0, 0⟩)
  s.mapPme 0 (fun m => { m with store := [⟨0, 0, none, true, false, none, [0], []⟩] })

theorem witness_PageMajorAttention_deliver : (imaged.pme 0).store.map (fun g => (g.zero, g.goal, g.pass)) = [(true, [0], 0)]
    ∧ ((imaged.team near.th.ident.team).ring 2).full.has ((imaged.team near.th.ident.team).ring 2).prod = false
    ∧ (imaged.team near.th.ident.team).resident = true ∧ (imaged.pass? 0 0).isSome = true :=
  ⟨by decide +kernel, by decide +kernel, by decide +kernel, by decide +kernel⟩

/-- A migration of the page at 0x10000 to 0x20000, and a release of that page. -/
def migrating (entry : Nat) : State :=
  let s := commanded 8 [2 ^ 56, 0x10000, 0x20000, 0, 0x3000]
  { s with mem := { s.mem with acl := s.mem.acl ++ [(644, entry)] } }

theorem witness_Migrations : stands (migrating 0x0028003F) = [(8, 1, .queued, true)]
    ∧ (migrating 0x0028003F).svc.cmds.all (fun c => (migrating 0x0028003F).firstOfIssuer c) = true
    ∧ (migrating 0x0028003F).homedRange 0x10000 4096 = true ∧ (migrating 0x0028003F).homedRange 0x20000 4096 = true
    ∧ (migrating 0x0028003F).migrDenied .read 0x10000 4096 = false ∧ (migrating 0x0028003F).migrDenied .write 0x20000 4096 = false
    ∧ (migrating 0).migrDenied .read 0x10000 4096 = true ∧ (migrating 0).mem.migr = [] :=
  ⟨by decide +kernel, by decide +kernel, by decide +kernel, by decide +kernel, by decide +kernel, by decide +kernel, by decide +kernel,
    by decide +kernel⟩

/-- A page half moved, at one of the stages of a line, or moved. -/
def half (moving transit recalled : Bool) : State :=
  let s := commanded 8 [2 * 2 ^ 56, 0x10000]
  { s with mem := { s.mem with migr := [(0, ⟨0x10000, 0x20000, 0, 0, 4096, 0x10800, transit, moving, false, 7, 0, 0, recalled, none⟩)] } }

theorem witness_Migrations_release : stands (half false false false) = [(8, 2, .queued, true)]
    ∧ (half false false false).home 0x10000 = some 0x10000 := ⟨by decide +kernel, by decide +kernel⟩

theorem witness_Migrations_line : (half true false false).lineMoves (0x10800 / 128) = false ∧ ∀ r ∈ [false, true], (half true false r).writeHeld (0x10800 / 128) = false ∧ ((half true false r).dirOf (0x10800 / 128)).st = .I
    ∧ (0x10800 / 128) ∉ (half true false r).mem.locked ∧ (half true true r).lineBusy (0x20800 / 128) = false
    ∧ (half true true r).writeHeld (0x20800 / 128) = false := by
  refine ⟨by decide +kernel, ?_⟩
  intro r h
  simp only [List.mem_cons, List.not_mem_nil, or_false] at h
  rcases h with rfl | rfl <;> exact ⟨by decide +kernel, by decide +kernel, by decide +kernel, by decide +kernel, by decide +kernel⟩

/-! ### Coherence -/

/-- A request for the line at 0x1000 in its home's miss table, or an answer that has arrived, beside a directory entry. -/
def asked (k : MsgKind) (src : Nat) (pl : Place) (d : Dir) : State :=
  let m : Msg := { Msg.plain k 32 src (if pl = .table then 254 else src) 0 0 with place := pl }
  { near with mem := { near.mem with acl := [(0, 0x0028003F)], caches := [], net := [m], sliceClk := 1, dir := [(32, d)] } }

/-- The states of a directory entry that a request may find. -/
def entries : List Dir :=
  [⟨.I, 255, [], [], [], false, none, 0, false, 0, []⟩, ⟨.I, 255, [], [], [], true, none, 0, false, 0, []⟩,
    ⟨.S, 255, [], [], [64], true, none, 0, false, 0, []⟩, ⟨.EM, 65, [], [], [], true, none, 0, false, 0, []⟩,
    ⟨.O, 65, [], [], [66], true, none, 0, false, 0, []⟩]

def requests : List (MsgKind × Nat) := [(.getS, 64), (.getX, 64), (.upg, 64), (.rdU, 0), (.mwb, 0)]

theorem witness_HomeCoherence : requests.all (fun r => entries.all (fun d =>
    let s := asked r.1 r.2 .table d
    s.mem.net.all (fun m => s.serveable m && (s.steer (128 * m.line) m.key).1 / 128 == m.line && (s.refuse 0 m).isNone
      && !m.tx && !((s.dirOf m.line).otherKey m.key)))) = true := by decide +kernel

theorem witness_HomeCoherence_put : [MsgKind.putM, .putE].all (fun k => entries.all (fun d =>
    (asked k 65 .table d).mem.net.all (fun m => (asked k 65 .table d).serveable m && ((asked k 65 .table d).refuse 0 m).isNone))) = true := by
  decide +kernel

/-- A transient entry that serves a request of code 64. -/
def transient (st : DirSt) (k : MsgKind) : Dir := ⟨st, 65, [], [], [], true, some (Msg.plain k 32 64 254 0 0), 1, false, 0, []⟩

theorem witness_HomeCoherence_answers : [(MsgKind.memData, DirSt.MD, MsgKind.getS), (.memData, .MD, .rdU), (.memData, .MD, .getX), (.invAck, .SI, .upg),
      (.done, .FX, .getX), (.invAck, .RC, .mwb), (.fwdAck, .FS, .getS), (.fdData, .FD, .rdU), (.rcAck, .RC, .mwb)].all (fun q =>
    let s := asked q.1 65 .here (transient q.2.1 q.2.2)
    s.mem.net.all (fun m => m.place == .here && s.l2Room m.line && ((s.takeMsg 0).dirOf m.line).acks == 1
      && ((s.takeMsg 0).dirOf m.line).st == q.2.1 && s.homeBusy m.line)) = true := by decide +kernel

theorem witness_RequesterCoherence : [64, 0].all (fun c =>
    let s := asked .grant c .here (transient .FX .getX)
    s.mem.net.all (fun m => (s.grantRoom m).any (fun v => v.mem.net[0]? == some m) && !(s.spoilt m.cache m.line))) = true := by decide +kernel

/-- A copy in a cache, and a message that asks for it. -/
def held (k : MsgKind) (st : Moesi) : State :=
  let s := asked k 65 .here (transient .FX .getX)
  { s with mem := { s.mem with caches := [(193, [(32, CLine.clean 0 0 st 0)])] } }

theorem witness_RequesterCoherence_forwards : [MsgKind.inv, .fwdS, .fwdX, .fwdD, .rcl].all (fun k => [Moesi.M, .O, .E].all (fun st =>
    let s := held k st
    s.mem.net.all (fun m => !(s.granting m) && !(s.snoopWaits (s.holder m.line m.dst) m.line)
      && (((s.takeMsg 0).snoopSpec (s.holder m.line m.dst) m.line).answerCopy m).any (fun p => p.2 && p.1.st == st)))) = true := by
  decide +kernel

theorem witness_RequesterCoherence_spill : ∃ s : State, s = asked .getS 64 .spill (transient .FX .getX) ∧ s.mem.net.map (·.place) = [.spill]
    ∧ s.missUsed (s.sliceOf 0x1000) < missEntries (s.sliceOf 0x1000) := ⟨_, rfl, by decide +kernel, by decide +kernel⟩

/-! ### Faults, launches, blocks -/

/-- A partition's record queue is open at 0x40000, and 645 may write it. -/
def queued : State :=
  let s := near.mapFrq 0 (fun q => { q with base := 0x40800 })
  { s with mem := { s.mem with acl := s.mem.acl ++ [(645, 0x0028003F)] } }

theorem witness_FaultService : (queued.frqOf 0).base.getLsbD 11 = true ∧ (queued.frqOf 0).head = (queued.frqOf 0).tail
    ∧ queued.svc.heldRecs = [] ∧ taken (queued.vet 645 .write 0x40000) (fun a => queued.pokeReady a 64) = true
    ∧ near.recordDenied 0 = false ∧ (near.frqOf 0).base.getLsbD 11 = false :=
  ⟨by decide +kernel, by decide +kernel, by decide +kernel, by decide +kernel, by decide +kernel, by decide +kernel⟩

/-- A handler's state with one unanswered token of a kind and source. -/
def tokened (kind : Nat) (src : Source) : State :=
  { dst with svc := { dst.svc with tokens := [⟨0, 1, kind, 1, 1, 7, 1, src, 0⟩] } }

theorem witness_FaultService_tokens : ∀ k ∈ [1, 2, 3, 4], (tokened k (.word 0)).th.priv = true
    ∧ (tokened k (.word 0)).partOfThread (tokened k (.word 0)).th = some 0
    ∧ (tokened k (.word 0)).svc.tokens.map (fun x => (x.part, x.token, (tokened k (.word 0)).recordWritten x)) = [(0, 1, true)] := by
  intro k h
  simp only [List.mem_cons, List.not_mem_nil, or_false] at h
  rcases h with rfl | rfl | rfl | rfl <;> exact ⟨by decide +kernel, by decide +kernel, by decide +kernel⟩

theorem witness_FaultService_launch : (queued.launch? 1).isSome = true ∧ (dst.launch? 1).isNone = true := ⟨by decide +kernel, by decide +kernel⟩

/-- A group parked at a fetch, or with a record whose group waits in a trap. -/
def parked (fetch : Bool) : State := near.mapTh (fun t => { t with status := .parked, park := some ⟨[], 0, fetch, [], false⟩ })

theorem witness_FaultService_sources : [true, false].all (fun f => ((parked f).thread 0).park.any (fun p => p.fetch == f && p.reqs.isEmpty)) = true
    ∧ (∃ s : State, s = near.mapTh (fun t => { t with status := .parked }) ∧ (s.thread 0).status = .parked ∧ (s.thread 0).park = none)
    ∧ (∃ s : State, s = { within with svc := { within.svc with cmds := within.svc.cmds.map (fun c => { c with st := .faulted 1 }) } }
      ∧ s.svc.cmds.map (fun c => (c.st, decide (s.cmd? c.id = some c))) = [(.faulted 1, true)]) :=
  ⟨by decide +kernel, ⟨_, rfl, by decide +kernel, by decide +kernel⟩, ⟨_, rfl, by decide +kernel⟩⟩

theorem witness_Launches_setdet : stands (commanded 6 [0x51 * 2 ^ 56 + 2 ^ 35]) = [(6, 0x51, .queued, true)]
    ∧ (commanded 6 [0x51 * 2 ^ 56 + 2 ^ 35]).svc.cmds.all (fun c => (commanded 6 [0x51 * 2 ^ 56 + 2 ^ 35]).streamHead c) = true :=
  ⟨by decide +kernel, by decide +kernel⟩

/-- A launch command, with or without a start condition. -/
def launching (stca : Nat) : State := commanded 6 (launchWords.set 2 stca)

theorem witness_Launches : ∀ a ∈ [0, 0x3200], stands (launching a) = [(6, 0x50, .queued, true)] ∧ (launching a).svc.cmds.all (fun c =>
    (launching a).streamHead c && !c.fired && !c.started && !(shapeBad c.words) && (c.w 2 == BitVec.ofNat 64 a)
      && ((launching a).diesOf ((launching a).issuerPart c)).any (fun d =>
        shapeCluster c.words ≤ ((coresOf d).filter (launching a).inService).length)) = true := by
  intro a h
  simp only [List.mem_cons, List.not_mem_nil, or_false] at h
  rcases h with rfl | rfl <;> exact ⟨by decide +kernel, by decide +kernel⟩

/-- A launch that has been accepted, and waits for a place. -/
def accepted : State :=
  let l := placedLaunch 3
  { near with work := { near.work with launches := near.work.launches.put 2 { l with cmd := l.cmd.set 0 (setBits (nth l.cmd 0 0) 21 12 0), bnext := 0 } } }

theorem insertCore_length (s : State) (c : Nat) (l : List Nat) : (s.insertCore c l).length = l.length + 1 := by
  induction l with
  | nil => rfl
  | cons d r ih => simp only [State.insertCore]; split <;> simp [ih]

theorem insertCores_length (s : State) (cs l : List Nat) : (cs.foldl (fun l c => s.insertCore c l) l).length = l.length + cs.length := by
  induction cs generalizing l with
  | nil => rfl
  | cons c cs ih => rw [List.foldl_cons, ih, insertCore_length, List.length_cons]; omega

/-- A launch fits where the first die in its turn has one core for its team. -/
theorem fits_of {s : State} {l : Launch} {c d : Nat} {ds : List Nat} (hd : s.rotation l.part = d :: ds) (hc : c ∈ coresOf d)
    (h : s.coreFits l.cmd l.asid c = true) (h1 : shapeCluster l.cmd = 1) : ∃ q, s.fit l = some q := by
  have hl : 0 < ((coresOf d).filter (s.coreFits l.cmd l.asid)).length := List.length_pos_of_mem (List.mem_filter.mpr ⟨hc, h⟩)
  have hn : ¬((((coresOf d).filter (s.coreFits l.cmd l.asid)).foldl (fun l c => s.insertCore c l) []).length < shapeCluster l.cmd) := by
    rw [insertCores_length, h1, List.length_nil]; omega
  simp only [State.fit, hd, List.findSome?_cons, State.coresFor, hn, ite_false, Option.map_some]
  exact ⟨_, rfl⟩

theorem witness_Launches_place : ∃ l, accepted.launch? 2 = some l ∧ accepted.launchTurn 2 l = true ∧ accepted.savedBlocks 2 = []
    ∧ ∃ q, accepted.fit l = some q :=
  ⟨(accepted.launch? 2).getD (placedLaunch 3), by decide +kernel, by decide +kernel, by decide +kernel, fits_of (d := 0) (c := 1) (ds := []) (by decide +kernel) (by decide)
    (by decide +kernel) (by decide +kernel)⟩

theorem witness_BlockLifetimes : (near.block? 1 0).any (fun b => b.st == .resident && !(near.teamsOver b)) = true
    ∧ (near.launch? 1).any (fun l => l.det == 0) = true := ⟨by decide +kernel, by decide +kernel⟩

/-- Its one group has ended, at a determinism level. -/
def finishedBlock (det : Nat) : State := (near.mapTh (fun t => { t with status := .ended })).mapLaunch 1 (fun l => { l with det := det })

theorem witness_BlockLifetimes_over : ∀ d ∈ [0, 1, 2], (((finishedBlock d).block? 1 0).any (fun b => (finishedBlock d).teamsOver b && b.raced.isNone && !b.flushed
    && (finishedBlock d).recordRoom b.die 1)) = true ∧ ((finishedBlock d).launch? 1).any (fun l => l.det == d && l.ended.isEmpty && l.bfirst == 0) = true
    ∧ (finishedBlock d).flushReady ((finishedBlock d).stagedLines 0 1 0) = true ∧ ((finishedBlock d).endFlush 1 0 d [0]).2 = none := by
  intro d h
  simp only [List.mem_cons, List.not_mem_nil, or_false] at h
  rcases h with rfl | rfl | rfl <;> exact ⟨by decide +kernel, by decide +kernel, by decide +kernel, by decide +kernel⟩

/-- A block that has been asked to stop, and one that is saved. -/
def leaving (st : BlockSt) : State := near.mapBlock 1 0 (fun b => { b with st := st })

theorem witness_BlockLifetimes_stop : (leaving .stopping).th.committing = false ∧ (leaving .stopping).th.status = .running
    ∧ (leaving .stopping).th.ident.lnum = 1 ∧ ((leaving .stopping).block? 1 0).any (fun b => !((leaving .stopping).allStopped b)) = true
    ∧ (near.block? 1 0).any (fun b => !(near.wanted b)) = true :=
  ⟨by decide +kernel, by decide +kernel, by decide +kernel, by decide +kernel, by decide +kernel⟩

/-- The saved block, whose group has left its core. -/
def away : State := (leaving .saved).mapTh (fun t => { t with status := .vacant })

theorem witness_BlockLifetimes_resume : ∃ l, away.launch? 1 = some l ∧ (away.block? 1 0).any (fun b => b.st == .saved) = true
    ∧ (away.savedBlocks 1).head? = some 0 ∧ away.launchTurn 1 l = true ∧ ∃ q, away.fit l = some q :=
  ⟨(away.launch? 1).getD (placedLaunch 3), by decide +kernel, by decide +kernel, by decide +kernel, by decide +kernel, fits_of (d := 0) (c := 1) (ds := []) (by decide +kernel) (by decide)
    (by decide +kernel) (by decide +kernel)⟩

/-! ### The partition manager, and the outside -/

/-- A command of q9 of the privileged group. -/
def managing (code w1 w2 w3 w4 : Nat) : State := commanded 9 [code * 2 ^ 56, w1, w2, w3, w4, 0x3000]

theorem witness_PartitionManager : ∀ p ∈ [(0x60, 4, 0, 0, 1), (0x61, 4, 2, 0, 1)],
    (managing p.1 p.2.1 p.2.2.1 p.2.2.2.1 p.2.2.2.2).svc.cmds.map (fun c => (c.code, c.st,
      (managing p.1 p.2.1 p.2.2.1 p.2.2.2.1 p.2.2.2.2).managerTurn c)) = [(p.1, .queued, true)] := by
  intro p h
  simp only [List.mem_cons, List.not_mem_nil, or_false] at h
  rcases h with rfl | rfl <;> decide +kernel

theorem witness_PartitionManager_run : ∀ p ∈ [(0x62, 0), (0x63, 2 ^ 10), (0x64, 2 ^ 16)], (managing p.1 p.2 0 0 0).svc.cmds.map (fun c =>
    (c.code, c.st, (managing p.1 p.2 0 0 0).managerTurn c, (managing p.1 p.2 0 0 0).issuerAt c)) = [(p.1, .queued, true, some 0)]
    ∧ (managing p.1 p.2 0 0 0).valid 0 = true ∧ (managing p.1 p.2 0 0 0).partOfDie 0 = some 0 ∧ (managing p.1 p.2 0 0 0).partOfDistaff 0 = some 0
    ∧ (managing p.1 p.2 0 0 0).fenced 1 = false := by
  intro p h
  simp only [List.mem_cons, List.not_mem_nil, or_false] at h
  rcases h with rfl | rfl | rfl <;> exact ⟨by decide +kernel, by decide +kernel, by decide +kernel, by decide +kernel, by decide +kernel⟩

/-- A layout command under way on die 3, in one of its phases. -/
def quiescing (phase2 : Bool) : State :=
  let s := managing 0x60 4 0 0 1
  { s with pkg := { s.pkg with quiesce := (s.svc.cmds.head?).map (fun c => ⟨c.id, [3], [0, 1], [], phase2⟩) } }

theorem witness_PartitionManager_phases : ∀ b ∈ [false, true], (quiescing b).pkg.quiesce.any (fun q => ((quiescing b).cmd? q.cmd).isSome
    && q.phase2 == b && (quiescing b).quiesced q.dies && !((quiescing b).drainOut q)) = true := by
  intro b h
  simp only [List.mem_cons, List.not_mem_nil, or_false] at h
  rcases h with rfl | rfl <;> decide +kernel

theorem witness_OutsideWorld : stands (commanded 7 [0x70 * 2 ^ 56, 2 ^ 16, 0x3000, 64, 0x3100]) = [(7, 0x70, .queued, true)]
    ∧ (commanded 7 [0x70 * 2 ^ 56, 2 ^ 16, 0x3000, 64, 0x3100]).svc.cmds.all (fun c =>
      (commanded 7 [0x70 * 2 ^ 56, 2 ^ 16, 0x3000, 64, 0x3100]).firstOfIssuer c) = true := ⟨by decide +kernel, by decide +kernel⟩

/-- A partition whose receive ring is on or off. -/
def ringing (on : Word) : State := near.mapNet 0 (fun r => { r with rx := 0x50000, rxa := on })

theorem witness_OutsideWorld_ring : (ringing 1).portPart 0 = some 0 ∧ ((ringing 1).netOf 0).rxa.getLsbD 0 = true
    ∧ ((ringing 0).netOf 0).rxa.getLsbD 0 = false ∧ (ringing 1).svc.portWait = [] ∧ near.partWith 44 = some 0 ∧ near.irqCore 0 = some 0 :=
  ⟨by decide +kernel, by decide +kernel, by decide +kernel, by decide +kernel, by decide +kernel, by decide +kernel⟩

theorem witness_OutsideWorld_function : ∃ s : State, s = { near with mem := { near.mem with acl := [(1024, 0x0028003F)] } } ∧ isMmio 0x1000 = false
    ∧ taken (s.vet 1024 .write 0x1000) (fun a => s.pokeReady a 8) = true ∧ s.windowHeld 0x1000 = false
    ∧ denied (near.vet 1025 .write 0x1000) = true := ⟨_, rfl, by decide +kernel, by decide +kernel, by decide +kernel, by decide +kernel⟩

end Sys2Proof.Tests
end

section
/-! SUPPORT. The values that the scalar integer words compute, told in the words of the manual (R203 to R206). -/

namespace Sys2Proof.Machine

open Sys2Proof.Safety

/-! ## Signed numbers -/

/-- The signed reading of a word's low bits is its two's-complement value. -/
@[simp] theorem signedOf_toNat {n : Nat} (v : BitVec n) : signedOf n v.toNat = v.toInt := by
  rw [signedOf, Nat.mod_eq_of_lt v.isLt, BitVec.toInt_eq_msb_cond, BitVec.msb_eq_getLsbD_last, BitVec.getLsbD]

/-- A number wrapped to `n` bits is the word of that number. -/
@[simp] theorem ofNat_wrapInt (n : Nat) (x : Int) : BitVec.ofNat n (wrapInt n x) = BitVec.ofInt n x := by
  apply BitVec.eq_of_toNat_eq
  rw [wrapInt, ← BitVec.toNat_ofInt, BitVec.ofNat_toNat, BitVec.setWidth_eq]

/-! ## Products -/

/-- The high half of a product is the upper half of the 128-bit word that holds it. -/
theorem mulHigh_eq (a b : Int) : mulHigh a b = ((BitVec.ofInt 128 (a * b)) >>> (64 : Nat)).setWidth 64 := by
  apply BitVec.eq_of_toNat_eq
  rw [mulHigh, BitVec.toNat_setWidth, BitVec.toNat_ushiftRight, BitVec.toNat_ofInt, BitVec.toNat_ofInt, Nat.shiftRight_eq_div_pow]
  generalize a * b = k
  omega

theorem mulHigh_signed (u v : Word) :
    mulHigh u.toInt v.toInt = ((u.signExtend 128 * v.signExtend 128) >>> (64 : Nat)).setWidth 64 := by
  rw [mulHigh_eq, BitVec.ofInt_mul]
  rfl

theorem mulHigh_unsigned (u v : Word) :
    mulHigh u.toNat v.toNat = ((u.setWidth 128 * v.setWidth 128) >>> (64 : Nat)).setWidth 64 := by
  rw [mulHigh_eq, BitVec.ofInt_mul, BitVec.ofInt_natCast, BitVec.ofInt_natCast, BitVec.ofNat_toNat, BitVec.ofNat_toNat]

/-! ## Division (R204) -/

/-- The quotient of SDIV is that of two's-complement division. -/
theorem ofInt_sdivmod_fst (u v : Word) : BitVec.ofInt 64 (sdivmod u.toNat v.toNat).1 = u.sdiv v := by
  apply BitVec.eq_of_toInt_eq
  rw [BitVec.toInt_sdiv, BitVec.toInt_ofInt, sdivmod, signedOf_toNat, signedOf_toNat]
  split <;> simp [*]

/-- The remainder of SREM is that of two's-complement division. -/
theorem ofInt_sdivmod_snd (u v : Word) : BitVec.ofInt 64 (sdivmod u.toNat v.toNat).2 = u.srem v := by
  have h : (sdivmod u.toNat v.toNat).2 = (u.srem v).toInt := by
    rw [BitVec.toInt_srem, sdivmod, signedOf_toNat, signedOf_toNat]
    split <;> simp [*]
  rw [h, BitVec.ofInt_toInt]

/-- R204: the one quotient that does not fit, -2^63 by -1, is cut to the dividend. -/
theorem sdiv_overflow (u v : Word) (hu : u.toInt = -(2 ^ 63)) (hv : v.toInt = -1) : u.sdiv v = u ∧ u.srem v = 0 := by
  constructor
  · apply BitVec.eq_of_toInt_eq
    rw [BitVec.toInt_sdiv, hu, hv]
    decide
  · apply BitVec.eq_of_toInt_eq
    rw [BitVec.toInt_srem, hu, hv]
    decide

/-- R204: every other quotient truncates toward zero, and the remainder is what it leaves. -/
theorem sdiv_truncates (u v : Word) (h : ¬(u.toInt = -(2 ^ 63) ∧ v.toInt = -1)) :
    (u.sdiv v).toInt = u.toInt.tdiv v.toInt ∧ (u.srem v).toInt = u.toInt - (u.sdiv v).toInt * v.toInt := by
  have hne : u ≠ BitVec.intMin 64 ∨ v ≠ -1#64 := by
    refine Decidable.not_and_iff_or_not.1 fun ⟨hu, hv⟩ => h ?_
    rw [hu, hv]
    decide
  have hq : (u.sdiv v).toInt = u.toInt.tdiv v.toInt := BitVec.toInt_sdiv_of_ne_or_ne u v hne
  rw [hq, BitVec.toInt_srem, Int.tmod_def, Int.mul_comm]
  exact ⟨rfl, rfl⟩

theorem umod_toNat (u v : Word) : (u % v).toNat = u.toNat - (u / v).toNat * v.toNat := by
  rw [BitVec.toNat_umod, BitVec.toNat_udiv, Nat.mul_comm, Nat.mod_eq_sub]

/-! ## Rotation, order and comparison (R203, R206) -/

theorem rotateLeft_mod (u : Word) (c : Nat) : u.rotateLeft (c % 64) = (u <<< (c % 64)) ||| (u >>> (64 - c % 64)) :=
  BitVec.rotateLeft_eq_rotateLeftAux_of_lt (Nat.mod_lt c (by decide))

theorem max_signed (u v : Word) : (if u.toInt < v.toInt then v else u) = if u.toInt ≤ v.toInt then v else u := by
  by_cases heq : u.toInt = v.toInt
  · rw [BitVec.eq_of_toInt_eq heq, ite_self, ite_self]
  · simp only [show u.toInt < v.toInt ↔ u.toInt ≤ v.toInt by omega]

theorem max_unsigned (u v : Word) : (if u.toNat < v.toNat then v else u) = if u.toNat ≤ v.toNat then v else u := by
  by_cases heq : u.toNat = v.toNat
  · rw [BitVec.eq_of_toNat_eq heq, ite_self, ite_self]
  · simp only [show u.toNat < v.toNat ↔ u.toNat ≤ v.toNat by omega]

theorem min_signed (u v : Word) : (if v.toInt < u.toInt then v else u) = if u.toInt ≤ v.toInt then u else v := by
  rw [← ite_not]
  simp only [Int.not_lt]

theorem min_unsigned (u v : Word) : (if v.toNat < u.toNat then v else u) = if u.toNat ≤ v.toNat then u else v := by
  rw [← ite_not]
  simp only [Nat.not_lt]

@[simp] theorem bitW_decide (p : Prop) [Decidable p] : bitW (decide p) = if p then 1 else 0 := by
  simp [bitW]

theorem icmp_eq (u v : Word) : icmp 64 0 u.toNat v.toNat = decide (u = v) := by
  rw [Bool.eq_iff_iff]
  simp [icmp, BitVec.toNat_inj]

theorem icmp_ne (u v : Word) : icmp 64 1 u.toNat v.toNat = decide (u ≠ v) := by
  rw [Bool.eq_iff_iff]
  simp [icmp, BitVec.toNat_inj]

theorem icmp_slt (u v : Word) : icmp 64 2 u.toNat v.toNat = decide (u.toInt < v.toInt) := by
  simp [icmp]

theorem icmp_sge (u v : Word) : icmp 64 3 u.toNat v.toNat = decide (v.toInt ≤ u.toInt) := by
  simp [icmp]

/-! ## Scalar words -/

/-- A ready scalar word of two sources gives its destination what its function makes of them. -/
theorem State.next_scalar2 {s : State} {d a b : BitVec 7} {x y : Bool} {f : Word → Word → Word} {w : Word}
    (h : Ready s .every [s.th.abs a, s.th.abs b] [s.th.abs d] []) (hw : f (s.th.valS a) (s.th.valS b) = w) :
    (Host.Outcome.next (s.scalar2 d a b x y f) : Out) = .next (gives s d w) := by
  rw [State.scalar2_eq s d a b x y f h, hw]

/-- The same for a word that reads its destination too. -/
theorem State.next_scalar3 {s : State} {d a b : BitVec 7} {x y : Bool} {f : Word → Word → Word → Word} {w : Word}
    (h : Ready s .every [s.th.abs a, s.th.abs b, s.th.abs d] [s.th.abs d] [])
    (hw : f (s.th.valS d) (s.th.valS a) (s.th.valS b) = w) :
    (Host.Outcome.next (s.scalar3 d a b x y f) : Out) = .next (gives s d w) := by
  rw [State.scalar3_eq s d a b x y f h, hw]

/-- The same for a word of one source. -/
theorem State.next_scalar1 {s : State} {d a : BitVec 7} {x : Bool} {f : Word → Word} {w : Word}
    (h : Ready s .every [s.th.abs a] [s.th.abs d] []) (hw : f (s.th.valS a) = w) :
    (Host.Outcome.next (s.scalar1 d a x f) : Out) = .next (gives s d w) := by
  rw [State.scalar1_eq s d a x f h, hw]

/-- Settles O10, word by word: each is the shared form of two or three sources, with the value that a lemma above restates. -/
theorem scalarIntegerForms : Obligations.ScalarIntegerForms := by
  refine ⟨?forms, ?division, ?selection⟩
  case forms =>
    intro s d a b x y h
    exact ⟨State.next_scalar2 h rfl, State.next_scalar2 h rfl, State.next_scalar2 h rfl,
      State.next_scalar2 h (mulHigh_signed _ _), State.next_scalar2 h (mulHigh_unsigned _ _),
      State.next_scalar2 h rfl, State.next_scalar2 h rfl, State.next_scalar2 h rfl, State.next_scalar2 h rfl,
      State.next_scalar2 h rfl, State.next_scalar2 h rfl, State.next_scalar2 h rfl,
      State.next_scalar2 h (rotateLeft_mod _ _),
      State.next_scalar2 h (min_signed _ _),
      State.next_scalar2 h (max_signed _ _),
      State.next_scalar2 h (min_unsigned _ _),
      State.next_scalar2 h (max_unsigned _ _)⟩
  case division =>
    intro s d a b x y h u v
    refine ⟨u.sdiv v, u.srem v, u / v, u % v, State.next_scalar2 h (ofInt_sdivmod_fst u v),
      State.next_scalar2 h (ofInt_sdivmod_snd u v), State.next_scalar2 h (BitVec.udiv_def).symm,
      State.next_scalar2 h (BitVec.umod_def).symm, ?zero, ?overflow, ?signed, ?unsigned⟩
    case zero =>
      intro hv
      rw [hv]
      exact ⟨BitVec.sdiv_zero, BitVec.srem_zero, BitVec.udiv_zero, BitVec.umod_zero⟩
    case overflow => exact fun ⟨hu, hv⟩ => sdiv_overflow u v hu hv
    case signed => exact fun ⟨_, hn⟩ => sdiv_truncates u v hn
    case unsigned => exact fun _ => ⟨BitVec.toNat_udiv, umod_toNat u v⟩
  case selection =>
    intro s d a b x y h u v
    have h2 : Ready s .every [s.th.abs a, s.th.abs b] [s.th.abs d] [] :=
      Thread.ready_sub h (by simp) (fun _ hr => hr) (fun _ hr => hr)
    have hset (c : BitVec 3) (p : Prop) [Decidable p] (hc : icmp 64 c.toNat u.toNat v.toNat = decide p) :
        exec (.sset c d a b x y) s = .next (gives s d (if p then 1 else 0)) :=
      State.next_scalar2 h2 ((congrArg bitW hc).trans (bitW_decide p))
    refine ⟨State.next_scalar3 h (ite_not _ _ _), hset 0 _ (icmp_eq u v), ?_, hset 2 _ (icmp_slt u v),
      hset 3 _ (icmp_sge u v), hset 4 _ rfl, hset 5 _ rfl⟩
    · rw [hset 1 _ (icmp_ne u v), ite_not]

end Sys2Proof.Machine
end

section
/-! SUPPORT. The counts and bit fields of R205, bit by bit. -/

namespace Sys2Proof.Machine

open Sys2Proof.Safety

/-! ## Counts -/

/-- The leading zeros of a number stop at its highest 1 bit. -/
theorem clz_of_ne_zero {x : Nat} (hx : x ≠ 0) (h64 : x < 2 ^ 64) : clz 64 x < 64 ∧ x / 2 ^ (63 - clz 64 x) = 1 := by
  have hlog : x.log2 < 64 := (Nat.log2_lt hx).2 h64
  have hc : clz 64 x = 63 - x.log2 := by simp [clz, hx]
  have hsub : 63 - clz 64 x = x.log2 := by omega
  refine ⟨by omega, ?_⟩
  rw [hsub]
  refine Nat.div_eq_of_lt_le ?_ ?_
  · simpa using Nat.log2_self_le hx
  · simpa [Nat.pow_succ, Nat.mul_comm] using Nat.lt_log2_self (n := x)

/-- The search for a 1 bit passes only 0 bits, and stops at a 1 bit or at its limit. -/
theorem ctzGo_spec (x n i : Nat) : ctzGo x i n ≤ i + n ∧ (∀ j, i ≤ j → j < ctzGo x i n → x.testBit j = false)
    ∧ (ctzGo x i n < i + n → x.testBit (ctzGo x i n) = true) := by
  induction n generalizing i with
  | zero => exact ⟨Nat.le_refl _, fun j h1 h2 => absurd h2 (by simp [ctzGo, h1]), fun h => absurd h (Nat.lt_irrefl _)⟩
  | succ n ih =>
    by_cases hb : x.testBit i = true
    · simp only [ctzGo, hb, if_true]
      exact ⟨by omega, fun j h1 h2 => by omega, fun _ => trivial⟩
    · obtain ⟨hle, hzero, hone⟩ := ih (i + 1)
      simp only [ctzGo, hb, if_false, Bool.false_eq_true]
      refine ⟨by omega, fun j h1 h2 => ?_, fun h => hone (by omega)⟩
      rcases Nat.eq_or_lt_of_le h1 with rfl | hlt
      · exact Bool.eq_false_iff.2 hb
      · exact hzero j hlt h2

/-- The trailing zeros of a word that is not 0 stop at its lowest 1 bit. -/
theorem ctz_of_ne_zero {u : Word} (hu : u ≠ 0) :
    ctz 64 u.toNat < 64 ∧ u.toNat % 2 ^ ctz 64 u.toNat = 0 ∧ u.getLsbD (ctz 64 u.toNat) = true := by
  obtain ⟨hle, hzero, hone⟩ := ctzGo_spec u.toNat 64 0
  rw [Nat.zero_add] at hle hone
  have hlt : ctz 64 u.toNat < 64 := by
    refine Nat.lt_of_le_of_ne hle fun h => hu (BitVec.eq_of_getLsbD_eq fun j hj => ?_)
    exact (hzero j (Nat.zero_le j) (Nat.lt_of_lt_of_eq hj h.symm)).trans BitVec.getLsbD_zero.symm
  refine ⟨hlt, Nat.eq_of_testBit_eq fun j => ?_, hone hlt⟩
  rw [Nat.testBit_mod_two_pow, Nat.zero_testBit]
  by_cases hj : j < ctz 64 u.toNat
  · rw [show u.toNat.testBit j = false from hzero j (Nat.zero_le j) hj, Bool.and_false]
  · rw [decide_eq_false hj, Bool.false_and]

theorem popc_le (n x : Nat) : popc n x ≤ n := by
  simpa [popc, upto] using List.length_filter_le x.testBit (List.range n)

/-! ## Bit fields -/

/-- A field extracted is the slice of the word, cut at its top, extended by its sign or by zeros. -/
theorem ofNat_bitField (u : Word) (p w : Nat) (sg : Bool) :
    BitVec.ofNat 64 (bitField 64 u.toNat p w sg) =
      if sg then (u.extractLsb' p (min w (64 - p))).signExtend 64 else (u.extractLsb' p (min w (64 - p))).setWidth 64 := by
  have hf : u.toNat / 2 ^ p % 2 ^ min w (64 - p) = (u.extractLsb' p (min w (64 - p))).toNat := by
    rw [BitVec.extractLsb'_toNat, Nat.shiftRight_eq_div_pow]
  simp only [bitField, hf]
  generalize u.extractLsb' p (min w (64 - p)) = fld
  generalize min w (64 - p) = n at fld
  split
  · subst n
    rw [Subsingleton.elim fld 0#0]
    cases sg <;> rfl
  · cases sg
    · simp [BitVec.ofNat_toNat]
    · simp [BitVec.signExtend]

/-- R205: the bits of SBFE's result. -/
theorem getLsbD_bitField (u : Word) (p w : Nat) (sg : Bool) {j : Nat} (hj : j < 64) :
    (BitVec.ofNat 64 (bitField 64 u.toNat p w sg)).getLsbD j =
      if j < min w (64 - p) then u.getLsbD (p + j)
      else (sg && decide (0 < min w (64 - p)) && u.getLsbD (p + min w (64 - p) - 1)) := by
  rw [ofNat_bitField]
  generalize min w (64 - p) = n
  have hmsb : (u.extractLsb' p n).msb = (decide (0 < n) && u.getLsbD (p + n - 1)) := by
    rw [BitVec.msb_eq_getLsbD_last, BitVec.getLsbD_extractLsb']
    rcases Nat.eq_zero_or_pos n with rfl | hn
    · rfl
    · rw [← Nat.add_sub_assoc hn, decide_eq_true (Nat.sub_lt hn Nat.one_pos), decide_eq_true hn]
  cases sg
  · simp [hj, BitVec.getLsbD_extractLsb']
  · rw [if_pos rfl, BitVec.getLsbD_signExtend, hmsb, BitVec.getLsbD_extractLsb']
    by_cases hjn : j < n <;> simp [hj, hjn]

/-- R205: the bits of SBFI's result: the field's own in its place, and the destination's outside it. -/
theorem getLsbD_bitInsert (old u : Word) (p w : Nat) {j : Nat} (hj : j < 64) :
    (BitVec.ofNat 64 (bitInsert 64 old.toNat u.toNat p w)).getLsbD j =
      if p ≤ j ∧ j < p + min w (64 - p) then u.getLsbD (j - p) else old.getLsbD j := by
  generalize hn : min w (64 - p) = n
  have hsum : bitInsert 64 old.toNat u.toNat p w =
      2 ^ p * (2 ^ n * (old.toNat / 2 ^ (p + n)) + u.toNat % 2 ^ n) + old.toNat % 2 ^ p := by
    simp only [bitInsert, hn, Nat.pow_add, Nat.mul_add]
    ac_rfl
  rw [hsum, BitVec.getLsbD_ofNat, Nat.testBit_two_pow_mul_add _ (Nat.mod_lt _ (Nat.two_pow_pos p)),
    Nat.testBit_two_pow_mul_add _ (Nat.mod_lt _ (Nat.two_pow_pos n)), Nat.testBit_mod_two_pow, Nat.testBit_mod_two_pow,
    Nat.testBit_div_two_pow]
  by_cases hlow : j < p
  · simp [hj, hlow, BitVec.getLsbD, Nat.not_le.2 hlow]
  · by_cases hin : j < p + n
    · have hoff : j - p < n := by omega
      simp [hj, hlow, hin, hoff, BitVec.getLsbD, Nat.not_lt.1 hlow]
    · have hoff : ¬ j - p < n := by omega
      have hback : j - p - n + (p + n) = j := by omega
      simp [hj, hlow, hin, hoff, hback, BitVec.getLsbD]

/-! ## Issuing scalar words -/

/-- A word of the row of every role whose operands are scalars that are ready passes every check of R187, where its thread is of a
kind and privilege that may issue it. -/
theorem verdict_plain {s : State} {n : Need} {ss ds : List Nat} (h : Ready s .every ss ds []) (hi : n.illegal = false)
    (hd : s.th.kind = .distaff → n.distaff = true) (hs : s.th.kind = .group → n.simt = true)
    (hp : n.priv = true → s.th.priv = true) (hrow : n.role = .every) (hl : n.lanes = false) (ha : n.aborts = false)
    (hr : ∀ r ∈ n.reads, r.vec = false ∧ r.reg ∈ ss) (hsd : ∀ d ∈ n.sdests, d ∈ ds) (hvd : n.vdests = []) :
    verdict s.th n = .go := by
  obtain ⟨-, hrole, hss, hds, -⟩ := h
  refine verdict_go s.th n hi hd hs hp (fun hg => hrow ▸ hrole hg) (by simp [hl]) ?_ ?_ (fun d hm => hds d (hsd d hm))
    (by simp [hvd]) (by simp [ha])
  · intro r hm
    obtain ⟨hvec, hreg⟩ := hr r hm
    simp [Thread.empty, hvec, (hss _ hreg).1]
  · intro r hm
    obtain ⟨hvec, hreg⟩ := hr r hm
    simp only [Thread.poisoned, (hss _ hreg).2, Bool.and_false]

/-- SMOVI gives its immediate (R208). -/
theorem exec_smovi {s : State} {d : BitVec 7} (k : BitVec 19) (h : Ready s .every [] [s.th.abs d] []) :
    exec (.smovi d k) s = .next (gives s d (k.signExtend 64)) := by
  have hv : verdict s.th { distaff := true, sdests := [s.th.abs d] } = .go := by
    apply verdict_plain h <;> simp
  exact congrArg Host.Outcome.next (State.issue_go s _ _ h.1 hv)

/-- Settles O11: the counts and fields by the lemmas on their bits, the immediate forms as words of one source. -/
theorem scalarFieldsAndImmediates : Obligations.ScalarFieldsAndImmediates := by
  refine ⟨?fields, ?immediates⟩
  case fields =>
    intro s d a b x y h u v old p w
    have h1 : Ready s .every [s.th.abs a] [s.th.abs d] [] := Thread.ready_sub h (by simp) (fun _ hr => hr) (fun _ hr => hr)
    have h2 : Ready s .every [s.th.abs a, s.th.abs b] [s.th.abs d] [] :=
      Thread.ready_sub h (by simp) (fun _ hr => hr) (fun _ hr => hr)
    have hsmall {n : Nat} (hn : n ≤ 64) : (BitVec.ofNat 64 n).toNat = n := Nat.mod_eq_of_lt (by omega)
    refine ⟨_, _, _, _, _, State.next_scalar1 h1 rfl, State.next_scalar1 h1 rfl, State.next_scalar1 h1 rfl,
      State.next_scalar2 h2 rfl, State.next_scalar3 h rfl, ?zero, ?one, hsmall (popc_le 64 _),
      fun j hj => getLsbD_bitField u p _ _ hj, fun j hj => getLsbD_bitInsert old u p _ hj⟩
    case zero =>
      intro hu
      change BitVec.ofNat 64 (clz 64 u.toNat) = 64 ∧ BitVec.ofNat 64 (ctz 64 u.toNat) = 64
      rw [hu]
      decide
    case one =>
      intro hu
      obtain ⟨hclz, hdiv⟩ := clz_of_ne_zero (fun hz => hu (BitVec.eq_of_toNat_eq hz)) u.isLt
      obtain ⟨hctz, hmod, hbit⟩ := ctz_of_ne_zero hu
      change (BitVec.ofNat 64 (clz 64 u.toNat)).toNat < 64 ∧ _ / 2 ^ (63 - (BitVec.ofNat 64 (clz 64 u.toNat)).toNat) = 1
        ∧ _ % 2 ^ (BitVec.ofNat 64 (ctz 64 u.toNat)).toNat = 0 ∧ u.getLsbD (BitVec.ofNat 64 (ctz 64 u.toNat)).toNat = true
      rw [hsmall (Nat.le_of_lt hclz), hsmall (Nat.le_of_lt hctz)]
      exact ⟨hclz, hdiv, hmod, hbit⟩
  case immediates =>
    intro s d a i n k h u
    have ha : Ready s .every [s.th.abs a] [s.th.abs d] [] := Thread.ready_sub h (by simp) (fun _ hr => hr) (fun _ hr => hr)
    have hd : Ready s .every [s.th.abs d] [s.th.abs d] [] := Thread.ready_sub h (by simp) (fun _ hr => hr) (fun _ hr => hr)
    have h0 : Ready s .every [] [s.th.abs d] [] := Thread.ready_sub h (by simp) (fun _ hr => hr) (fun _ hr => hr)
    exact ⟨State.next_scalar1 ha rfl, State.next_scalar1 ha rfl, State.next_scalar1 ha rfl, State.next_scalar1 ha rfl,
      State.next_scalar1 ha rfl, State.next_scalar1 ha rfl, State.next_scalar1 ha rfl, exec_smovi k h0,
      State.next_scalar1 hd rfl⟩

end Sys2Proof.Machine
end

section
/-! SUPPORT. Thread control, the predicate stack and the masks (R153, R215 to R221): successive changes of the current thread, and
words that pass every check of R187. -/

namespace Sys2Proof.Machine

open Sys2Proof.Safety

/-! ## Changes of the current thread -/

theorem Tab.put_put {α : Type} (t : Tab α) (k : Nat) (x y : α) : (t.put k x).put k y = t.put k y := by
  induction t with
  | nil => simp [Tab.put]
  | cons p r ih =>
    obtain ⟨j, v⟩ := p
    by_cases hlt : k < j
    · simp [Tab.put, hlt]
    · by_cases heq : k = j
      · simp [Tab.put, heq]
      · simp [Tab.put, hlt, heq, ih]

/-- Two changes of the current thread are one. -/
theorem State.mapTh_mapTh (s : State) (f g : Thread → Thread) : (s.mapTh f).mapTh g = s.mapTh (fun t => g (f t)) := by
  have hth : (s.mapTh f).thread s.work.cur = f (s.thread s.work.cur) := s.th_mapTh f
  change (s.mapTh f).setThreads ((s.work.threads.put s.work.cur _).put s.work.cur (g ((s.mapTh f).thread s.work.cur))) = _
  rw [hth, Tab.put_put]
  rfl

/-- A change of the current thread is told by what it makes of that thread alone. -/
theorem State.mapTh_congr {s : State} {f g : Thread → Thread} (h : f s.th = g s.th) : s.mapTh f = s.mapTh g :=
  congrArg (s.putThread s.work.cur) h

/-- A change that leaves the current thread as it is does not show once the thread moves on. -/
theorem passed_mapTh_id {s : State} {f : Thread → Thread} (h : f s.th = s.th) : passed (s.mapTh f) = passed s := by
  rw [passed, State.advance, State.mapTh_mapTh]
  exact State.mapTh_congr (by rw [h, Thread.endRegion_false])

/-! ## Words that are issued -/

/-- A word of both kinds of thread, without operands, is performed on a ready thread. -/
theorem State.issue_both {s : State} (body : State → Res) (h : Ready s .every [] [] []) :
    s.issue (fun _ => { distaff := true }) body = (body s).finish false :=
  State.issue_go s _ body h.1 (by apply verdict_plain h <;> simp)

/-- A word of SIMT groups, without operands, is performed on a ready group. -/
theorem State.issue_group {s : State} (body : State → Res) (h : GroupReady s .every [] [] []) :
    s.issue (fun _ => {}) body = (body s).finish false :=
  State.issue_go s _ body h.2.1 (by apply verdict_plain h.2 <;> simp [h.1])

/-! ## YIELD, HALTG and REGION (R215, R217, R218) -/

theorem State.offer_distaff {s : State} (h : s.th.kind = .distaff) : s.offer = s := by
  simp [State.offer, h]

theorem State.offer_group {s : State} (h : s.th.kind = .group) :
    s.offer = s.mapCore s.th.ident.core (fun c => { c with active := eraseNat c.active s.th.ident.slot }) := by
  simp [State.offer, h]

/-- A group that offers itself for exchange leaves its core's active set, and no other group does. -/
theorem State.mem_active_offer {s : State} (h : s.th.kind = .group) (r : Nat) :
    r ∈ (s.offer.core s.th.ident.core).active ↔ r ∈ (s.core s.th.ident.core).active ∧ r ≠ s.th.ident.slot := by
  simp [State.offer_group h, eraseNat]

/-- An offer changes no thread and no memory. -/
theorem State.offer_keeps (s : State) :
    s.offer.work.threads = s.work.threads ∧ s.offer.work.cur = s.work.cur ∧ SameMemory s s.offer := by
  cases h : s.th.kind with
  | group => rw [State.offer_group h]; exact ⟨rfl, rfl, rfl, fun _ _ => rfl⟩
  | distaff => rw [State.offer_distaff h]; exact ⟨rfl, rfl, rfl, fun _ _ => rfl⟩

/-- Moving on from a state with the same threads leaves the same threads. -/
theorem passed_threads_congr {s t : State} (h : t.work.threads = s.work.threads) (hc : t.work.cur = s.work.cur) :
    (passed t).work.threads = (passed s).work.threads := by
  have hth : t.thread s.work.cur = s.thread s.work.cur := by rw [State.thread, h]; rfl
  change t.work.threads.put t.work.cur ((t.thread t.work.cur).endRegion false).advance = _
  rw [hc, h, hth]
  rfl

theorem sameMemory_passed (s : State) : SameMemory s (passed s) := ⟨rfl, fun _ _ => rfl⟩

theorem sameMemory_trans {s t u : State} (h1 : SameMemory s t) (h2 : SameMemory t u) : SameMemory s u :=
  ⟨h2.1.trans h1.1, fun a key => (h2.2 a key).trans (h1.2 a key)⟩

/-- R217: HALTG of a thread that has no result outstanding halts it. -/
theorem exec_haltg {s : State} (h : Ready s .every [] [] []) (hp : s.th.kind = .distaff → s.th.priv = true)
    (hn : s.th.producers = []) : exec .haltg s = .next s.halt := by
  have hv : verdict s.th { distaff := true, priv := s.th.kind = .distaff } = .go := by
    apply verdict_plain h (hp := by simpa using hp) <;> simp
  refine congrArg Host.Outcome.next ((State.issue_go s _ _ h.1 hv).trans ?_)
  simp [hn, Res.finish]

theorem State.halt_group {s : State} (hx : Outside s) (hg : s.th.kind = .group) :
    s.halt = s.mapTh (fun t => { t with reuse := none, status := .ended }) := by
  simp only [State.halt, hx, Bool.false_eq_true, if_false]
  exact State.mapTh_congr (by simp only [hg])

theorem State.halt_distaff {s : State} (hx : Outside s) (hd : s.th.kind = .distaff) :
    s.halt = s.mapTh (fun t => { t with reuse := none, status := .stopped }) := by
  simp only [State.halt, hx, Bool.false_eq_true, if_false]
  exact State.mapTh_congr (by simp only [hd])

/-- R218: REGION passes the checks of R187; on a group its number has to be below the length of the region table. -/
theorem verdict_region {s : State} (i : BitVec 19) (h : Ready s .every [] [] [])
    (hi : s.th.kind = .group → i.toNat < s.regionCount s.th) :
    verdict s.th { distaff := true, illegal := s.th.kind = .group && decide (s.regionCount s.th ≤ i.toNat) } = .go := by
  apply verdict_plain h (hi := by simpa using hi) <;> simp

theorem exec_region_group {s : State} (i : BitVec 19) (h : Ready s .every [] [] []) (hx : Outside s)
    (hg : s.th.kind = .group) (hi : i.toNat < s.regionCount s.th) :
    exec (.region i) s = .next (passed (s.mapTh (fun t => { t with
      region := some i.toNat, gap := false, producers := t.producers.map (fun p => { p with inRegion := false }) }))) := by
  refine congrArg Host.Outcome.next ((State.issue_go s _ _ h.1 (verdict_region i h (fun _ => hi))).trans ?_)
  simp only [hx, Bool.false_and, Bool.false_eq_true, if_false, Res.finish]
  exact congrArg passed (State.mapTh_congr (by simp only [hg]))

theorem exec_region_distaff {s : State} (i : BitVec 19) (h : Ready s .every [] [] []) (hx : Outside s)
    (hd : s.th.kind = .distaff) : exec (.region i) s = .next (passed s) := by
  refine congrArg Host.Outcome.next ((State.issue_go s _ _ h.1 (verdict_region i h (by simp [hd]))).trans ?_)
  simp only [hx, Bool.false_and, Bool.false_eq_true, if_false, Res.finish]
  exact passed_mapTh_id (by simp only [hd])

/-- Settles O15: NOP and YIELD are words without operands, and HALTG and REGION act as the lemmas on each kind of thread say. -/
theorem threadControl : Obligations.ThreadControl := by
  intro s i l h
  refine ⟨congrArg Host.Outcome.next (State.issue_both _ h), ?yield, ?haltg, ?regionGroup, ?regionDistaff⟩
  case yield =>
    obtain ⟨hthreads, hcur, hmem⟩ := s.offer_keeps
    refine ⟨passed s.offer, congrArg Host.Outcome.next (State.issue_both _ h), passed_threads_congr hthreads hcur,
      sameMemory_trans hmem (sameMemory_passed s.offer), fun hd => by rw [State.offer_distaff hd], fun hg => ?_⟩
    have hactive (r : Nat) : r ∈ ((passed s.offer).core s.th.ident.core).active ↔
        r ∈ (s.core s.th.ident.core).active ∧ r ≠ s.th.ident.slot := State.mem_active_offer hg r
    simp only [hactive]
    exact ⟨fun hr => hr.2 rfl, fun r hr => and_iff_left hr⟩
  case haltg =>
    refine fun hx hn => ⟨fun hg => ?_, fun hd hp => ?_⟩
    · rw [exec_haltg h (by simp [hg]) hn, State.halt_group hx hg]
    · rw [exec_haltg h (fun _ => hp) hn, State.halt_distaff hx hd]
  case regionGroup =>
    intro hx hg hl hi
    have hcount : s.regionCount s.th = l.regCnt := by simp [State.regionCount, hl]
    exact exec_region_group i h hx hg (hcount ▸ hi)
  case regionDistaff => exact fun hx hd => exec_region_distaff i h hx hd

/-! ## The predicate stack and the masks (R153, R220, R221) -/

/-- PPUSH below the depth limit pushes the intersection with the top. -/
theorem exec_ppush {s : State} (k : BitVec 3) (h : GroupReady s .every [] [] []) (hd : s.th.pstack.length < 16) :
    exec (.ppush k) s = .next (passed (s.mapTh (fun t => { t with pstack := pushEntry t.pstack (t.regs.m k.toNat) }))) := by
  refine congrArg Host.Outcome.next ((State.issue_group _ h).trans ?_)
  simp only [if_neg (Nat.not_le.2 hd)]
  rfl

theorem Thread.belowTx_outside {t : Thread} (h : t.tx.live = false) : t.belowTx = false := by
  simp [Thread.belowTx, h]

/-- PINV on an entry above the base, outside transactions. -/
theorem exec_pinv {s : State} (h : GroupReady s .every [] [] []) (hx : Outside s) (hd : 1 < s.th.pstack.length) :
    exec .pinv s = .next (passed (s.mapTh (fun t => { t with pstack := invertTop t.allLanes t.pstack }))) := by
  refine congrArg Host.Outcome.next ((State.issue_group _ h).trans ?_)
  simp only [Thread.belowTx_outside hx, Bool.false_eq_true, if_false, if_neg (Nat.not_le.2 hd)]
  rfl

/-- PPOP of an entry above the base, outside transactions. -/
theorem exec_ppop {s : State} (h : GroupReady s .every [] [] []) (hx : Outside s) (hd : 1 < s.th.pstack.length) :
    exec .ppop s = .next (passed (s.mapTh (fun t => { t with pstack := t.pstack.drop 1 }))) := by
  refine congrArg Host.Outcome.next ((State.issue_group _ h).trans ?_)
  simp only [Thread.belowTx_outside hx, Bool.false_eq_true, if_false, if_neg (Nat.not_le.2 hd)]
  rfl

theorem exec_psetm {s : State} (k : BitVec 3) (d : BitVec 7) (x : Bool) (h : GroupReady s .every [s.th.abs d] [] []) :
    exec (.psetm k d x) s = .next (passed (s.setM k (s.th.valS d))) := by
  have hv : verdict s.th { reads := [s.th.srcS d x] } = .go := by
    apply verdict_plain h.2 <;> simp [h.1, Thread.srcS]
  exact congrArg Host.Outcome.next (State.issue_go s _ _ h.2.1 hv)

theorem exec_pgetm {s : State} (d : BitVec 7) (k : BitVec 3) (h : GroupReady s .every [] [s.th.abs d] []) :
    exec (.pgetm d k) s = .next (gives s d (s.th.regs.m k.toNat)) := by
  have hv : verdict s.th { sdests := [s.th.abs d] } = .go := by
    apply verdict_plain h.2 <;> simp [h.1]
  exact congrArg Host.Outcome.next (State.issue_go s _ _ h.2.1 hv)

theorem exec_mlog {s : State} (o i k j : BitVec 3) (h : GroupReady s .every [] [] []) :
    exec (.mlog o i k j) s = .next (passed (s.setM i (maskOp o.toNat (s.th.regs.m k.toNat) (s.th.regs.m j.toNat)))) :=
  congrArg Host.Outcome.next (State.issue_group _ h)

/-- Settles O16: each word is performed by its lemma, and on the stack given its change is the one stated. -/
theorem predicationAndMasks : Obligations.PredicationAndMasks := by
  refine ⟨?stack, ?masks⟩
  case stack =>
    intro s k m c bm bc r h hx
    refine ⟨fun hs hr => ?_, fun hs => ?_⟩
    · rw [exec_ppush k h (by rw [hs]; exact Nat.succ_lt_succ hr)]
      exact congrArg (fun t => Host.Outcome.next (passed t)) (State.mapTh_congr (by simp only [hs, pushEntry]))
    · have hd : 1 < s.th.pstack.length := by simp [hs]
      rw [exec_pinv h hx hd, exec_ppop h hx hd]
      exact ⟨congrArg (fun t => Host.Outcome.next (passed t))
          (State.mapTh_congr (by simp only [hs, invertTop, Thread.allLanes])),
        congrArg (fun t => Host.Outcome.next (passed t))
          (State.mapTh_congr (by simp only [hs, List.drop_succ_cons, List.drop_zero]))⟩
  case masks =>
    intro s k j d x h w u v puts
    have hr (ss' ds' : List Nat) (h1 : ∀ r ∈ ss', r ∈ [s.th.abs d]) (h2 : ∀ r ∈ ds', r ∈ [s.th.abs d]) :
        GroupReady s .every ss' ds' [] := ⟨h.1, Thread.ready_sub h.2 h1 h2 (fun _ hr => hr)⟩
    have hm (o i : BitVec 3) : exec (.mlog o i k j) s = .next (puts i (maskOp o.toNat u v)) :=
      exec_mlog o i k j (hr [] [] (by simp) (by simp))
    exact ⟨exec_psetm k d x (hr _ [] (fun _ hr => hr) (by simp)), exec_pgetm d k (hr [] _ (by simp) (fun _ hr => hr)),
      fun i => ⟨hm 0 i, hm 1 i, hm 2 i, hm 3 i, hm 4 i, hm 5 i⟩⟩

end Sys2Proof.Machine
end

section
/-! SUPPORT. The values that the vector integer words compute on one element, told on words of any width (R224 to R227, R230), and the
packed elements of a lane word. -/

namespace Sys2Proof.Machine

open Sys2Proof.Safety

/-! ## One element -/

/-- A number that a word holds makes that word. -/
theorem ofNat_of_toNat {n k : Nat} {w : BitVec n} (h : w.toNat = k) : BitVec.ofNat n k = w := by
  rw [← h, BitVec.ofNat_toNat, BitVec.setWidth_eq]

theorem ofNat_add_toNat {n : Nat} (u v : BitVec n) : BitVec.ofNat n (u.toNat + v.toNat) = u + v := by
  rw [BitVec.ofNat_add, ofNat_of_toNat rfl, ofNat_of_toNat rfl]

theorem ofNat_sub_toNat {n : Nat} (u v : BitVec n) : BitVec.ofNat n (u.toNat + 2 ^ n - v.toNat) = u - v := by
  rw [BitVec.sub_def, Nat.add_sub_assoc (Nat.le_of_lt v.isLt), Nat.add_comm]

theorem ofNat_mul_toNat {n : Nat} (u v : BitVec n) : BitVec.ofNat n (u.toNat * v.toNat) = u * v := by
  rw [BitVec.ofNat_mul, ofNat_of_toNat rfl, ofNat_of_toNat rfl]

theorem ofNat_shiftLeft {n : Nat} (u : BitVec n) (c : Nat) : BitVec.ofNat n (u.toNat * 2 ^ c) = u <<< c := by
  apply BitVec.eq_of_toNat_eq
  rw [BitVec.toNat_ofNat, BitVec.toNat_shiftLeft, Nat.shiftLeft_eq]

theorem ofNat_shiftRight {n : Nat} (u : BitVec n) (c : Nat) : BitVec.ofNat n (u.toNat / 2 ^ c) = u >>> c :=
  ofNat_of_toNat (by rw [BitVec.toNat_ushiftRight, Nat.shiftRight_eq_div_pow])

theorem ofNat_sraBits {n : Nat} (u : BitVec n) (c : Nat) : BitVec.ofNat n (sraBits n u.toNat c) = u.sshiftRight c := by
  rw [sraBits, ofNat_wrapInt, signedOf_toNat, BitVec.sshiftRight_eq, Int.shiftRight_eq_div_pow]

/-- The high half of a product of lanes is the upper half of the 64-bit word that holds it. -/
theorem ofInt_mulHigh (k : Int) : BitVec.ofInt 32 (k / (2 ^ 32 : Nat)) = (BitVec.ofInt 64 k).extractLsb' 32 32 := by
  apply BitVec.eq_of_toNat_eq
  rw [BitVec.extractLsb'_toNat, BitVec.toNat_ofInt, BitVec.toNat_ofInt, Nat.shiftRight_eq_div_pow]
  omega

theorem ofNat_mulHigh_signed (u v : Lane) :
    BitVec.ofNat 32 (wrapInt 32 (signedOf 32 u.toNat * signedOf 32 v.toNat / (2 ^ 32 : Nat))) =
      (u.signExtend 64 * v.signExtend 64).extractLsb' 32 32 := by
  rw [ofNat_wrapInt, signedOf_toNat, signedOf_toNat, ofInt_mulHigh, BitVec.ofInt_mul]
  rfl

theorem ofNat_mulHigh_unsigned (u v : Lane) :
    BitVec.ofNat 32 (u.toNat * v.toNat / 2 ^ 32) = (u.setWidth 64 * v.setWidth 64).extractLsb' 32 32 := by
  rw [← BitVec.ofInt_natCast, Int.natCast_ediv, ofInt_mulHigh, Int.natCast_mul, BitVec.ofInt_mul, BitVec.ofInt_natCast,
    BitVec.ofInt_natCast, BitVec.ofNat_toNat, BitVec.ofNat_toNat]

/-! ## Order and saturation (R166, R225) -/

theorem ofNat_min_signed {n : Nat} (u v : BitVec n) :
    BitVec.ofNat n (if signedOf n v.toNat < signedOf n u.toNat then v.toNat else u.toNat) = if u.slt v then u else v := by
  rw [signedOf_toNat, signedOf_toNat, BitVec.slt_eq_decide, ← apply_ite BitVec.toNat, ofNat_of_toNat rfl]
  rcases Int.lt_trichotomy u.toInt v.toInt with hlt | heq | hgt
  · rw [if_neg (Int.not_lt.2 (Int.le_of_lt hlt)), decide_eq_true hlt, if_pos rfl]
  · rw [BitVec.eq_of_toInt_eq heq, ite_self, ite_self]
  · rw [if_pos hgt, decide_eq_false (Int.not_lt.2 (Int.le_of_lt hgt)), if_neg Bool.false_ne_true]

theorem ofNat_max_signed {n : Nat} (u v : BitVec n) :
    BitVec.ofNat n (if signedOf n u.toNat < signedOf n v.toNat then v.toNat else u.toNat) = if u.slt v then v else u := by
  rw [signedOf_toNat, signedOf_toNat, BitVec.slt_eq_decide, ← apply_ite BitVec.toNat, ofNat_of_toNat rfl]
  simp only [decide_eq_true_eq]

theorem ofNat_min_unsigned {n : Nat} (u v : BitVec n) :
    BitVec.ofNat n (min u.toNat v.toNat) = if u.ult v then u else v := by
  by_cases h : u.toNat < v.toNat
  · rw [Nat.min_eq_left (Nat.le_of_lt h), BitVec.ult, decide_eq_true h, if_pos rfl, ofNat_of_toNat rfl]
  · rw [Nat.min_eq_right (Nat.not_lt.1 h), BitVec.ult, decide_eq_false h, if_neg Bool.false_ne_true, ofNat_of_toNat rfl]

theorem ofNat_max_unsigned {n : Nat} (u v : BitVec n) :
    BitVec.ofNat n (max u.toNat v.toNat) = if u.ult v then v else u := by
  by_cases h : u.toNat < v.toNat
  · rw [Nat.max_eq_right (Nat.le_of_lt h), BitVec.ult, decide_eq_true h, if_pos rfl, ofNat_of_toNat rfl]
  · rw [Nat.max_eq_left (Nat.not_lt.1 h), BitVec.ult, decide_eq_false h, if_neg Bool.false_ne_true, ofNat_of_toNat rfl]

theorem clampInt_eq {lo hi : Int} (h : lo ≤ hi) (x : Int) : clampInt lo hi x = max lo (min hi x) := by
  rw [clampInt]
  by_cases hlo : x < lo
  · rw [if_pos hlo]
    omega
  · rw [if_neg hlo]
    by_cases hhi : hi < x
    · rw [if_pos hhi]
      omega
    · rw [if_neg hhi]
      omega

/-- Signed saturation is the clamp to the signed range. -/
theorem ofNat_satS (n : Nat) (x : Int) : BitVec.ofNat n (satS n x) = clampSigned n x := by
  have h : (0 : Int) < 2 ^ (n - 1) := Int.pow_pos (by decide)
  rw [satS, ofNat_wrapInt, clampSigned, clampInt_eq (by push_cast; omega)]
  push_cast
  rfl

theorem ofNat_satS_add {n : Nat} (u v : BitVec n) :
    BitVec.ofNat n (satS n (signedOf n u.toNat + signedOf n v.toNat)) = clampSigned n (u.toInt + v.toInt) := by
  rw [ofNat_satS, signedOf_toNat, signedOf_toNat]

theorem ofNat_satS_sub {n : Nat} (u v : BitVec n) :
    BitVec.ofNat n (satS n (signedOf n u.toNat - signedOf n v.toNat)) = clampSigned n (u.toInt - v.toInt) := by
  rw [ofNat_satS, signedOf_toNat, signedOf_toNat]

/-- Unsigned saturation of a natural number is its minimum with the largest word. -/
theorem ofNat_satU (n k : Nat) : BitVec.ofNat n (satU n (k : Int)) = BitVec.ofNat n (min (2 ^ n - 1) k) := by
  have h := Nat.two_pow_pos n
  rw [satU, ofNat_wrapInt, clampInt_eq (by omega), ← BitVec.ofInt_natCast]
  congr 1
  omega

theorem ofNat_truncated_sub {n : Nat} (u v : BitVec n) :
    BitVec.ofNat n (u.toNat - v.toNat) = if u.ult v then 0 else u - v := by
  by_cases h : u.toNat < v.toNat
  · rw [Nat.sub_eq_zero_of_le (Nat.le_of_lt h), BitVec.ult, decide_eq_true h, if_pos rfl]
    rfl
  · rw [BitVec.ult, decide_eq_false h, if_neg Bool.false_ne_true]
    exact ofNat_of_toNat (BitVec.toNat_sub_of_le (Nat.not_lt.1 h))

/-! ## One source (R230) -/

theorem ofNat_clz {n : Nat} (hn : 0 < n) (u : BitVec n) : BitVec.ofNat n (clz n u.toNat) = u.clz := by
  by_cases hu : u = 0#n
  · rw [BitVec.clz_eq_iff_eq_zero.2 hu, hu]
    rfl
  · have hlt : u.clz.toNat < n := by
      simpa [BitVec.lt_def, Nat.mod_eq_of_lt Nat.lt_two_pow_self] using BitVec.clz_lt_iff_ne_zero.2 hu
    have hne : u.toNat ≠ 0 := fun h => hu (BitVec.eq_of_toNat_eq h)
    have hlog : u.toNat.log2 = n - 1 - u.clz.toNat := by
      refine (Nat.log2_eq_iff hne).2 ⟨BitVec.two_pow_sub_clz_le_toNat_of_ne_zero hn hu, ?_⟩
      rw [show n - 1 - u.clz.toNat + 1 = n - u.clz.toNat by omega]
      exact BitVec.toNat_lt_two_pow_sub_clz
    rw [clz, if_neg hne, hlog, Nat.sub_sub_self (Nat.le_sub_one_of_lt hlt), BitVec.ofNat_toNat, BitVec.setWidth_eq]

/-- The library's count of 1 bits, from the top down, counts those of the places passed. -/
theorem cpopNatRec_filter {n : Nat} (u : BitVec n) (k : Nat) :
    u.cpopNatRec k 0 = ((List.range k).filter u.getLsbD).length := by
  induction k with
  | zero => exact BitVec.cpopNatRec_zero_self
  | succ k ih =>
    rw [BitVec.cpopNatRec_succ, BitVec.cpopNatRec_eq, ih, List.range_succ, List.filter_append, List.length_append]
    cases h : u.getLsbD k <;> simp [h]

theorem ofNat_popc {n : Nat} (u : BitVec n) : BitVec.ofNat n (popc n u.toNat) = u.cpop := by
  rw [BitVec.cpop, cpopNatRec_filter]
  rfl

/-- The magnitude of the least value is that value. -/
theorem ofNat_natAbs {n : Nat} (u : BitVec n) : BitVec.ofNat n (signedOf n u.toNat).natAbs = u.abs := by
  rw [signedOf_toNat, BitVec.abs_eq, BitVec.msb_eq_toInt, ← BitVec.ofInt_natCast]
  by_cases h : u.toInt < 0
  · rw [Int.ofNat_natAbs_of_nonpos (Int.le_of_lt h), BitVec.ofInt_neg, BitVec.ofInt_toInt, decide_eq_true h, if_pos rfl]
  · rw [Int.natAbs_of_nonneg (Int.not_lt.1 h), BitVec.ofInt_toInt, decide_eq_false h, if_neg Bool.false_ne_true]

theorem ofNat_neg {n : Nat} (u : BitVec n) : BitVec.ofNat n (wrapInt n (-(signedOf n u.toNat))) = -u := by
  rw [ofNat_wrapInt, signedOf_toNat, BitVec.ofInt_neg, BitVec.ofInt_toInt]

/-! ## Packed elements (R224) -/

theorem toNat_append_add {m n : Nat} (x : BitVec m) (y : BitVec n) : (x ++ y).toNat = x.toNat * 2 ^ n + y.toNat := by
  rw [BitVec.toNat_append, ← Nat.shiftLeft_eq, Nat.shiftLeft_add_eq_or_of_lt y.isLt]

theorem append_halves (x y : BitVec 16) : (x ++ y : Lane) = BitVec.ofNat 32 (y.toNat + x.toNat * 2 ^ 16) := by
  apply BitVec.eq_of_toNat_eq
  rw [toNat_append_add, BitVec.toNat_ofNat, Nat.mod_eq_of_lt (by omega), Nat.add_comm]

theorem append_quarters (x y z w : BitVec 8) : (x ++ (y ++ (z ++ w)) : Lane) =
    BitVec.ofNat 32 (w.toNat + z.toNat * 2 ^ 8 + y.toNat * 2 ^ 16 + x.toNat * 2 ^ 24) := by
  apply BitVec.eq_of_toNat_eq
  rw [toNat_append_add, toNat_append_add, toNat_append_add, BitVec.toNat_ofNat]
  omega

theorem packed2_eq_sum (n : Nat) (f : Nat → Nat → Nat) (u v : Lane) :
    packed2 n f u v = BitVec.ofNat 32 (((upto (32 / n)).map (fun j =>
      (BitVec.ofNat n (f (u.extractLsb' (n * j) n).toNat (v.extractLsb' (n * j) n).toNat)).toNat * 2 ^ (n * j))).sum) := by
  simp only [packed2, BitVec.extractLsb'_toNat, Nat.shiftRight_eq_div_pow, BitVec.toNat_ofNat, List.sum_eq_foldl, List.foldl_map]

theorem sum_map_four (g : Nat → Nat) : ([0, 1, 2, 3].map g).sum = g 0 + g 1 + g 2 + g 3 := by
  simp only [List.map_cons, List.map_nil, List.sum_cons, List.sum_nil, Nat.add_zero, Nat.add_assoc]

theorem packed2_halves (f : Nat → Nat → Nat) (u v : Lane) :
    packed2 16 f u v = halves (fun a b => BitVec.ofNat 16 (f a.toNat b.toNat)) u v := by
  rw [packed2_eq_sum, halves, append_halves, show upto (32 / 16) = [0, 1] from rfl]
  simp

theorem packed2_quarters (f : Nat → Nat → Nat) (u v : Lane) :
    packed2 8 f u v = quarters (fun a b => BitVec.ofNat 8 (f a.toNat b.toNat)) u v := by
  rw [packed2_eq_sum, quarters, append_quarters, show upto (32 / 8) = [0, 1, 2, 3] from rfl, sum_map_four]
  simp only [Nat.reduceMul, Nat.pow_zero, Nat.mul_one]

theorem packed2_lane (f : Nat → Nat → Nat) (u v : Lane) : packed2 32 f u v = BitVec.ofNat 32 (f u.toNat v.toNat) := by
  rw [packed2_eq_sum, show upto (32 / 32) = [0] from rfl]
  simp only [List.map_singleton, List.sum_singleton, Nat.mul_zero, Nat.pow_zero, Nat.mul_one, BitVec.extractLsb'_eq_self,
    BitVec.ofNat_toNat, BitVec.setWidth_eq]

theorem packed3_lane (f : Nat → Nat → Nat → Nat) (u v w : Lane) :
    packed3 32 f u v w = BitVec.ofNat 32 (f u.toNat v.toNat w.toNat) := by
  have hmod (x : Lane) : x.toNat % 2 ^ 32 = x.toNat := Nat.mod_eq_of_lt x.isLt
  apply BitVec.eq_of_toNat_eq
  rw [packed3, show upto (32 / 32) = [0] from rfl]
  simp only [List.foldl_cons, List.foldl_nil, Nat.mul_zero, Nat.pow_zero, Nat.mul_one, Nat.div_one, Nat.zero_add, hmod,
    BitVec.toNat_ofNat, Nat.mod_mod]

end Sys2Proof.Machine
end

section
/-! SUPPORT. Lane-by-lane words that pass every check of R187 (R149, R223), and the vector integer words that they perform. -/

namespace Sys2Proof.Machine

open Sys2Proof.Safety

/-! ## Issuing vector words -/

/-- A word of the vector row whose operands are ready passes every check of R187. -/
theorem verdict_vector {s : State} {n : Need} {ss ds vs : List Nat} (h : GroupReady s .vector ss ds vs) (hi : n.illegal = false)
    (hl : n.lanes = true → s.th.active ≠ 0) (hr : ∀ r ∈ n.reads, r.reg ∈ if r.vec then vs else ss)
    (hsd : ∀ d ∈ n.sdests, d ∈ ds) (hvd : ∀ d ∈ n.vdests, d ∈ vs) (hrow : n.role = .vector)
    (hs : n.simt = true) (hp : n.priv = false) (ha : n.aborts = false) : verdict s.th n = .go := by
  obtain ⟨hg, -, hrole, hss, hds, hvs⟩ := h
  refine verdict_go s.th n hi (by simp [hg]) (fun _ => hs) (by simp [hp]) (fun hk => hrow ▸ hrole hk) hl ?empty ?poisoned
    (fun d hm => hds d (hsd d hm)) (fun d hm => hvs d (hvd d hm)) (by simp [ha])
  case empty =>
    intro r hm
    have hreg := hr r hm
    cases hv : r.vec <;> rw [hv] at hreg
    · simp [Thread.empty, hv, (hss _ hreg).1]
    · simp [Thread.empty, hv, hvs _ hreg]
  case poisoned =>
    intro r hm
    have hreg := hr r hm
    cases hv : r.vec <;> rw [hv] at hreg
    · simp only [Thread.poisoned, (hss _ hreg).2, Bool.and_false]
    · simp [Thread.poisoned, hv]

section
variable {s : State} {ill : Thread → Bool} {reads : Thread → List Src} {ws ss rs vd : List Nat}

/-- A lane-by-lane word that is ready, with an active lane, is performed. -/
theorem State.issue_lanes (body : State → Res) (h : GroupReady s .vector ss [] (rs ++ ws)) (ha : s.th.active ≠ 0)
    (hi : ill s.th = false) (hr : ∀ r ∈ reads s.th, r.reg ∈ if r.vec then rs else ss) (hvd : ∀ d ∈ vd, d ∈ ws) :
    s.issue (fun t => { role := .vector, lanes := true, illegal := ill t, reads := reads t, vdests := vd }) body =
      (body s).finish false := by
  refine State.issue_go s _ body h.2.1 (verdict_vector h hi (fun _ => ha) (fun r hm => ?_) (by simp)
    (fun d hd => List.mem_append_right _ (hvd d hd)) rfl rfl rfl rfl)
  have hreg := hr r hm
  cases hv : r.vec <;> rw [hv] at hreg
  · exact hreg
  · exact List.mem_append_left _ hreg

/-- One whose active lanes read no poison changes the registers on every active lane. -/
theorem State.issue_laneWord {srcs : List Src} {F : State → Regs → List Nat → Regs}
    (h : GroupReady s .vector ss [] (rs ++ ws))
    (hc : CleanLanes s rs) (ha : s.th.active ≠ 0) (hi : ill s.th = false)
    (hr : ∀ r ∈ reads s.th, r.reg ∈ if r.vec then rs else ss) (hsub : ∀ r ∈ srcs, r ∈ reads s.th) (hvd : ∀ d ∈ vd, d ∈ ws) :
    s.issue (fun t => { role := .vector, lanes := true, illegal := ill t, reads := reads t, vdests := vd })
      (fun s => s.laneWord srcs (F s)) = passed (s.mapTh (fun t => t.mapRegs (fun r => F s r s.th.lanes))) := by
  have hsrc : ∀ r ∈ srcs, r.vec = true → r.reg ∈ rs := fun r hm hv => by simpa [hv] using hr r (hsub r hm)
  rw [State.issue_lanes _ h ha hi hr hvd, State.laneWord_clean s srcs (F s) rs hsrc hc]
  rfl

end

/-- The sources of a register group are its vector registers. -/
theorem reg_mem_of_mem_groupV {r : BitVec 7} {n : Nat} {x : Bool} {ss : List Nat} {q : Src} (h : q ∈ groupV r n x) :
    q.reg ∈ if q.vec then destsV r n else ss := by
  obtain ⟨i, hi, rfl⟩ := List.mem_map.1 h
  exact List.mem_map.2 ⟨i, hi, rfl⟩

/-- The sources of two register groups are the vector registers of both. -/
theorem reg_mem_of_mem_groupV_append {a b : BitVec 7} {n m : Nat} {x y : Bool} {ss : List Nat} {q : Src}
    (h : q ∈ groupV a n x ++ groupV b m y) : q.reg ∈ if q.vec then destsV a n ++ destsV b m else ss := by
  rcases List.mem_append.1 h with h | h
  · have hm := reg_mem_of_mem_groupV (ss := ss) h
    cases hv : q.vec <;> rw [hv] at hm
    · exact hm
    · exact List.mem_append_left _ hm
  · have hm := reg_mem_of_mem_groupV (ss := ss) h
    cases hv : q.vec <;> rw [hv] at hm
    · exact hm
    · exact List.mem_append_right _ hm

theorem State.badE_of_legal64 {s : State} {rs : List (BitVec 7)} (hl : Legal64 s rs) {r : BitVec 7} (hr : r ∈ rs) :
    s.th.badE 64 r = false := s.legal64_bad r (hl r hr)

theorem State.badE_of_legal32 {s : State} {rs : List (BitVec 7)} (hl : Legal32 s rs) {r : BitVec 7} (hr : r ∈ rs) :
    s.th.badE 32 r = false := s.legal32_bad r (hl r hr)

/-! ## Words on register pairs -/

theorem Regs.mapE_64 (r : Regs) (d : Nat) (ls : List Nat) (f : Nat → Nat) :
    r.mapE 64 d ls f = r.mapV64 d ls (fun l => BitVec.ofNat 64 (f l)) := if_pos rfl

theorem Regs.elem_64 (r : Regs) (k l : Nat) : r.elem 64 k l = (r.v64 k l).toNat := if_pos rfl

theorem onElems1_64 (f : Nat → Nat) (a : Nat) : onElems1 64 f a = f a := if_pos rfl

theorem onElems2_64 (f : Nat → Nat → Nat) (a b : Nat) : onElems2 64 f a b = f a b := if_pos rfl

/-- A word that changes every active lane of a register pair gives those lanes what it computes from the registers as they were. -/
theorem passed_mapV64 {s : State} {d : BitVec 7} {g : Regs → Nat → Word} {f : Nat → Word} (h : g s.th.regs = f) :
    passed (s.mapTh (fun t => t.mapRegs (fun r => r.mapV64 d.toNat s.th.lanes (g r)))) = givesPairs s d f := by
  rw [← h, givesPairs]
  exact congrArg passed (State.mapTh_congr rfl)

/-- A two-source word on register pairs. -/
theorem State.vec2_eq64 (s : State) (d a b : BitVec 7) (x y : Bool) (f : Mode → Nat → Nat → Nat)
    (hl : Legal64 s [d, a, b]) (h : LaneReady s (both a ++ both b) (both d)) :
    s.vec2 64 d a b x y f = givesPairs s d (fun l => BitVec.ofNat 64 (f s.th.mode (pair s a l).toNat (pair s b l).toNat)) := by
  obtain ⟨hg, hc, ha⟩ := h
  simp only [State.vec2]
  refine (State.issue_laneWord hg hc ha ?_ (fun _ hr => reg_mem_of_mem_groupV_append hr) (fun _ hr => hr)
    (fun _ hd => hd)).trans ?_
  · simp [State.badE_of_legal64 hl]
  · simp only [Regs.mapE_64, Regs.elem_64, onElems2_64, pair]
    exact passed_mapV64 rfl

/-- A one-source word on register pairs. -/
theorem State.vec1_eq64 (s : State) (d a : BitVec 7) (x : Bool) (f : Mode → Nat → Nat)
    (hl : Legal64 s [d, a]) (h : LaneReady s (both a) (both d)) :
    s.vec1 64 d a x f = givesPairs s d (fun l => BitVec.ofNat 64 (f s.th.mode (pair s a l).toNat)) := by
  obtain ⟨hg, hc, ha⟩ := h
  simp only [State.vec1]
  refine (State.issue_laneWord hg hc ha ?_ (fun _ hr => reg_mem_of_mem_groupV hr) (fun _ hr => hr) (fun _ hd => hd)).trans ?_
  · simp [State.badE_of_legal64 hl]
  · simp only [Regs.mapE_64, Regs.elem_64, onElems1_64, pair]
    exact passed_mapV64 rfl

/-- R225: a shift of a register pair by the word of a third register. -/
theorem State.shift64_eq (s : State) (d a b : BitVec 7) (x y : Bool) (f : Nat → Nat → Nat)
    (hl : Legal64 s [d, a]) (hb : Legal32 s [b]) (h : LaneReady s (both a ++ [b.toNat]) (both d)) :
    s.shift64 d a b x y f = givesPairs s d (fun l => BitVec.ofNat 64 (f (pair s a l).toNat ((lane s b l).toNat % 64))) := by
  obtain ⟨hg, hc, ha⟩ := h
  simp only [State.shift64]
  refine (State.issue_laneWord hg hc ha ?_ (fun _ hr => reg_mem_of_mem_groupV_append hr) (fun _ hr => hr)
    (fun _ hd => hd)).trans ?_
  · simp [State.badE_of_legal64 hl, State.badE_of_legal32 hb]
  · simp only [Regs.mapE_64, Regs.elem_64, pair, lane]
    exact passed_mapV64 rfl

/-! ## Values of packed and whole lanes -/

/-- A packed word of one source is one of two that passes over the second. -/
theorem packed1_eq_packed2 (n : Nat) (f : Nat → Nat) (u v : Lane) : packed1 n f u = packed2 n (fun a _ => f a) u v := rfl

theorem ofNat_onElems1 {w : Nat} (hw : w ≠ 64) (f : Nat → Nat) (u : Lane) :
    BitVec.ofNat 32 (onElems1 w f u.toNat) = packed1 w f u := by
  rw [onElems1, if_neg hw, ofNat_of_toNat rfl, ofNat_of_toNat rfl]

theorem ofNat_onElems2 {w : Nat} (hw : w ≠ 64) (f : Nat → Nat → Nat) (u v : Lane) :
    BitVec.ofNat 32 (onElems2 w f u.toNat v.toNat) = packed2 w f u v := by
  rw [onElems2, if_neg hw, ofNat_of_toNat rfl, ofNat_of_toNat rfl, ofNat_of_toNat rfl]

theorem ofNat_onElems3 {w : Nat} (hw : w ≠ 64) (f : Nat → Nat → Nat → Nat) (u v t : Lane) :
    BitVec.ofNat 32 (onElems3 w f u.toNat v.toNat t.toNat) = packed3 w f u v t := by
  rw [onElems3, if_neg hw, ofNat_of_toNat rfl, ofNat_of_toNat rfl, ofNat_of_toNat rfl, ofNat_of_toNat rfl]

section
variable {s : State} {d a b : BitVec 7} {x y : Bool}

/-- A ready two-source word gives every active lane what its packed function makes of the lanes of its sources. -/
theorem State.next_vec2 {w : Nat} (hw : w ≠ 64) {f : Mode → Nat → Nat → Nat} {g : Lane → Lane → Lane} (hl : Legal32 s [d, a, b])
    (h : LaneReady s [a.toNat, b.toNat] [d.toNat]) (hg : ∀ u v, packed2 w (f s.th.mode) u v = g u v) :
    (Host.Outcome.next (s.vec2 w d a b x y f) : Out) = .next (givesLanes s d (fun l => g (lane s a l) (lane s b l))) := by
  rw [State.vec2_eq32 s w hw d a b x y f hl h]
  simp only [ofNat_onElems2 hw, hg]

theorem State.next_vec2_lane {f : Mode → Nat → Nat → Nat} {g : Lane → Lane → Lane} (hl : Legal32 s [d, a, b])
    (h : LaneReady s [a.toNat, b.toNat] [d.toNat]) (hg : ∀ u v : Lane, BitVec.ofNat 32 (f s.th.mode u.toNat v.toNat) = g u v) :
    (Host.Outcome.next (s.vec2 32 d a b x y f) : Out) = .next (givesLanes s d (fun l => g (lane s a l) (lane s b l))) :=
  State.next_vec2 (by decide) hl h fun u v => (packed2_lane _ u v).trans (hg u v)

theorem State.next_vec2_halves {f : Mode → Nat → Nat → Nat} {g : BitVec 16 → BitVec 16 → BitVec 16} (hl : Legal32 s [d, a, b])
    (h : LaneReady s [a.toNat, b.toNat] [d.toNat])
    (hg : ∀ u v : BitVec 16, BitVec.ofNat 16 (f s.th.mode u.toNat v.toNat) = g u v) :
    (Host.Outcome.next (s.vec2 16 d a b x y f) : Out) = .next (givesLanes s d (fun l => halves g (lane s a l) (lane s b l))) :=
  State.next_vec2 (g := halves g) (by decide) hl h fun u v => by
    rw [packed2_halves]
    simp only [hg]

theorem State.next_vec2_quarters {f : Mode → Nat → Nat → Nat} {g : BitVec 8 → BitVec 8 → BitVec 8} (hl : Legal32 s [d, a, b])
    (h : LaneReady s [a.toNat, b.toNat] [d.toNat])
    (hg : ∀ u v : BitVec 8, BitVec.ofNat 8 (f s.th.mode u.toNat v.toNat) = g u v) :
    (Host.Outcome.next (s.vec2 8 d a b x y f) : Out) = .next (givesLanes s d (fun l => quarters g (lane s a l) (lane s b l))) :=
  State.next_vec2 (g := quarters g) (by decide) hl h fun u v => by
    rw [packed2_quarters]
    simp only [hg]

/-- The same on register pairs. -/
theorem State.next_vec2_pair {f : Mode → Nat → Nat → Nat} {g : Word → Word → Word} (hl : Legal64 s [d, a, b])
    (h : LaneReady s (both a ++ both b) (both d)) (hg : ∀ u v : Word, BitVec.ofNat 64 (f s.th.mode u.toNat v.toNat) = g u v) :
    (Host.Outcome.next (s.vec2 64 d a b x y f) : Out) = .next (givesPairs s d (fun l => g (pair s a l) (pair s b l))) := by
  rw [State.vec2_eq64 s d a b x y f hl h]
  simp only [hg]

/-- A ready shift of a register pair. -/
theorem State.next_shift64 {f : Nat → Nat → Nat} {g : Word → Nat → Word} (hl : Legal64 s [d, a]) (hb : Legal32 s [b])
    (h : LaneReady s (both a ++ [b.toNat]) (both d)) (hg : ∀ (u : Word) (c : Nat), BitVec.ofNat 64 (f u.toNat c) = g u c) :
    (Host.Outcome.next (s.shift64 d a b x y f) : Out) =
      .next (givesPairs s d (fun l => g (pair s a l) ((lane s b l).toNat % 64))) := by
  rw [State.shift64_eq s d a b x y f hl hb h]
  simp only [hg]

theorem widthOf_zero : widthOf 0 = 8 := rfl
theorem widthOf_one : widthOf 1 = 16 := rfl

/-- A ready one-source word gives every active lane what its packed function makes of the lane of its source. -/
theorem State.next_vec1 {w : Nat} (hw : w ≠ 64) {f : Nat → Nat} {g : Lane → Lane} (hl : Legal32 s [d, a])
    (h : LaneReady s [a.toNat] [d.toNat]) (hg : ∀ u, packed1 w f u = g u) :
    (Host.Outcome.next (s.vec1 w d a x (fun _ => f)) : Out) = .next (givesLanes s d (fun l => g (lane s a l))) := by
  rw [State.vec1_eq32 s w hw d a x _ hl h]
  simp only [ofNat_onElems1 hw, hg]

/-- A ready one-source word on register pairs. -/
theorem State.next_vec1_pair {f : Nat → Nat} {g : Word → Word} (hl : Legal64 s [d, a]) (h : LaneReady s (both a) (both d))
    (hg : ∀ u : Word, BitVec.ofNat 64 (f u.toNat) = g u) :
    (Host.Outcome.next (s.vec1 64 d a x (fun _ => f)) : Out) = .next (givesPairs s d (fun l => g (pair s a l))) := by
  rw [State.vec1_eq64 s d a x _ hl h]
  simp only [hg]

/-- R230: a word whose width code chooses elements of 8, 16 or 32 bits, and whose function is one of words of any width. -/
theorem exec_elems {i : BitVec 2 → Instr} {f : Nat → Nat → Nat} {g : (n : Nat) → BitVec n → BitVec n} (hl : Legal32 s [d, a])
    (h : LaneReady s [a.toNat] [d.toNat]) (hi : ∀ w, exec (i w) s = .next (s.vec1 (widthOf w) d a x (fun _ => f (widthOf w))))
    (hg : ∀ (n : Nat) (u : BitVec n), 0 < n → BitVec.ofNat n (f n u.toNat) = g n u) :
    exec (i 0) s = .next (givesLanes s d (fun l => quarters (fun u _ => g 8 u) (lane s a l) 0))
      ∧ exec (i 1) s = .next (givesLanes s d (fun l => halves (fun u _ => g 16 u) (lane s a l) 0))
      ∧ exec (i 2) s = .next (givesLanes s d (fun l => g 32 (lane s a l))) := by
  refine ⟨?bytes, ?halves, ?lanes⟩
  case bytes =>
    refine (hi 0).trans (State.next_vec1 (w := 8) (g := fun u => quarters (fun u _ => g 8 u) u 0) (by decide) hl h fun u => ?_)
    rw [packed1_eq_packed2 8 _ u 0, packed2_quarters]
    simp only [widthOf_zero, hg 8 _ (by decide)]
  case halves =>
    refine (hi 1).trans (State.next_vec1 (w := 16) (g := fun u => halves (fun u _ => g 16 u) u 0) (by decide) hl h fun u => ?_)
    rw [packed1_eq_packed2 16 _ u 0, packed2_halves]
    simp only [widthOf_one, hg 16 _ (by decide)]
  case lanes =>
    refine (hi 2).trans (State.next_vec1 (w := 32) (by decide) hl h fun u => ?_)
    rw [packed1_eq_packed2 32 _ u 0, packed2_lane]
    exact hg 32 _ (by decide)

/-- The same words on register pairs, which width code 3 chooses. -/
theorem exec_pair {i : BitVec 2 → Instr} {f : Nat → Nat → Nat} {g : Word → Word} (hl : Legal64 s [d, a])
    (h : LaneReady s (both a) (both d)) (hi : ∀ w, exec (i w) s = .next (s.vec1 (widthOf w) d a x (fun _ => f (widthOf w))))
    (hg : ∀ u : Word, BitVec.ofNat 64 (f 64 u.toNat) = g u) : exec (i 3) s = .next (givesPairs s d (fun l => g (pair s a l))) :=
  (hi 3).trans (State.next_vec1_pair hl h hg)

end

/-- Settles O17, word by word: each is a shared form of one, two or three sources, with the value that a lemma on elements restates. -/
theorem vectorInteger : Obligations.VectorInteger := by
  refine ⟨?lanes, ?packed, ?oneSource⟩
  case lanes =>
    intro s d a b x y hl
    refine ⟨fun h p hp => ?_, fun h => ?_⟩
    · simp only [List.mem_cons, List.not_mem_nil, or_false] at hp
      rcases hp with rfl | rfl | rfl | rfl | rfl | rfl | rfl | rfl | rfl | rfl | rfl | rfl | rfl | rfl | rfl | rfl | rfl | rfl | rfl
      · exact State.next_vec2_lane hl h fun u v => ofNat_of_toNat (BitVec.toNat_and u v)
      · exact State.next_vec2_lane hl h fun u v => ofNat_of_toNat (BitVec.toNat_or u v)
      · exact State.next_vec2_lane hl h fun u v => ofNat_of_toNat (BitVec.toNat_xor u v)
      · exact State.next_vec2_lane hl h ofNat_add_toNat
      · exact State.next_vec2_lane hl h ofNat_sub_toNat
      · exact State.next_vec2_lane hl h ofNat_mul_toNat
      · exact State.next_vec2_lane hl h fun u v => ofNat_shiftLeft u _
      · exact State.next_vec2_lane hl h fun u v => ofNat_shiftRight u _
      · exact State.next_vec2_lane hl h fun u v => ofNat_sraBits u _
      · exact State.next_vec2_lane hl h ofNat_mulHigh_signed
      · exact State.next_vec2_lane hl h ofNat_mulHigh_unsigned
      · exact State.next_vec2_lane hl h ofNat_min_signed
      · exact State.next_vec2_lane hl h ofNat_min_unsigned
      · exact State.next_vec2_lane hl h ofNat_max_signed
      · exact State.next_vec2_lane hl h ofNat_max_unsigned
      · exact State.next_vec2_lane hl h ofNat_satS_add
      · exact State.next_vec2_lane hl h ofNat_satS_sub
      · exact State.next_vec2_lane hl h fun u v => ofNat_satU 32 _
      · exact State.next_vec2_lane hl h ofNat_truncated_sub
    · refine congrArg Host.Outcome.next ((State.vec3_eq32 s 32 (by decide) d a b x y _ hl h).trans ?_)
      simp only [ofNat_onElems3 (show 32 ≠ 64 by decide), packed3_lane, BitVec.ofNat_add, ofNat_mul_toNat, ofNat_of_toNat rfl]
  case packed =>
    intro s d a b x y
    refine ⟨fun hl h p hp => ?_, fun hl h => ?_, fun hl hb h => ?_⟩
    · simp only [List.mem_cons, List.not_mem_nil, or_false] at hp
      rcases hp with rfl | rfl | rfl | rfl | rfl | rfl | rfl | rfl <;> dsimp only
      · exact State.next_vec2_halves hl h ofNat_add_toNat
      · exact State.next_vec2_halves hl h ofNat_sub_toNat
      · exact State.next_vec2_halves hl h ofNat_satS_add
      · exact State.next_vec2_halves hl h ofNat_satS_sub
      · exact State.next_vec2_quarters hl h ofNat_add_toNat
      · exact State.next_vec2_quarters hl h ofNat_sub_toNat
      · exact State.next_vec2_quarters hl h ofNat_satS_add
      · exact State.next_vec2_quarters hl h ofNat_satS_sub
    · exact ⟨State.next_vec2_pair hl h ofNat_add_toNat, State.next_vec2_pair hl h ofNat_sub_toNat⟩
    · exact ⟨State.next_shift64 hl hb h ofNat_shiftLeft, State.next_shift64 hl hb h ofNat_shiftRight,
        State.next_shift64 hl hb h ofNat_sraBits⟩
  case oneSource =>
    intro s d a x
    refine ⟨fun hl h => ⟨fun p hp => ?_, ?_⟩, fun hl h => ⟨?_, ?_, ?_, ?_, ?_⟩⟩
    · simp only [List.mem_cons, List.not_mem_nil, or_false] at hp
      rcases hp with rfl | rfl | rfl | rfl
      · exact exec_elems (i := fun w => .vabs w d a x) (f := fun n u => (signedOf n u).natAbs)
          (g := @BitVec.abs) hl h (fun _ => rfl) fun _ u _ => ofNat_natAbs u
      · exact exec_elems (i := fun w => .vneg w d a x) (f := fun n u => wrapInt n (-(signedOf n u)))
          (g := fun _ u => -u) hl h (fun _ => rfl) fun _ u _ => ofNat_neg u
      · exact exec_elems (i := fun w => .vclz w d a x) (f := clz)
          (g := @BitVec.clz) hl h (fun _ => rfl) fun _ u hn => ofNat_clz hn u
      · exact exec_elems (i := fun w => .vpopc w d a x) (f := popc)
          (g := @BitVec.cpop) hl h (fun _ => rfl) fun _ u _ => ofNat_popc u
    · exact State.next_vec1 (w := 32) (g := fun u => u) (by decide) hl h fun u => by
        rw [packed1_eq_packed2 32 _ u 0, packed2_lane, ofNat_of_toNat rfl]
    · exact exec_pair (i := fun w => .vabs w d a x) (f := fun n u => (signedOf n u).natAbs) hl h (fun _ => rfl) ofNat_natAbs
    · exact exec_pair (i := fun w => .vneg w d a x) (f := fun n u => wrapInt n (-(signedOf n u))) hl h (fun _ => rfl) ofNat_neg
    · exact exec_pair (i := fun w => .vclz w d a x) (f := clz) hl h (fun _ => rfl) (ofNat_clz (by decide))
    · exact exec_pair (i := fun w => .vpopc w d a x) (f := popc) hl h (fun _ => rfl) ofNat_popc
    · exact State.next_vec1_pair (g := fun u => u) hl h fun _ => ofNat_of_toNat rfl

end Sys2Proof.Machine
end

section
/-! SUPPORT. Bit fields of lanes (R226), comparisons into masks (R227, R232), selection (R228) and fills (R229). -/

namespace Sys2Proof.Machine

open Sys2Proof.Safety

/-! ## Bit fields (R226) -/

/-- A number wrapped to a lane is the low half of the number wrapped to a word. -/
theorem ofNat_wrapInt_lane (k : Int) : BitVec.ofNat 32 (wrapInt 32 k) = (BitVec.ofNat 64 (wrapInt 64 k)).setWidth 32 := by
  apply BitVec.eq_of_toNat_eq
  rw [ofNat_wrapInt, ofNat_wrapInt, BitVec.toNat_setWidth, BitVec.toNat_ofInt, BitVec.toNat_ofInt]
  omega

theorem toNat_setWidth_lane (u : Lane) : (u.setWidth 64).toNat = u.toNat := BitVec.toNat_setWidth_of_le (by decide)

/-- A field of a lane, cut at the lane's top, is the low half of that field of the lane's zero extension. -/
theorem ofNat_bitField_lane (u : Lane) (p w : Nat) (sg : Bool) :
    BitVec.ofNat 32 (bitField 32 u.toNat p w sg) =
      (BitVec.ofNat 64 (bitField 64 (u.setWidth 64).toNat p (min w (32 - p)) sg)).setWidth 32 := by
  have hw : min (min w (32 - p)) (64 - p) = min w (32 - p) := by omega
  simp only [bitField, toNat_setWidth_lane, hw]
  split
  · rfl
  · cases sg
    · exact (BitVec.setWidth_ofNat_of_le (by decide) _).symm
    · exact ofNat_wrapInt_lane _

/-- The bits of a field of a lane: the field's own, and above it its sign or zeros. -/
theorem getLsbD_bitField_lane (u : Lane) (p w : Nat) (sg : Bool) {j : Nat} (hj : j < 32) :
    (BitVec.ofNat 32 (bitField 32 u.toNat p w sg)).getLsbD j =
      if j < min w (32 - p) then u.getLsbD (p + j)
      else (sg && decide (0 < min w (32 - p)) && u.getLsbD (p + min w (32 - p) - 1)) := by
  have hw : min (min w (32 - p)) (64 - p) = min w (32 - p) := by omega
  have hbit (i : Nat) : (u.setWidth 64).getLsbD i = u.getLsbD i := congrArg (Nat.testBit · i) (toNat_setWidth_lane u)
  rw [ofNat_bitField_lane, BitVec.getLsbD_setWidth, getLsbD_bitField _ _ _ _ (Nat.lt_trans hj (by decide)), hw,
    decide_eq_true hj, Bool.true_and, hbit, hbit]

theorem getLsbD_bitField_signed (u : Lane) (p w : Nat) {j : Nat} (hj : j < 32) :
    (BitVec.ofNat 32 (bitField 32 u.toNat p w true)).getLsbD j =
      (decide (0 < min w (32 - p)) && u.getLsbD (if j < min w (32 - p) then p + j else p + min w (32 - p) - 1)) := by
  rw [getLsbD_bitField_lane u p w true hj, Bool.true_and]
  by_cases hin : j < min w (32 - p)
  · rw [if_pos hin, if_pos hin, decide_eq_true (Nat.zero_lt_of_lt hin), Bool.true_and]
  · rw [if_neg hin, if_neg hin]

theorem getLsbD_bitField_unsigned (u : Lane) (p w : Nat) {j : Nat} (hj : j < 32) :
    (BitVec.ofNat 32 (bitField 32 u.toNat p w false)).getLsbD j =
      (decide (j < min w (32 - p)) && u.getLsbD (p + j)) := by
  rw [getLsbD_bitField_lane u p w false hj, Bool.false_and, Bool.false_and]
  by_cases hin : j < min w (32 - p)
  · rw [if_pos hin, decide_eq_true hin, Bool.true_and]
  · rw [if_neg hin, decide_eq_false hin, Bool.false_and]

/-! ## Comparisons (R227) -/

section
variable {n : Nat} (u v : BitVec n)

theorem vcmpCond_eq : vcmpCond n 0 u.toNat v.toNat = (u == v) := by
  rw [Bool.eq_iff_iff]
  simp [vcmpCond, BitVec.toNat_inj]

theorem vcmpCond_ne : vcmpCond n 1 u.toNat v.toNat = (u != v) := by
  rw [Bool.eq_iff_iff]
  simp [vcmpCond, BitVec.toNat_inj]

theorem vcmpCond_slt : vcmpCond n 2 u.toNat v.toNat = u.slt v := by
  rw [vcmpCond, signedOf_toNat, signedOf_toNat, BitVec.slt_eq_decide]

theorem vcmpCond_sle : vcmpCond n 3 u.toNat v.toNat = u.sle v := by
  rw [vcmpCond, signedOf_toNat, signedOf_toNat, BitVec.sle_eq_decide]

theorem vcmpCond_ult : vcmpCond n 4 u.toNat v.toNat = u.ult v := rfl

theorem vcmpCond_ule : vcmpCond n 5 u.toNat v.toNat = u.ule v := rfl

end

theorem Regs.elem_32 (r : Regs) (k l : Nat) : r.elem 32 k l = (r.v k l).toNat := if_neg (by decide)

theorem Regs.mapE_32 (r : Regs) (d : Nat) (ls : List Nat) (f : Nat → Nat) :
    r.mapE 32 d ls f = r.mapV d ls (fun l => BitVec.ofNat 32 (f l)) := if_neg (by decide)

section
variable {s : State} {k : BitVec 3} {a b d : BitVec 7} {x y : Bool}

/-- A word that writes one bit of a mask for every active lane gives those bits what it computes from the registers as they were. -/
theorem passed_mapM {g : Regs → Nat → Bool} {f : Nat → Bool} (h : g s.th.regs = f) :
    passed (s.mapTh (fun t => t.mapRegs (fun r => r.mapM k.toNat s.th.lanes (g r)))) = givesBits s k f := by
  rw [← h, givesBits]
  exact congrArg passed (State.mapTh_congr (by simp only [Thread.mapRegs]))

/-- The same for a word that writes the lanes of one register. -/
theorem passed_mapV {g : Regs → Nat → Lane} {f : Nat → Lane} (h : g s.th.regs = f) :
    passed (s.mapTh (fun t => t.mapRegs (fun r => r.mapV d.toNat s.th.lanes (g r)))) = givesLanes s d f := by
  rw [← h, givesLanes]
  exact congrArg passed (State.mapTh_congr (by simp only [Thread.mapRegs]))

/-- A ready comparison of lanes writes the bit of every active lane. -/
theorem State.next_vecCmp_lane {f : Nat → Nat → Bool} {g : Lane → Lane → Bool} (hl : Legal32 s [a, b])
    (h : LaneReady s [a.toNat, b.toNat] []) (hg : ∀ u v : Lane, f u.toNat v.toNat = g u v) :
    (Host.Outcome.next (s.vecCmp 32 k a b x y f) : Out) = .next (givesBits s k (fun l => g (lane s a l) (lane s b l))) := by
  obtain ⟨hr, hc, ha⟩ := h
  simp only [State.vecCmp]
  refine congrArg Host.Outcome.next ((State.issue_laneWord hr hc ha ?_ (fun _ hr => reg_mem_of_mem_groupV_append hr)
    (fun _ hr => hr) (fun _ hd => hd)).trans ?_)
  · simp [State.badE_of_legal32 hl]
  · simp only [Regs.elem_32, hg, lane]
    exact passed_mapM rfl

/-- The same of register pairs. -/
theorem State.next_vecCmp_pair {f : Nat → Nat → Bool} {g : Word → Word → Bool} (hl : Legal64 s [a, b])
    (h : LaneReady s (both a ++ both b) []) (hg : ∀ u v : Word, f u.toNat v.toNat = g u v) :
    (Host.Outcome.next (s.vecCmp 64 k a b x y f) : Out) = .next (givesBits s k (fun l => g (pair s a l) (pair s b l))) := by
  obtain ⟨hr, hc, ha⟩ := h
  simp only [State.vecCmp]
  refine congrArg Host.Outcome.next ((State.issue_laneWord hr hc ha ?_ (fun _ hr => reg_mem_of_mem_groupV_append hr)
    (fun _ hr => hr) (fun _ hd => hd)).trans ?_)
  · simp [State.badE_of_legal64 hl]
  · simp only [Regs.elem_64, hg, pair]
    exact passed_mapM rfl

/-- R232: VFCMP of F32 lanes. -/
theorem exec_vfcmp_f32 (c : BitVec 2) (hl : Legal32 s [a, b]) (h : LaneReady s [a.toNat, b.toNat] []) :
    exec (.vfcmp false c k a b x y) s = .next (givesBits s k (fun l =>
      fcmp c.toNat (Fmt.f32.decode (lane s a l).toNat) (Fmt.f32.decode (lane s b l).toNat))) :=
  State.next_vecCmp_lane (f := fun u v => fcmp c.toNat (Fmt.f32.decode u) (Fmt.f32.decode v))
    (g := fun u v => fcmp c.toNat (Fmt.f32.decode u.toNat) (Fmt.f32.decode v.toNat)) hl h fun _ _ => rfl

/-- R232: VFCMP of F64 pairs. -/
theorem exec_vfcmp_f64 (c : BitVec 2) (hl : Legal64 s [a, b]) (h : LaneReady s (both a ++ both b) []) :
    exec (.vfcmp true c k a b x y) s = .next (givesBits s k (fun l =>
      fcmp c.toNat (Fmt.f64.decode (pair s a l).toNat) (Fmt.f64.decode (pair s b l).toNat))) :=
  State.next_vecCmp_pair (f := fun u v => fcmp c.toNat (Fmt.f64.decode u) (Fmt.f64.decode v))
    (g := fun u v => fcmp c.toNat (Fmt.f64.decode u.toNat) (Fmt.f64.decode v.toNat)) hl h fun _ _ => rfl

/-! ## Selection and fills -/

/-- Where no lane is bad, none is left out. -/
theorem filter_none_bad {ls : List Nat} {bad : Nat → Bool} (h : ∀ l ∈ ls, bad l = false) :
    ls.filter bad = [] ∧ ls.filter (fun l => !(bad l)) = ls :=
  ⟨List.filter_eq_nil_iff.2 fun l hm => by simp [h l hm], List.filter_eq_self.2 fun l hm => by simp [h l hm]⟩

/-- R228: VSEL gives each active lane the source that its mask bit chooses. -/
theorem exec_vsel (hl : Legal32 s [d, a, b]) (h : LaneReady s [a.toNat, b.toNat] [d.toNat]) :
    exec (.vsel k d a b x y) s = .next (givesLanes s d (fun l =>
      if (s.th.regs.m k.toNat).getLsbD l then lane s a l else lane s b l)) := by
  obtain ⟨hr, hc, ha⟩ := h
  have hclean : ∀ l ∈ s.th.lanes,
      s.th.lanePoison [srcV (if (s.th.regs.m k.toNat).getLsbD l then a else b) false] l = false := by
    intro l hm
    refine Thread.lanePoison_clean _ _ _ l ?_ (hc l hm)
    cases (s.th.regs.m k.toNat).getLsbD l <;> simp [srcV]
  refine congrArg Host.Outcome.next ((State.issue_lanes _ hr ha ?_ ?_ (fun _ hd => hd)).trans ?_)
  · simp [State.badE_of_legal32 hl]
  · simp [srcV]
  · simp only [(filter_none_bad hclean).1, (filter_none_bad hclean).2, poisonRes, List.isEmpty_nil, if_true]
    refine passed_mapV (funext fun l => ?_)
    cases (s.th.regs.m k.toNat).getLsbD l <;> rfl

/-- R229: a ready fill writes every active lane from the scalar. -/
theorem State.next_fill {f : Word → Nat → Nat} {g : Nat → Lane} (hl : Legal32 s [d])
    (h : GroupReady s .vector [s.th.abs b] [] [d.toNat]) (ha : s.th.active ≠ 0)
    (hg : ∀ l, BitVec.ofNat 32 (f (s.th.valS b) l) = g l) :
    (Host.Outcome.next (s.fill d b y f) : Out) = .next (givesLanes s d g) := by
  simp only [State.fill]
  refine congrArg Host.Outcome.next ((State.issue_laneWord (rs := []) h (fun _ _ _ hm => absurd hm List.not_mem_nil)
    ha ?_ ?_ (fun _ hm => absurd hm List.not_mem_nil) (fun _ hd => hd)).trans ?_)
  · simp [State.badE_of_legal32 hl]
  · simp [Thread.srcS]
  · simp only [Regs.mapE_32, hg]
    exact passed_mapV rfl

end

/-- Settles O18: the fields by the lemmas on their bits, the comparisons by those on their conditions. -/
theorem vectorFieldsAndCompares : Obligations.VectorFieldsAndCompares := by
  refine ⟨?lanes, ?compares⟩
  case lanes =>
    intro s k d a b x y
    refine ⟨fun hl h => ⟨⟨_, _, State.next_vec2_lane hl h fun _ _ => rfl, State.next_vec2_lane hl h fun _ _ => rfl, ?_⟩,
      exec_vsel hl h⟩, fun hl h ha => ⟨?_, ?_⟩⟩
    · exact fun l j hj => ⟨getLsbD_bitField_signed _ _ _ hj, getLsbD_bitField_unsigned _ _ _ hj⟩
    · exact State.next_fill hl h ha fun l => by rw [BitVec.ofNat_add, BitVec.ofNat_toNat]
    · exact State.next_fill hl h ha fun _ => BitVec.ofNat_toNat 32 _
  case compares =>
    intro s k c a b x y
    refine ⟨?words, ?pairs⟩
    case words =>
      intro hl h tells
      have hcmp (c : BitVec 3) (f : Lane → Lane → Bool) (hf : ∀ u v : Lane, vcmpCond 32 c.toNat u.toNat v.toNat = f u v) :
          exec (.vcmp false c k a b x y) s = tells f := State.next_vecCmp_lane hl h hf
      exact ⟨hcmp 0 _ vcmpCond_eq, hcmp 1 _ vcmpCond_ne, hcmp 2 _ vcmpCond_slt, hcmp 3 _ vcmpCond_sle, hcmp 4 _ vcmpCond_ult,
        hcmp 5 _ vcmpCond_ule, exec_vfcmp_f32 c hl h⟩
    case pairs =>
      intro hl h tells
      have hcmp (c : BitVec 3) (f : Word → Word → Bool) (hf : ∀ u v : Word, vcmpCond 64 c.toNat u.toNat v.toNat = f u v) :
          exec (.vcmp true c k a b x y) s = tells f := State.next_vecCmp_pair hl h hf
      exact ⟨hcmp 0 _ vcmpCond_eq, hcmp 1 _ vcmpCond_ne, hcmp 2 _ vcmpCond_slt, hcmp 3 _ vcmpCond_sle, hcmp 4 _ vcmpCond_ult,
        hcmp 5 _ vcmpCond_ule, exec_vfcmp_f64 c hl h⟩

end Sys2Proof.Machine
end

section
/-! SUPPORT. The cross-lane words: moves between lanes (R239 to R241), the ballot (R242) and the placing of work items (R247). -/

namespace Sys2Proof.Machine

open Sys2Proof.Safety

/-! ## Lanes and masks -/

theorem mem_lanesOf (m : Mask) (l : Nat) : l ∈ lanesOf m ↔ l < 64 ∧ m.getLsbD l = true := by
  simp [lanesOf, upto]

theorem testBit_foldl_or (ls : List Nat) (k i : Nat) :
    (ls.foldl (fun a x => a ||| 2 ^ x) k).testBit i = (k.testBit i || decide (i ∈ ls)) := by
  induction ls generalizing k with
  | nil => simp
  | cons x r ih =>
    rw [List.foldl_cons, ih, Nat.testBit_or, Nat.testBit_two_pow, Bool.or_assoc]
    simp [eq_comm]

/-- A mask made from lanes has the bits of those lanes. -/
theorem getLsbD_maskOf (ls : List Nat) {i : Nat} (hi : i < 64) : (maskOf ls).getLsbD i = decide (i ∈ ls) := by
  rw [maskOf, BitVec.getLsbD_ofNat, testBit_foldl_or, Nat.zero_testBit, decide_eq_true hi, Bool.true_and, Bool.false_or]

section
variable {s : State} {a b d : BitVec 7} {x y : Bool}

/-! ## Moves between lanes (R239 to R241) -/

/-- A register none of whose lanes is poisoned is clean on the active lanes. -/
theorem lanePoison_of_clean {t : Thread} {r : BitVec 7} (h : ∀ l, t.regs.vPoison.contains (64 * r.toNat + l) = false)
    (p : Bool) (l : Nat) : t.lanePoison [srcV r p] l = false :=
  t.lanePoison_clean _ [r.toNat] l (by simp [srcV]) (by simpa using h l)

/-- A move whose index and source are clean gives every active lane the lane that is picked for it. -/
theorem State.gatherLanes_clean {idx : List Src} {pick : Thread → Nat → Nat}
    (hidx : ∀ l ∈ s.th.lanes, s.th.lanePoison idx l = false) (ha : ∀ l, s.th.regs.vPoison.contains (64 * a.toNat + l) = false) :
    (s.gatherLanes d a idx pick).finish false = givesLanes s d (fun l => lane s a (pick s.th l)) := by
  have hbad : ∀ l ∈ s.th.lanes, (s.th.lanePoison idx l || s.th.poisonV a.toNat (pick s.th l)) = false := fun l hm => by
    rw [hidx l hm, Bool.false_or]
    exact ha _
  simp only [State.gatherLanes, (filter_none_bad hbad).1, (filter_none_bad hbad).2, poisonRes, List.isEmpty_nil, if_true]
  exact congrArg passed (State.mapTh_congr (by simp only [Thread.mapRegs, lane]))

/-- An index lies in the sub-group of a lane where both lie in one block of `n`. -/
theorem subgroup_iff {n : Nat} (hn : 0 < n) (i l : Nat) : (l - l % n ≤ i ∧ i < l - l % n + n) ↔ i / n = l / n := by
  rw [Nat.div_eq_iff hn, ← Nat.div_mul_self_eq_mod_sub_self]
  omega

/-- R240: VSHUF gives each active lane the lane of its sub-group that its index names, or its own. -/
theorem exec_vshuf (c : BitVec 3) (hl : Legal32 s [d, a, b]) (h : LaneReady s [a.toNat, b.toNat] [d.toNat])
    (hp : ∀ l, s.th.regs.vPoison.contains (64 * a.toNat + l) = false) (hw : 4 * 2 ^ c.toNat ≤ s.th.width) :
    exec (.vshuf c d a b x y) s = .next (givesLanes s d (fun l =>
      let i := (lane s b l).toNat
      if i < s.th.width ∧ i / (4 * 2 ^ c.toNat) = l / (4 * 2 ^ c.toNat) then lane s a i else lane s a l)) := by
  obtain ⟨hr, hc, ha⟩ := h
  have hn : 0 < 4 * 2 ^ c.toNat := Nat.mul_pos (by decide) (Nat.two_pow_pos _)
  refine congrArg Host.Outcome.next ((State.issue_lanes _ hr ha ?legal ?reads (fun _ hd => hd)).trans
    ((State.gatherLanes_clean ?index hp).trans (congrArg (givesLanes s d) (funext fun l => ?value))))
  case legal => simp [State.badE_of_legal32 hl, hw]
  case reads => simp [srcV]
  case index =>
    intro l hm
    exact s.th.lanePoison_clean _ [b.toNat] l (by simp [srcV]) (by simpa using hc l hm b.toNat (by simp))
  case value =>
    rw [← apply_ite (lane s a)]
    simp only [Bool.and_eq_true, decide_eq_true_eq, subgroup_iff hn, and_comm, lane]

/-- R241: VBCAST gives each active lane the lane that a scalar names, or its own. -/
theorem exec_vbcast (hl : Legal32 s [d, a]) (h : GroupReady s .vector [s.th.abs b] [] [d.toNat, a.toNat]) (ha : s.th.active ≠ 0)
    (hp : ∀ l, s.th.regs.vPoison.contains (64 * a.toNat + l) = false) :
    exec (.vbcast d a b x y) s = .next (givesLanes s d (fun l =>
      if (s.th.valS b).toNat < s.th.width then lane s a (s.th.valS b).toNat else lane s a l)) := by
  have hr : GroupReady s .vector [s.th.abs b] [] ([a.toNat] ++ [d.toNat]) :=
    ⟨h.1, Thread.ready_sub h.2 (fun _ hr => hr) (fun _ hr => hr) (by simp)⟩
  refine congrArg Host.Outcome.next ((State.issue_lanes _ hr ha ?legal ?reads (fun _ hd => hd)).trans
    ((State.gatherLanes_clean (fun _ _ => rfl) hp).trans (congrArg (givesLanes s d) (funext fun l => ?value))))
  case legal => simp [State.badE_of_legal32 hl]
  case reads => simp [srcV, Thread.srcS]
  case value => rw [← apply_ite (lane s a)]

/-! ## The ballot (R242) -/

/-- A word that draws a scalar from clean active lanes gives it. -/
theorem State.laneScalar_clean {srcs : List Src} {f : Thread → Word} (h : ∀ l ∈ s.th.lanes, s.th.lanePoison srcs l = false) :
    (s.laneScalar d srcs f).finish false = gives s d (f s.th) := by
  simp only [State.laneScalar, Thread.cleanLanes, (filter_none_bad h).1, List.isEmpty_nil, if_true]
  rfl

/-- VBALLOT gives the mask of the active lanes that are not 0. -/
theorem exec_vballot (hl : Legal32 s [a]) (h : GroupReady s .vector [] [s.th.abs d] [a.toNat])
    (hp : ∀ l, s.th.regs.vPoison.contains (64 * a.toNat + l) = false) :
    exec (.vballot d a x) s = .next (gives s d (maskOf (s.th.lanes.filter (fun l => lane s a l != 0)))) := by
  have hv : verdict s.th { role := .vector, illegal := s.th.badE 32 a, reads := [srcV a x], sdests := [s.th.abs d] } = .go :=
    verdict_vector h (State.badE_of_legal32 hl (by simp)) (by simp) (by simp [srcV]) (fun _ hd => hd) (by simp) rfl rfl rfl rfl
  exact congrArg Host.Outcome.next ((State.issue_go s _ _ h.2.1 hv).trans
    (State.laneScalar_clean fun l _ => lanePoison_of_clean hp false l))

theorem getLsbD_ballot (m : Mask) (p : Nat → Bool) {l : Nat} (hl : l < 64) :
    (maskOf ((lanesOf m).filter p)).getLsbD l = (m.getLsbD l && p l) := by
  rw [getLsbD_maskOf _ hl, Bool.eq_iff_iff]
  simp [mem_lanesOf, hl]

end

/-! ## Work items (R247) -/

/-- An item of rows of given lengths lies in one of them, at its place after the rows before; one past the last lies in none. -/
theorem rowOf_spec (ls : List Nat) (i x : Nat) :
    (x < ls.sum → ∃ r, r < ls.length ∧ rowOf ls i x = some (i + r, x - (ls.take r).sum)
      ∧ (ls.take r).sum ≤ x ∧ x < (ls.take (r + 1)).sum)
    ∧ (ls.sum ≤ x → rowOf ls i x = none) := by
  induction ls generalizing i x with
  | nil => exact ⟨fun h => absurd h (Nat.not_lt_zero x), fun _ => rfl⟩
  | cons n r ih =>
    obtain ⟨hin, hout⟩ := ih (i + 1) (x - n)
    rw [List.sum_cons]
    by_cases hx : x < n
    · exact ⟨fun _ => ⟨0, by simp, by simp [rowOf, hx], by simp, by simpa using hx⟩, fun h => by omega⟩
    · rw [rowOf, if_neg hx]
      refine ⟨fun h => ?_, fun h => hout (by omega)⟩
      obtain ⟨k, hk, hrow, hle, hlt⟩ := hin (by omega)
      refine ⟨k + 1, by simpa using hk, ?_, ?_, ?_⟩
      · rw [hrow, List.take_succ_cons, List.sum_cons, Nat.sub_sub, Nat.add_assoc, Nat.add_comm 1 k]
      · rw [List.take_succ_cons, List.sum_cons]
        omega
      · rw [List.take_succ_cons, List.sum_cons]
        omega

/-- The items of the rows before row `i`, where lane `j` holds the length of row `j`. -/
def itemsBefore (s : State) (a : BitVec 7) (i : Nat) : Nat := ((List.range i).map (fun j => (lane s a j).toNat)).sum

/-- The row and the place in it that VREBAL finds for an item, among the rows of all lanes. -/
def placed (s : State) (a : BitVec 7) (i : Nat) : Option (Nat × Nat) :=
  rowOf ((upto s.th.width).map (fun j => (lane s a j).toNat)) 0 i

section
variable {s : State} {a b d : BitVec 7} {x y : Bool}

theorem sum_take_lengths {r : Nat} (h : r ≤ s.th.width) :
    (((upto s.th.width).map (fun j => (lane s a j).toNat)).take r).sum = itemsBefore s a r := by
  rw [← List.map_take, upto, List.take_range, Nat.min_eq_left h, itemsBefore]

/-- An item before the last is placed in the row that holds it. -/
theorem placed_some {i : Nat} (h : i < itemsBefore s a s.th.width) :
    ∃ r, r < s.th.width ∧ placed s a i = some (r, i - itemsBefore s a r)
      ∧ itemsBefore s a r ≤ i ∧ i < itemsBefore s a (r + 1) := by
  obtain ⟨r, hr, hrow, hle, hlt⟩ := (rowOf_spec ((upto s.th.width).map (fun j => (lane s a j).toNat)) 0 i).1 h
  have hw : r < s.th.width := by simpa [upto] using hr
  rw [sum_take_lengths (Nat.le_of_lt hw), Nat.zero_add] at hrow
  rw [sum_take_lengths (Nat.le_of_lt hw)] at hle
  rw [sum_take_lengths hw] at hlt
  exact ⟨r, hw, hrow, hle, hlt⟩

/-- One past the last is not placed. -/
theorem placed_none {i : Nat} (h : itemsBefore s a s.th.width ≤ i) : placed s a i = none :=
  (rowOf_spec _ 0 i).2 h

theorem placed_isSome (i : Nat) : (placed s a i).isSome = decide (i < itemsBefore s a s.th.width) := by
  by_cases h : i < itemsBefore s a s.th.width
  · obtain ⟨r, -, hrow, -, -⟩ := placed_some h
    rw [hrow, decide_eq_true h]
    rfl
  · rw [placed_none (Nat.not_lt.1 h), decide_eq_false h]
    rfl

/-- VREBAL writes, for the item of each active lane, its row, its place and whether there is one. -/
theorem exec_vrebal (k : BitVec 3) (hl : Legal32 s [a]) (hd : s.th.badV d 2 = false)
    (h : GroupReady s .vector [s.th.abs b] [] (a.toNat :: both d)) (ha : s.th.active ≠ 0)
    (hp : ∀ l, s.th.regs.vPoison.contains (64 * a.toNat + l) = false) :
    exec (.vrebal k d a b x y) s = .next (passed (s.mapTh (fun t => t.mapRegs (fun r =>
      ((r.mapV d.toNat t.lanes (fun l => BitVec.ofNat 32 ((placed s a ((s.th.valS b).toNat + l)).getD (s.th.width, 0)).1)).mapV
        (d.toNat + 1) t.lanes (fun l => BitVec.ofNat 32 ((placed s a ((s.th.valS b).toNat + l)).getD (s.th.width, 0)).2)).mapM
        k.toNat t.lanes (fun l => (placed s a ((s.th.valS b).toNat + l)).isSome))))) := by
  have hpoison : (upto s.th.width).any (s.th.poisonV a.toNat) = false :=
    List.any_eq_false.2 fun l _ => Bool.eq_false_iff.1 (hp l)
  refine congrArg Host.Outcome.next ((State.issue_lanes (rs := [a.toNat]) _ h ha ?legal ?reads (fun _ hd => hd)).trans ?body)
  case legal => simp [State.badE_of_legal32 hl, hd]
  case reads => simp [srcV, Thread.srcS]
  case body =>
    simp only [hpoison, Bool.false_eq_true, if_false, Res.finish]
    exact congrArg passed (State.mapTh_congr (by simp only [Thread.mapRegs, placed, lane]))

end

/-- Settles O23: the words by their lemmas, and the row and place of an item by the walk over the rows. -/
theorem crossLaneMoves : Obligations.CrossLaneMoves := by
  refine ⟨?moves, ?rebalance⟩
  case moves =>
    intro s c d a b x y hp
    exact ⟨fun hl h hw => exec_vshuf c hl h hp hw, fun hl h ha => exec_vbcast hl h ha hp,
      fun hl h => ⟨_, exec_vballot hl h hp, fun _ hi => getLsbD_ballot _ _ hi⟩⟩
  case rebalance =>
    intro s k d a b x y hl hd h ha hp pre
    refine ⟨fun l => ((placed s a ((s.th.valS b).toNat + l)).getD (s.th.width, 0)).1,
      fun l => ((placed s a ((s.th.valS b).toNat + l)).getD (s.th.width, 0)).2, ?_, fun l => ?_⟩
    · rw [exec_vrebal k hl hd h ha hp]
      simp only [placed_isSome]
      rfl
    · by_cases hi : (s.th.valS b).toNat + l < itemsBefore s a s.th.width
      · obtain ⟨r, hr, hrow, hle, hlt⟩ := placed_some hi
        simp only [hrow, Option.getD_some]
        exact (if_pos hi).mpr ⟨hr, hle, hlt, rfl⟩
      · refine (if_neg hi).mpr ?_
        simp [placed_none (Nat.not_lt.1 hi)]

end Sys2Proof.Machine
end

section
/-! SUPPORT. TRAP and ERET (R323, R324): the resume words of Table 18.2, the words issued, and the traps that they take. -/

namespace Sys2Proof.Machine

open Sys2Proof.Safety

/-! ## Resume words (Table 18.2) -/

theorem toNat_setBits_zero (n : Nat) : (setBits 0 0 56 n).toNat = n % 2 ^ 56 := by
  have hz : (0 : Word).toNat = 0 := rfl
  rw [setBits, BitVec.toNat_ofNat, hz]
  omega

/-- Clearing a field above every 1 bit of a word changes nothing. -/
theorem setBits_of_lt {w : Word} {lo : Nat} (n : Nat) (h : w.toNat < 2 ^ lo) : setBits w lo n 0 = w := by
  have hpow : 2 ^ lo ≤ 2 ^ (lo + n) := Nat.pow_le_pow_right (by decide) (Nat.le_add_right lo n)
  rw [setBits, Nat.mod_eq_of_lt h, Nat.div_eq_of_lt (Nat.lt_of_lt_of_le h hpow), Nat.zero_mod, Nat.zero_mul, Nat.zero_mul]
  exact ofNat_of_toNat rfl

/-- The start of a clause resumes as its header alone says. -/
theorem rsmWord_zero (h : Word) : rsmWord 0 h = setBits 0 0 56 h.toNat :=
  setBits_of_lt 4 (by rw [toNat_setBits_zero]; omega)

/-- The position after a word is the next word of its clause, or the next clause. -/
theorem Thread.after_eq (t : Thread) :
    t.after = if t.fetch.wix < t.cnt then setBits (setBits 0 0 56 t.fetch.hdr.toNat) 60 4 (t.fetch.wix + 1)
      else setBits 0 0 56 t.nextHdr.toNat := by
  by_cases h : t.fetch.wix < t.cnt
  · have hlast : ¬ t.lastWord = true := fun hle => Nat.not_le.2 h (of_decide_eq_true hle)
    simp only [Thread.after, if_neg hlast, if_pos h, rsmWord]
  · have hlast : t.lastWord = true := decide_eq_true (Nat.not_lt.1 h)
    simp only [Thread.after, if_pos hlast, if_neg h, rsmWord_zero]

/-- Leaving trap mode clears the top bit of the cause register. -/
theorem setBits_top (w : Word) : setBits w 63 1 0 = w &&& 0x7FFFFFFFFFFFFFFF := by
  apply BitVec.eq_of_toNat_eq
  rw [setBits, BitVec.toNat_and, show (0x7FFFFFFFFFFFFFFF : Word).toNat = 2 ^ 63 - 1 from rfl, Nat.and_two_pow_sub_one_eq_mod,
    BitVec.toNat_ofNat]
  omega

theorem bitsAt_top (w : Word) : bitsAt w 60 4 = w.toNat / 2 ^ 60 := by
  have := w.isLt
  rw [bitsAt]
  omega

theorem bitsAt_low (w : Word) (n : Nat) : bitsAt w 0 n = w.toNat % 2 ^ n := by
  rw [bitsAt, Nat.pow_zero, Nat.div_one]

/-! ## Words that a transaction ends (R318) -/

/-- Outside transactions a word without sources passes the checks of R187 as any other does, even where a transaction would end by it. -/
theorem verdict_outside {s : State} {n : Need} {ds : List Nat} (h : Ready s .every [] ds []) (hx : Outside s)
    (hi : n.illegal = false) (hd : n.distaff = true) (hs : n.simt = true) (hp : n.priv = true → s.th.priv = true)
    (hrow : n.role = .every) (hl : n.lanes = false) (hr : n.reads = []) (hsd : ∀ d ∈ n.sdests, d ∈ ds) (hvd : n.vdests = []) :
    verdict s.th n = .go := by
  obtain ⟨-, hrole, -, hds, -⟩ := h
  exact verdict_go s.th n hi (fun _ => hd) (fun _ => hs) hp (fun hg => hrow ▸ hrole hg) (by simp [hl]) (by simp [hr]) (by simp [hr])
    (fun d hm => hds d (hsd d hm)) (by simp [hvd]) (fun _ => hx)

theorem exec_trap {s : State} (n : BitVec 7) (h : Ready s .every [] [] []) (hx : Outside s) :
    exec (.trap n) s = .next (s.trap s.work.cur ⟨0x12, 0, n.toNat, s.th.active, 0, false, s.th.after⟩) :=
  congrArg Host.Outcome.next (State.issue_go s _ _ h.1 (by apply verdict_outside h hx <;> simp))

/-- ERET is performed in trap mode on a group, and with privilege on a distaff thread. -/
theorem exec_eret {s : State} (h : Ready s .every [] [] []) (hx : Outside s) (hg : s.th.kind = .group → s.th.inTrap = true)
    (hd : s.th.kind = .distaff → s.th.priv = true) : exec .eret s = .next s.eret :=
  congrArg Host.Outcome.next (State.issue_go s _ _ h.1
    (by apply verdict_outside h hx (hi := by simpa using hg) (hp := by simpa using hd) <;> simp))

/-- ERET of a group outside trap mode is illegal. -/
theorem exec_eret_illegal {s : State} (h : s.th.issues = true) (hg : s.th.kind = .group) (hm : s.th.inTrap = false) :
    exec .eret s = .next (s.trapHere 0x01 0) :=
  congrArg Host.Outcome.next (State.issue_trap s _ _ 0x01 0 h (by simp [verdict, hg, hm]))

/-- ERET of a distaff thread in user mode is refused. -/
theorem exec_eret_user {s : State} (h : s.th.issues = true) (hd : s.th.kind = .distaff) (hp : s.th.priv = false) :
    exec .eret s = .next (s.trapHere 0x0F 0) :=
  congrArg Host.Outcome.next (State.issue_trap s _ _ 0x0F 0 h (by simp [verdict, hd, hp]))

/-! ## Leaving trap mode -/

theorem State.eret_misaligned {s : State} (h : s.th.trap.trsm.toNat % 2 ^ 56 % 4 ≠ 0) : s.eret = s.trapHere 0x06 0 := by
  simp only [State.eret, bitsAt_low, if_pos h]

theorem State.eret_group {s : State} (h : s.th.trap.trsm.toNat % 2 ^ 56 % 4 = 0) (hg : s.th.kind = .group) :
    s.eret = s.mapTh (fun t => { t with
      fetch := ⟨BitVec.ofNat 64 (s.th.trap.trsm.toNat % 2 ^ 56), s.th.trap.trsm.toNat / 2 ^ 60, []⟩,
      trap := { t.trap with tcs := s.th.trap.tcs &&& 0x7FFFFFFFFFFFFFFF } }) := by
  simp only [State.eret, bitsAt_low, bitsAt_top, h, hg, ne_eq, not_true, if_false]
  exact State.mapTh_congr (by simp only [setBits_top])

theorem State.eret_distaff {s : State} (h : s.th.trap.trsm.toNat % 2 ^ 56 % 4 = 0) (hd : s.th.kind = .distaff) :
    s.eret = s.mapTh (fun t => { t with
      fetch := ⟨BitVec.ofNat 64 (s.th.trap.trsm.toNat % 2 ^ 56), s.th.trap.trsm.toNat / 2 ^ 60, []⟩,
      priv := s.th.trap.tcs.getLsbD 61, trap := { t.trap with tcs := s.th.trap.tcs &&& 0x7FFFFFFFFFFFFFFF } }) := by
  simp only [State.eret, bitsAt_low, bitsAt_top, h, hd, ne_eq, not_true, if_false]
  exact State.mapTh_congr (by simp only [setBits_top])

/-! ## Entering trap mode -/

/-- Outside transactions a group with a trap clause enters it (R385). -/
theorem State.trap_group {s : State} {h : Word} (i : TrapInfo) (hx : Outside s) (hg : s.th.kind = .group)
    (hc : s.trapClause s.th = some h) (hm : s.th.inTrap = false) :
    s.trap s.work.cur i = s.mapTh (fun t => { t with
      reuse := none, wait := .none, park := none, status := .running, fetch := ⟨h, 0, []⟩,
      trap := { t.trap with tcs := i.tcs, tlm := i.lanes, tva := i.va, trsm := i.rsm } }) := by
  have hk : (s.thread s.work.cur).kind = .group := hg
  rw [State.trap_outside s s.work.cur i none hx, hk]
  exact State.groupTrap_enters s s.work.cur i _ h hc hm

/-- Outside transactions a distaff thread enters its handler (R399). -/
theorem State.trap_distaff {s : State} (i : TrapInfo) (hx : Outside s) (hd : s.th.kind = .distaff) (hm : s.th.inTrap = false) :
    s.trap s.work.cur i = s.mapTh (fun t => { t with
      wait := .none, priv := true, fetch := ⟨BitVec.ofNat 64 (bitsAt t.trap.vec 2 54 * 4), 0, []⟩,
      trap := { t.trap with tcs := i.tcs ||| BitVec.ofNat 64 (bit t.priv * 2 ^ 61), tva := i.va, trsm := i.rsm } }) := by
  have hk : (s.thread s.work.cur).kind = .distaff := hd
  rw [State.trap_outside s s.work.cur i none hx, hk]
  exact State.distaffTrap_enters s s.work.cur i hm

/-! ## Traps inside a transaction (R387) -/

/-- The thread that `final` leaves (R319): its transaction has ended, RD holds the lanes that did not commit, and it stands at RH. -/
def Thread.ended (t : Thread) (c : Nat) : Thread :=
  ({ t with
    tx := { t.tx.discard t.tx.tm with cause := c, live := false, pages := [] }, wait := .none,
    pstack := toDepth t.pstack t.tx.d0 }.mapRegs (fun r => r.setS t.tx.rd t.tx.tm)).goto t.tx.rh

theorem State.thread_final (s : State) (k c : Nat) : (s.final k c).thread k = (s.thread k).ended c :=
  State.thread_putThread _ k _

theorem Thread.ended_rd (t : Thread) (c : Nat) : (t.ended c).regs.s t.tx.rd = t.tx.tm := Regs.s_setS _ _ _

/-- The cause word does not depend on where the thread resumes. -/
theorem TrapInfo.tcs_resume (i : TrapInfo) (w : Word) : ({ i with rsm := w } : TrapInfo).tcs = i.tcs := by
  simp only [TrapInfo.tcs]

/-- The transaction is over before the group enters its trap clause, which then resumes at RH. -/
theorem State.trap_live_group {s : State} {h : Word} (i : TrapInfo) (hl : s.th.tx.live = true) (hg : s.th.kind = .group)
    (hc : s.trapClause s.th = some h) (hm : s.th.inTrap = false) :
    (s.trap s.work.cur i).th = { s.th.ended 6 with
      reuse := none, wait := .none, park := none, status := .running, fetch := ⟨h, 0, []⟩,
      trap := { s.th.trap with tcs := i.tcs, tlm := i.lanes, tva := i.va, trsm := setBits 0 0 56 s.th.tx.rh.toNat } } := by
  have hf : (s.final s.work.cur 6).thread s.work.cur = s.th.ended 6 := s.thread_final s.work.cur 6
  have hlive : (s.thread s.work.cur).tx.live = true := hl
  have hkind : ((s.final s.work.cur 6).thread s.work.cur).kind = .group := by rw [hf]; exact hg
  have he := State.groupTrap_enters (s.final s.work.cur 6) s.work.cur { i with rsm := rsmWord 0 s.th.tx.rh } s.th.fetch.hdr h
    (by rw [hf]; exact hc) (by rw [hf]; exact hm)
  have ht : s.trap s.work.cur i = (s.final s.work.cur 6).groupTrap s.work.cur { i with rsm := rsmWord 0 s.th.tx.rh } s.th.fetch.hdr := by
    simp only [State.trap, hlive, if_true, hkind]
    rfl
  rw [ht, he, rsmWord_zero]
  exact (State.thread_mapThread _ _ _).trans (by rw [hf, TrapInfo.tcs_resume]; rfl)

/-- Settles O9: the words by their lemmas on each kind of thread, the traps by the lemma of the handler that the thread enters. -/
theorem trapAndReturn : Obligations.TrapAndReturn := by
  intro s n h
  have hnext : s.th.after = if s.th.fetch.wix < s.th.cnt then setBits (setBits 0 0 56 s.th.fetch.hdr.toNat) 60 4 (s.th.fetch.wix + 1)
      else setBits 0 0 56 (s.th.fetch.hdr + BitVec.ofNat 64 (4 * (s.th.cnt + 1))).toNat := s.th.after_eq
  have htcs (cause reason code : Nat) (l : Mask) (va rsm : Word) : (TrapInfo.mk cause reason code l va false rsm).tcs =
      BitVec.ofNat 64 (2 ^ 63 + cause * 2 ^ 48 + reason * 2 ^ 40 + code * 2 ^ 32) := by
    simp only [TrapInfo.tcs, bit, Bool.false_eq_true, if_false, Nat.zero_mul, Nat.add_zero]
  have hsoft (l : Mask) (va rsm : Word) : (TrapInfo.mk 0x12 0 n.toNat l va false rsm).tcs =
      BitVec.ofNat 64 (2 ^ 63 + 0x12 * 2 ^ 48 + n.toNat * 2 ^ 32) := by
    rw [htcs, Nat.zero_mul, Nat.add_zero]
  refine ⟨fun hx hg c hc hm => ?trapGroup, fun hx hd hm => ?trapDistaff, fun hx hb => ⟨fun hg hm => ?eretGroup, fun hd hp => ?eretDistaff⟩,
    fun hx hb hg hd => ?misaligned, fun hg hm => exec_eret_illegal h.1 hg hm, fun hd hp => exec_eret_user h.1 hd hp,
    fun cause reason va c hl hg hc hm => ?live⟩
  case trapGroup =>
    refine (exec_trap n h hx).trans (congrArg Host.Outcome.next ((State.trap_group _ hx hg hc hm).trans (State.mapTh_congr ?_)))
    simp only [hsoft, hnext]
  case trapDistaff =>
    refine (exec_trap n h hx).trans (congrArg Host.Outcome.next ((State.trap_distaff _ hx hd hm).trans (State.mapTh_congr ?_)))
    simp only [hsoft, hnext]
  case eretGroup =>
    rw [exec_eret h hx (fun _ => hm) (by simp [hg]), State.eret_group hb hg]
    exact congrArg Host.Outcome.next (State.mapTh_congr rfl)
  case eretDistaff =>
    rw [exec_eret h hx (by simp [hd]) (fun _ => hp), State.eret_distaff hb hd]
    exact congrArg Host.Outcome.next (State.mapTh_congr rfl)
  case misaligned => rw [exec_eret h hx hg hd, State.eret_misaligned hb]
  case live =>
    rw [State.trapHere, State.trap_live_group _ hl hg hc hm, htcs]
    exact ⟨rfl, rfl, s.th.ended_rd 6, rfl, by rw [Nat.zero_mul, Nat.add_zero], rfl⟩

end Sys2Proof.Machine
end

section
/-! SUPPORT. The parts of a state that writing lines back and recalling them leave alone: all of `work` but for the cores' own tables, and,
where transactions are aborted on the way, at least who its threads are and what its launches say. -/

namespace Sys2Proof.Machine

/-- A fold of steps that keep a part of the state keeps it. -/
theorem foldl_keeps {α β : Type} (g : State → β) (f : State → α → State) (hf : ∀ s x, g (f s x) = g s) (l : List α) (s : State) :
    g (l.foldl f s) = g s := by
  induction l generalizing s with
  | nil => rfl
  | cons x r ih => rw [List.foldl_cons, ih, hf]

/-! ## Messages and lines of caches -/

@[simp] theorem State.sendMwb_work (s : State) (core line key : Nat) (data : BitVec 1024) (mask : BitVec 128) (poison : BitVec 16)
    (acc : Option Access) : (s.sendMwb core line key data mask poison acc).work = s.work := rfl
@[simp] theorem State.post_work (s : State) (m : Msg) : (s.post m).work = s.work := rfl
@[simp] theorem State.spoilFills_work (s : State) (c l : Nat) (f : Msg → Bool) : (s.spoilFills c l f).work = s.work := rfl
@[simp] theorem State.dropLine_work (s : State) (c l : Nat) : (s.dropLine c l).work = s.work := rfl

@[simp] theorem State.flushMask_work (s : State) (core line : Nat) : (s.flushMask core line).work = s.work := by
  simp only [State.flushMask]
  split
  · split <;> rfl
  · rfl

@[simp] theorem State.flushAll_work (s : State) (core : Nat) : (s.flushAll core).work = s.work :=
  foldl_keeps State.work _ (fun s l => s.flushMask_work core l) _ s

@[simp] theorem State.loseLine_work (s : State) (c l : Nat) : (s.loseLine c l).work = s.work := by
  simp only [State.loseLine]
  split
  · rfl
  · split <;> rfl

@[simp] theorem State.writeOut_work (s : State) (c l : Nat) : (s.writeOut c l).work = s.work := by
  have hmask : (if c < 192 then s.flushMask c l else s).work = s.work := by split <;> simp
  simp only [State.writeOut]
  split
  · rfl
  · split <;> simp [hmask]

@[simp] theorem State.acquireL1_work (s : State) (core : Nat) : (s.acquireL1 core).work = s.work := by
  simp only [State.acquireL1]
  refine (foldl_keeps State.work _ (fun s l => ?out) _ _).trans
    ((foldl_keeps State.work _ (fun s l => s.spoilFills_work core l _) _ _).trans (s.flushAll_work core))
  case out =>
    split
    · split
      · rfl
      · exact s.writeOut_work core l
    · rfl

/-! ## The acquire action -/

theorem State.th_congr {s t : State} (ht : t.work.threads = s.work.threads) (hc : t.work.cur = s.work.cur) : t.th = s.th := by
  rw [State.th, State.thread, ht, hc]
  rfl

theorem State.stampAcquire_threads (s : State) (t : Thread) (scope : Nat) :
    (s.stampAcquire t scope).work.threads = s.work.threads ∧ (s.stampAcquire t scope).work.cur = s.work.cur := by
  simp only [State.stampAcquire]
  split <;> exact ⟨rfl, rfl⟩

/-- The acquire action changes no thread. -/
theorem State.acquire_threads (s : State) (k scope : Nat) :
    (s.acquire k scope).work.threads = s.work.threads ∧ (s.acquire k scope).work.cur = s.work.cur := by
  have hstamp (u : State) (hu : u = if 2 ≤ scope then (s.dropIcache (s.thread k).icache).stampAcquire (s.thread k) scope else s) :
      u.work.threads = s.work.threads ∧ u.work.cur = s.work.cur := by
    rw [hu]
    split
    · exact (s.dropIcache _).stampAcquire_threads _ scope
    · exact ⟨rfl, rfl⟩
  simp only [State.acquire]
  generalize hu : (if 2 ≤ scope then _ else s) = u
  have h := hstamp u hu.symm
  split
  · exact h
  · split
    · exact h
    · simpa [State.staleWindow] using h

/-- At level 0 the acquire action has no flush before it, and leaves the thread as it is. -/
theorem State.th_acquireNow {s : State} (h : s.level s.th = 0) (scope : Nat) :
    (s.acquireNow s.work.cur scope).th = s.th ∧ (s.acquireNow s.work.cur scope).work.cur = s.work.cur := by
  have hl : s.level (s.thread s.work.cur) = 0 := h
  have he : s.acquireNow s.work.cur scope = s.acquire s.work.cur scope := by simp [State.acquireNow, hl]
  obtain ⟨ht, hc⟩ := s.acquire_threads s.work.cur scope
  rw [he]
  exact ⟨State.th_congr ht hc, hc⟩

theorem State.acquireReady_level {s : State} (h : s.level s.th = 0) (scope : Nat) : s.acquireReady s.work.cur scope = true := by
  have hl : s.level (s.thread s.work.cur) = 0 := h
  simp [State.acquireReady, hl]

end Sys2Proof.Machine
end

section
/-! SUPPORT. What a release and its flushes leave alone: who the threads are, and what the launches say. -/

namespace Sys2Proof.Machine

/-- Who runs where: the thread whose word is being issued, the launches, and the kind and identity of every thread. A flush may abort
transactions of other threads, and keeps these. -/
def State.seats (s : State) : Nat × Tab Launch × (Nat → Kind × Ident) :=
  (s.work.cur, s.work.launches, fun k => ((s.thread k).kind, (s.thread k).ident))

theorem State.seats_of_work {s t : State} (h : t.work = s.work) : t.seats = s.seats := by
  simp only [State.seats, State.thread, h]

theorem State.cur_of_seats {s t : State} (h : t.seats = s.seats) : t.work.cur = s.work.cur := congrArg Prod.fst h

/-- A change of a thread that keeps its kind and identity keeps the seats. -/
theorem State.seats_putThread {s : State} {k : Nat} {t : Thread} (hk : t.kind = (s.thread k).kind) (hi : t.ident = (s.thread k).ident) :
    (s.putThread k t).seats = s.seats := by
  have hj : ∀ j, (((s.putThread k t).thread j).kind, ((s.putThread k t).thread j).ident) = ((s.thread j).kind, (s.thread j).ident) := by
    intro j
    by_cases h : j = k
    · rw [h, State.thread_putThread, hk, hi]
    · rw [State.thread_putThread_ne s k j t h]
  exact congrArg (fun f => (s.work.cur, s.work.launches, f)) (funext hj)

theorem State.seats_mapTh {s : State} {f : Thread → Thread} (hk : (f s.th).kind = s.th.kind) (hi : (f s.th).ident = s.th.ident) :
    (s.mapTh f).seats = s.seats := State.seats_putThread hk hi

/-- The level of the current thread depends on the seats alone (R377). -/
theorem State.level_of_seats {s t : State} (h : t.seats = s.seats) : t.level t.th = s.level s.th := by
  have hc : t.work.cur = s.work.cur := State.cur_of_seats h
  have hl : t.work.launches = s.work.launches := congrArg (fun p => p.2.1) h
  have hth : (t.th.kind, t.th.ident) = (s.th.kind, s.th.ident) := by
    have := congrFun (congrArg (fun p => p.2.2) h) s.work.cur
    rw [State.th, hc]
    exact this
  obtain ⟨hk, hi⟩ := Prod.mk.inj hth
  simp only [State.level, State.launch?, hk, hi, hl]

/-! ## Writes at a home -/

@[simp] theorem State.setByte_work (s : State) (key a : Nat) (b : Byte) : (s.setByte key a b).work = s.work := by
  have h : (s.retag key a).work = s.work := by
    simp only [State.retag]
    split <;> rfl
  exact h

@[simp] theorem State.dirtyHome_work (s : State) (key l : Nat) (us : List Nat) : (s.dirtyHome key l us).work = s.work := by
  simp only [State.dirtyHome]
  split
  · rfl
  · split
    · rfl
    · split <;> rfl

@[simp] theorem State.mergeLine_work (s : State) (key l : Nat) (d : BitVec 1024) (m : BitVec 128) (p : BitVec 16) :
    (s.mergeLine key l d m p).work = s.work := by
  simp only [State.mergeLine, State.dirtyHome_work, State.setPoison_work]
  exact foldl_keeps State.work _ (fun s i => by split <;> simp) _ s

@[simp] theorem State.count_work (s : State) (a : Nat) (w : Bool) (m : Nat) : (s.count a w m).work = s.work := by
  unfold State.count
  split <;> rfl

@[simp] theorem State.unstage_work (s : State) (core l : Nat) (g : Staged) : (s.unstage core l g).work = s.work := by
  simp only [State.unstage]
  split
  · rfl
  · split
    · split <;> rfl
    · rfl

theorem State.dropRetired_work {s t : State} {slice : Nat} (h : s.dropRetired slice = some t) : t.work = s.work := by
  unfold State.dropRetired at h
  split at h <;> cases h
  rfl

/-- A registration of an access changes no work (R380). -/
theorem State.register_work {s t : State} {lnum block line : Nat} {w sync : Bool} (h : s.register lnum block line w sync = .ok t) :
    t.work = s.work := by
  unfold State.register at h
  extract_lets acq e slice put at h
  split at h
  · cases h
  · split at h
    · cases h
      rfl
    · split at h
      · cases h
        rfl
      · split at h
        · rename_i u hu
          cases h
          exact (State.dropRetired_work hu : u.work = s.work)
        · cases h

theorem State.registerStaged_work {s t : State} {line : Nat} {g : Staged} (h : s.registerStaged line g = .ok t) : t.work = s.work := by
  unfold State.registerStaged at h
  split at h
  · cases h
  · rename_i u hu
    have hplain : u.work = s.work := by
      split at hu
      · exact State.register_work hu
      · cases hu
        rfl
    split at h
    · exact (State.register_work h).trans hplain
    · cases h
      exact hplain

/-! ## Aborts on the way -/

@[simp] theorem State.seats_retry (s : State) (k c : Nat) (f : Mask) : (s.retry k c f).seats = s.seats := by
  simp only [State.retry]
  split
  · exact State.seats_putThread rfl rfl
  · exact State.seats_putThread rfl rfl

@[simp] theorem State.seats_hitSigs (s : State) (l : Nat) : (s.hitSigs l).seats = s.seats :=
  foldl_keeps State.seats _ (fun s k => by dsimp only; split <;> simp) _ s

@[simp] theorem State.seats_snoopSpec (s : State) (c l : Nat) : (s.snoopSpec c l).seats = s.seats := by
  simp only [State.snoopSpec]
  split
  · split
    · exact foldl_keeps State.seats _ (fun s k => by split <;> simp) _ s
    · rfl
  · rfl

@[simp] theorem State.seats_settle (s : State) (l : Nat) : (s.settle l).seats = s.seats := by
  have hsnoop : ((s.trackers l).foldl (fun (s : State) c => s.snoopSpec c l) s).seats = s.seats :=
    foldl_keeps State.seats _ (fun s c => s.seats_snoopSpec c l) _ s
  have hlose : ∀ (cs : List Nat) (u : State), (cs.foldl (fun (s : State) c => s.loseLine c l) u).seats = u.seats :=
    foldl_keeps State.seats _ (fun s c => State.seats_of_work (s.loseLine_work c l))
  simp only [State.settle]
  rw [apply_ite State.seats, State.seats_of_work (State.putDir_work _ _ _), ite_self, hlose]
  split
  · exact (State.seats_of_work (State.mergeLine_work _ _ _ _ _ _)).trans hsnoop
  · exact hsnoop

/-! ## Flushes (R378) -/

theorem State.seats_flushLine (s : State) (core lvl : Nat) (p : Nat × CLine × Staged) (race : Nat) :
    (s.flushLine core lvl p race).1.seats = s.seats := by
  simp only [State.flushLine]
  split
  · exact State.seats_of_work (s.unstage_work _ _ _)
  · rename_i u hu
    have hreg : u.work = s.work := by
      split at hu
      · exact State.registerStaged_work hu
      · cases hu
        rfl
    rw [State.seats_of_work (State.unstage_work _ _ _ _), State.seats_of_work (State.count_work _ _ _ _), State.seats_hitSigs,
      State.seats_of_work (State.mergeLine_work _ _ _ _ _ _), State.seats_settle, State.seats_of_work hreg]

theorem State.seats_flushLines (core lvl : Nat) (ps : List (Nat × CLine × Staged)) (s : State) (race : Nat) :
    (s.flushLines core lvl ps race).1.seats = s.seats := by
  induction ps generalizing s race with
  | nil => rfl
  | cons p r ih => exact (ih _ _).trans (s.seats_flushLine core lvl p race)

theorem State.seats_flushStage (s : State) (core lnum block lvl : Nat) (retires atomic : Bool) :
    (s.flushStage core lnum block lvl retires atomic).1.seats = s.seats := by
  simp only [State.flushStage]
  split
  · rfl
  · split <;> exact State.seats_flushLines core lvl _ s.takeTicket.2 0

theorem State.seats_immediate {s t : State} {retires : Bool} {race : Nat} (h : s.immediate retires = some (t, race)) :
    t.seats = s.seats := by
  unfold State.immediate at h
  dsimp only at h
  split at h
  · cases h
    rfl
  · split at h
    · have he := congrArg Prod.fst (Option.some.inj h)
      rw [← show _ = t from he]
      exact State.seats_flushStage _ _ _ _ _ _ _
    · cases h

/-! ## Releases (R283) -/

theorem State.beginRelease_none {s : State} (h : s.th.wait = .none) :
    s.beginRelease.1 = (s.flushAll s.th.ident.core).mapTh (fun t =>
      { t with wait := .release (s.flushAll s.th.ident.core).mem.mwbNext }) := by
  simp only [State.beginRelease, h]

/-- A release that completes has nothing to do on a distaff thread, and on a group ends with its immediate flush. -/
theorem State.release_done {s t : State} {scope race : Nat} (hs : scope ≠ 0) (h : s.release scope = (t, some race)) :
    (s.th.kind = .distaff ∧ t = s) ∨ (s.th.kind = .group ∧ ∃ u, s.beginRelease.1.immediate (2 ≤ scope) = some (u, race)
      ∧ t = u.mapTh (fun x => { x with wait := .none })) := by
  unfold State.release at h
  dsimp only at h
  split at h
  · cases h
  · split at h
    · rename_i hk
      cases h
      exact .inl ⟨hk, rfl⟩
    · rename_i hk
      refine .inr ⟨hk, ?_⟩
      split at h
      · cases h
      · split at h
        · rename_i u r hu
          cases h
          exact ⟨u, hu, rfl⟩
        · cases h

/-- A release that begins and completes at once keeps the seats. -/
theorem State.seats_release {s t : State} {scope race : Nat} (hs : scope ≠ 0) (hw : s.th.wait = .none)
    (h : s.release scope = (t, some race)) : t.seats = s.seats := by
  obtain ⟨-, rfl⟩ | ⟨-, u, hu, rfl⟩ := State.release_done hs h
  · rfl
  · rw [State.seats_mapTh rfl rfl, State.seats_immediate hu, State.beginRelease_none hw, State.seats_mapTh rfl rfl,
      State.seats_of_work (s.flushAll_work _)]

/-- At level 0 it leaves the thread as it was. -/
theorem State.th_release {s t : State} {scope race : Nat} (hs : scope ≠ 0) (hw : s.th.wait = .none)
    (h : s.release scope = (t, some race)) (hl : t.level t.th = 0) : t.th = s.th := by
  have hlevel : s.level s.th = 0 := (State.level_of_seats (State.seats_release hs hw h)).symm.trans hl
  obtain ⟨-, rfl⟩ | ⟨-, u, hu, rfl⟩ := State.release_done hs h
  · rfl
  · have hbegin : s.beginRelease.1.seats = s.seats := by
      rw [State.beginRelease_none hw, State.seats_mapTh rfl rfl, State.seats_of_work (s.flushAll_work _)]
    have hu0 : u = s.beginRelease.1 := by
      simp only [State.immediate, State.level_of_seats hbegin, hlevel, if_true] at hu
      cases hu
      rfl
    have hflush : (s.flushAll s.th.ident.core).th = s.th := State.th_congr (by rw [s.flushAll_work]) (by rw [s.flushAll_work])
    rw [State.th_mapTh, hu0, State.beginRelease_none hw, State.th_mapTh, hflush, ← hw]

end Sys2Proof.Machine
end

section
/-! SUPPORT. The words of transactions (R317, R319, R321, R322). -/

namespace Sys2Proof.Machine

open Sys2Proof.Safety

/-! ## Threads after a transaction's words -/

/-- The last word of a clause, whatever else it did to its thread, leaves it at the next header. -/
theorem Thread.fetch_advance {t u : Thread} (hf : u.fetch = t.fetch) (h : t.lastWord = true) (e : Bool) :
    (u.endRegion e).advance.fetch = ⟨t.nextHdr, 0, []⟩ := by
  have hfe : (u.endRegion e).fetch = t.fetch := (u.endRegion_fetch e).trans hf
  have hlast : (u.endRegion e).lastWord = true := by
    rw [Thread.lastWord, Thread.cnt, hfe]
    exact h
  rw [Thread.advance, if_pos hlast, Thread.goto_fetch]
  simp only [Thread.nextHdr, Thread.cnt, hfe]

theorem State.fetch_advance {s u : State} (hf : u.th.fetch = s.th.fetch) (h : s.th.lastWord = true) (e : Bool) :
    (u.advance e).th.fetch = ⟨s.th.nextHdr, 0, []⟩ := by
  rw [State.th_advance, Thread.fetch_advance hf h]

/-- Moving on leaves a thread's registers, transaction and wait alone. -/
theorem State.advance_keeps (u : State) (e : Bool) :
    (u.advance e).th.regs = u.th.regs ∧ (u.advance e).th.tx = u.th.tx ∧ (u.advance e).th.wait = u.th.wait := by
  simp

theorem State.th_of_cur {u : State} {k : Nat} (h : u.work.cur = k) : u.th = u.thread k := by
  rw [State.th, h]

/-- A live transaction of the active lanes, which restarts at the next header (R317). -/
def Thread.opened (t : Thread) (d : BitVec 7) (n : Nat) : Thread :=
  { t with tx := { Trans.none with
      live := true, tm := t.active, d0 := t.pstack.length, budget := n, rh := t.nextHdr, rd := t.abs d } }

/-- The lanes `c` have committed (R355). -/
def Thread.landed (t : Thread) (c : Mask) : Thread := { t with tx := { t.tx with done := t.tx.done ||| c }, wait := .none }

/-- The transaction is over, its lanes committed (R319). -/
def Thread.committed (t : Thread) : Thread :=
  { t with tx := { t.tx.discard t.tx.tm with live := false, pages := [] }, pstack := toDepth t.pstack t.tx.d0 }

/-- The lanes `f` try again, with code `c`, where the attempts are not used up (R319). -/
def Thread.retried (t : Thread) (c : Nat) (f : Mask) : Thread :=
  ({ t with
    tx := { t.tx.discard f with cause := c, att := t.tx.att + 1, tm := f, fbk := false, pages := [] }, wait := .none,
    pstack := toDepth t.pstack t.tx.d0 }.mapRegs (fun r => r.setS t.tx.rd 0)).goto t.tx.rh

/-! ## TXBEGIN, TXSTAT and TXABORT -/

theorem exec_txbegin {s : State} {d : BitVec 7} (m : BitVec 4) (h : Ready s .every [] [s.th.abs d] []) (hx : Outside s)
    (hw : s.th.lastWord = true) :
    exec (.txbegin d m) s = .next (passed ((s.mapTh (fun t => t.opened d m.toNat)).setS d 0)) :=
  congrArg Host.Outcome.next (State.issue_go s _ _ h.1 (by apply verdict_outside h hx <;> simp [hw]))

theorem exec_txstat {s : State} {d : BitVec 7} (h : Ready s .every [] [s.th.abs d] []) :
    exec (.txstat d) s = .next (gives s d s.th.tx.stat) :=
  congrArg Host.Outcome.next (State.issue_go s _ _ h.1 (by apply verdict_plain h <;> simp))

theorem exec_txabort_live {s : State} (n : BitVec 7) (h : Ready s .every [] [] []) (hl : s.th.tx.live = true) :
    exec (.txabort n) s = .next ((s.mapTh (fun t => { t with tx := { t.tx with code := n.toNat } })).final s.work.cur 4) := by
  refine congrArg Host.Outcome.next ((State.issue_both _ h).trans ?_)
  simp only [hl, if_true, Res.finish]

theorem exec_txabort_outside {s : State} (n : BitVec 7) (h : Ready s .every [] [] []) (hx : Outside s) :
    exec (.txabort n) s = .next (passed s) := by
  refine congrArg Host.Outcome.next ((State.issue_both _ h).trans ?_)
  simp only [hx, Bool.false_eq_true, if_false, Res.finish]
  rfl

/-! ## Lanes that have committed -/

/-- While attempts are left, `retry` begins the next one at RH. -/
theorem State.thread_retry {s : State} {k : Nat} (c : Nat) (f : Mask) (hb : (s.thread k).tx.fbk = false)
    (ha : (s.thread k).tx.att + 1 < (s.thread k).tx.budget) (h15 : (s.thread k).tx.att < 15) :
    (s.retry k c f).thread k = (s.thread k).retried c f := by
  have hmin : min ((s.thread k).tx.att + 1) 15 = (s.thread k).tx.att + 1 := Nat.min_eq_left h15
  have hfbk : decide ((s.thread k).tx.budget ≤ (s.thread k).tx.att + 1) = false := decide_eq_false (Nat.not_le.2 ha)
  simp only [State.retry, hmin, hb, hfbk, Bool.or_false, Bool.false_and, Bool.false_eq_true, if_false]
  exact State.thread_putThread _ _ _

/-- What `finishCommit` does once the acquire is made and the lanes stand committed in `a`. -/
theorem State.finishCommit_eq (s : State) (d : BitVec 7) (c : Mask) {a : State}
    (ha : a = (s.acquireNow s.work.cur 2).mapTh (fun t => t.landed c)) :
    s.finishCommit d c = if a.th.tx.tm &&& ~~~c ≠ 0 then
        .moved ((a.retry s.work.cur 1 (a.th.tx.tm &&& ~~~c)).mapThread s.work.cur (fun t => t.endRegion true))
      else .done (((((a.dropSigs s.work.cur).clearSpec a.th.cache).releaseLock s.work.cur).mapTh Thread.committed).setS d
        a.th.tx.done) := by
  rw [ha]
  rfl

section
variable {s : State} {c : Mask} (hl : s.level s.th = 0)
include hl

theorem State.th_landed : ((s.acquireNow s.work.cur 2).mapTh (fun t => t.landed c)).th = s.th.landed c
    ∧ ((s.acquireNow s.work.cur 2).mapTh (fun t => t.landed c)).work.cur = s.work.cur := by
  obtain ⟨hth, hcur⟩ := State.th_acquireNow hl 2
  exact ⟨by rw [State.th_mapTh, hth], hcur⟩

/-- Where every lane has committed, the transaction ends. -/
theorem State.finishCommit_all (d : BitVec 7) (hc : s.th.tx.tm &&& ~~~c = 0) : ∃ u, s.finishCommit d c = .done u
    ∧ u.th = (s.th.landed c).committed.mapRegs (fun r => r.setS (s.th.abs d) (s.th.tx.done ||| c)) := by
  obtain ⟨hth, -⟩ := State.th_landed hl (c := c)
  generalize ha : (s.acquireNow s.work.cur 2).mapTh (fun t => t.landed c) = a at hth
  have hclear : (((a.dropSigs s.work.cur).clearSpec a.th.cache).releaseLock s.work.cur).th = s.th.landed c := hth
  have htm : a.th.tx.tm = s.th.tx.tm := by
    rw [hth]
    rfl
  rw [State.finishCommit_eq s d c ha.symm, htm, if_neg (fun hne => hne hc)]
  exact ⟨_, rfl, by rw [State.th_setS, State.th_mapTh, hclear, hth]; rfl⟩

/-- Where some have not, they try again. -/
theorem State.finishCommit_rest (d : BitVec 7) (hc : s.th.tx.tm &&& ~~~c ≠ 0) (hb : s.th.tx.fbk = false)
    (ha : s.th.tx.att + 1 < s.th.tx.budget) (h15 : s.th.tx.att < 15) : ∃ u, s.finishCommit d c = .moved u
    ∧ u.th = ((s.th.landed c).retried 1 (s.th.tx.tm &&& ~~~c)).endRegion true := by
  obtain ⟨hth, hcur⟩ := State.th_landed hl (c := c)
  generalize he : (s.acquireNow s.work.cur 2).mapTh (fun t => t.landed c) = a at hth hcur
  have hk : a.thread s.work.cur = s.th.landed c := by rw [← hcur]; exact hth
  have hretry : (a.retry s.work.cur 1 (s.th.tx.tm &&& ~~~c)).thread s.work.cur = (s.th.landed c).retried 1 (s.th.tx.tm &&& ~~~c) := by
    rw [State.thread_retry 1 _ (by rw [hk]; exact hb) (by rw [hk]; exact ha) (by rw [hk]; exact h15), hk]
  have hcur' : (a.retry s.work.cur 1 (s.th.tx.tm &&& ~~~c)).work.cur = s.work.cur :=
    (State.cur_of_seats (a.seats_retry _ _ _)).trans hcur
  have htm : a.th.tx.tm = s.th.tx.tm := by
    rw [hth]
    rfl
  rw [State.finishCommit_eq s d c he.symm, htm, if_pos hc]
  refine ⟨_, rfl, (State.th_of_cur ((State.mapThread_cur _ _ _).trans hcur')).trans ?_⟩
  rw [State.thread_mapThread, hretry]

end

/-! ## TXEND -/

theorem State.afterRelease_done {s u : State} {scope : Nat} {f : State → Res} (h : s.release scope = (u, some 0)) :
    s.afterRelease scope f = f u := by
  simp only [State.afterRelease, h, State.unlessRace, if_true]

/-- TXEND in the last word of a clause passes the checks of R187. -/
theorem verdict_txend {s : State} {d : BitVec 7} (h : Ready s .every [] [s.th.abs d] []) (hw : s.th.lastWord = true) :
    verdict s.th { distaff := true, illegal := !s.th.lastWord, ends := true, sdests := [s.th.abs d] } = .go := by
  apply verdict_plain h <;> simp [hw]

theorem exec_txend_outside {s : State} {d : BitVec 7} (h : Ready s .every [] [s.th.abs d] []) (hw : s.th.lastWord = true)
    (hx : Outside s) : exec (.txend d) s = .next (passedOut (s.setS d 0)) := by
  refine congrArg Host.Outcome.next ((State.issue_go s _ _ h.1 (verdict_txend h hw)).trans ?_)
  simp only [hx, Bool.not_false, if_true, Res.finish]
  rfl

/-- With its ticket taken and every slice written, TXEND commits the lanes that its wait names. -/
theorem exec_txend_ticket {s : State} {d : BitVec 7} {k : Nat} {c : Mask} (h : Ready s .every [] [s.th.abs d] [])
    (hw : s.th.lastWord = true) (hl : s.th.tx.live = true) (hwait : s.th.wait = .commit k [] c false) (hk : k ≠ 0)
    (hlevel : s.level s.th = 0) (hresv : ∀ r ∈ s.mem.resv, r.agent ≠ s.work.cur) :
    exec (.txend d) s = .next ((s.finishCommit d c).finish true) := by
  have hany : (s.mem.resv.any fun r => r.agent == s.work.cur && !r.atomic) = false :=
    List.any_eq_false.2 fun r hr => by simp [hresv r hr]
  refine congrArg Host.Outcome.next ((State.issue_go s _ _ h.1 (verdict_txend h hw)).trans ?_)
  simp only [hl, hwait, hany, hk, State.acquireReady_level hlevel, Bool.not_true, Bool.false_eq_true, decide_false, Bool.or_false,
    if_false, if_true]

section
variable {s u : State} {d : BitVec 7} (h : Ready s .every [] [s.th.abs d] []) (hw : s.th.lastWord = true)
  (hl : s.th.tx.live = true) (hwait : s.th.wait = .none) (hrel : s.release 2 = (u, some 0)) (hlock : u.svc.fblHolder = none)
include h hw hl hwait hrel hlock

/-- With entries, TXEND waits for a ticket once its release is complete. -/
theorem exec_txend_waits (hs : u.sigSlices u.work.cur ≠ []) : exec (.txend d) s = .next (u.mapTh (fun t =>
    { t with wait := .commit 0 (u.sigSlices u.work.cur) t.tx.tm false })) := by
  have hcur : s.work.cur = u.work.cur := (State.cur_of_seats (State.seats_release (by decide) hwait hrel)).symm
  have hempty : (u.sigSlices u.work.cur).isEmpty = false := by simpa using hs
  refine congrArg Host.Outcome.next ((State.issue_go s _ _ h.1 (verdict_txend h hw)).trans ?_)
  simp only [hl, hwait, State.afterRelease_done hrel, hlock, hcur, hempty, Option.isSome_none, Bool.not_true, Bool.false_and,
    Bool.false_eq_true, if_false, Res.finish]

/-- Without entries it commits every lane at once. -/
theorem exec_txend_alone (hs : u.sigSlices u.work.cur = []) (hlevel : u.level u.th = 0) :
    exec (.txend d) s = .next ((u.finishCommit d u.th.tx.tm).finish true) := by
  have hcur : s.work.cur = u.work.cur := (State.cur_of_seats (State.seats_release (by decide) hwait hrel)).symm
  have hempty : (u.sigSlices u.work.cur).isEmpty = true := by simp [hs]
  refine congrArg Host.Outcome.next ((State.issue_go s _ _ h.1 (verdict_txend h hw)).trans ?_)
  simp only [hl, hwait, State.afterRelease_done hrel, hlock, hcur, hempty, Option.isSome_none, Bool.not_true, Bool.false_and,
    Bool.false_eq_true, if_false, if_true, State.acquireReady_level hlevel]

end

/-! ## The threads that these words leave -/

/-- TXBEGIN: the transaction is open, the destination 0, and the thread at the next header. -/
theorem thread_txbegin {s : State} (d : BitVec 7) (n : Nat) (hw : s.th.lastWord = true) :
    let t := (passed ((s.mapTh (fun t => t.opened d n)).setS d 0)).th
    t.fetch = ⟨s.th.nextHdr, 0, []⟩ ∧ t.regs = s.th.regs.setS (s.th.abs d) 0 ∧ t.tx = (s.th.opened d n).tx := by
  have hu : ((s.mapTh (fun t => t.opened d n)).setS d 0).th = (s.th.opened d n).mapRegs (fun r => r.setS (s.th.abs d) 0) := by
    rw [State.th_setS, State.th_mapTh]
    rfl
  obtain ⟨hregs, htx, -⟩ := ((s.mapTh (fun t => t.opened d n)).setS d 0).advance_keeps false
  refine ⟨State.fetch_advance ?_ hw false, hregs.trans ?_, htx.trans ?_⟩ <;> rw [hu] <;> rfl

/-- TXEND that commits every lane: the transaction is over, and the thread at the next header. -/
theorem thread_txend_all {s u : State} {d : BitVec 7} {c : Mask} (hw : s.th.lastWord = true)
    (hu : u.th = (s.th.landed c).committed.mapRegs (fun r => r.setS (s.th.abs d) (s.th.tx.done ||| c))) :
    let t := (u.advance true).th
    t.tx.live = false ∧ t.wait = .none ∧ t.regs.s (s.th.abs d) = (s.th.tx.done ||| c) ∧ t.fetch = ⟨s.th.nextHdr, 0, []⟩ := by
  obtain ⟨hregs, htx, hwait⟩ := u.advance_keeps true
  have hfetch : (u.advance true).th.fetch = ⟨s.th.nextHdr, 0, []⟩ := by
    refine State.fetch_advance ?_ hw true
    rw [hu]
    rfl
  simp only [hregs, htx, hwait, hfetch, hu]
  exact ⟨rfl, rfl, Regs.s_setS _ _ _, trivial⟩

/-- TXEND that leaves lanes uncommitted: they are the transaction's at its next attempt, which begins at RH. -/
theorem thread_txend_rest {s u : State} {c f : Mask} (hu : u.th = ((s.th.landed c).retried 1 f).endRegion true) :
    u.th.tx.live = s.th.tx.live ∧ u.th.tx.tm = f ∧ u.th.tx.done = (s.th.tx.done ||| c) ∧ u.th.tx.cause = 1
      ∧ u.th.tx.att = s.th.tx.att + 1 ∧ u.th.regs.s s.th.tx.rd = 0 ∧ u.th.fetch = ⟨s.th.tx.rh, 0, []⟩ := by
  simp only [hu, Thread.endRegion_tx, Thread.endRegion_regs, Thread.endRegion_fetch]
  exact ⟨rfl, rfl, rfl, rfl, rfl, Regs.s_setS _ _ _, rfl⟩

/-- Table 14.6, its two flags as the bits that they set. -/
theorem Trans.stat_eq (x : Trans) : x.stat = BitVec.ofNat 64 (x.cause * 2 ^ 56 + (if x.cause = 4 then x.code else 0) * 2 ^ 49
    + x.att * 2 ^ 44 + (if x.fbk then 2 ^ 43 else 0) + (if x.live then 2 ^ 42 else 0)) := by
  have hbit (b : Bool) (n : Nat) : bit b * n = if b then n else 0 := by cases b <;> simp [bit]
  rw [Trans.stat, hbit, hbit]

/-- Settles O41: each word by its lemma, and what it leaves of the thread by those above. -/
theorem transactionWords : Obligations.TransactionWords := by
  intro s s' d n m h
  have h0 : Ready s .every [] [] [] := Thread.ready_sub h (by simp) (by simp) (by simp)
  refine ⟨fun hx hw => ⟨?begin, exec_txend_outside h hw hx⟩,
    fun hl hw hwait hrel hlock => ⟨fun hs hlevel => ?alone, fun hs => exec_txend_waits h hw hl hwait hrel hlock hs⟩,
    fun tk c hl hw hwait htk hlevel hresv => ⟨fun hc => ?all, fun hc hb ha h15 => ?rest⟩, ?abort,
    (exec_txstat h).trans (by rw [Trans.stat_eq])⟩
  case begin =>
    obtain ⟨hfetch, hregs, htx⟩ := thread_txbegin d m.toNat hw
    refine ⟨_, exec_txbegin m h hx hw, ⟨rfl, fun _ _ => rfl⟩, hfetch, ?_⟩
    rw [hregs, htx]
    exact ⟨Regs.s_setS _ _ _, rfl, rfl, rfl, rfl, rfl, rfl, rfl, rfl, rfl, rfl, fun r hr => Regs.s_setS_ne _ _ _ _ hr⟩
  case alone =>
    have hth : s'.th = s.th := State.th_release (by decide) hwait hrel hlevel
    obtain ⟨u, hu, hthu⟩ := State.finishCommit_all hlevel (c := s'.th.tx.tm) d (BitVec.and_not_self _)
    obtain ⟨hlive, -, hreg, hfetch⟩ := thread_txend_all (by rw [hth]; exact hw) hthu
    refine ⟨_, exec_txend_alone h hw hl hwait hrel hlock hs hlevel, ?_⟩
    rw [hu]
    exact ⟨hlive, by rw [← hth]; exact hreg, hfetch⟩
  case all =>
    obtain ⟨u, hu, hthu⟩ := State.finishCommit_all hlevel d hc
    refine ⟨_, exec_txend_ticket h hw hl hwait htk hlevel hresv, ?_⟩
    rw [hu]
    exact thread_txend_all hw hthu
  case rest =>
    obtain ⟨u, hu, hthu⟩ := State.finishCommit_rest hlevel d hc hb ha h15
    refine ⟨_, exec_txend_ticket h hw hl hwait htk hlevel hresv, ?_⟩
    rw [hu, ← hl]
    exact thread_txend_rest hthu
  case abort =>
    split
    case isTrue hl =>
      have hth : ((s.mapTh (fun t => { t with tx := { t.tx with code := n.toNat } })).final s.work.cur 4).th = _ :=
        (State.thread_final _ s.work.cur 4).trans (congrArg (fun t => Thread.ended t 4) (s.th_mapTh _))
      refine ⟨_, exec_txabort_live n h0 hl, fun a key => rfl, ?_⟩
      rw [hth]
      exact ⟨rfl, rfl, rfl, Thread.ended_rd _ 4, rfl, rfl⟩
    case isFalse hl => exact exec_txabort_outside n h0 (Bool.eq_false_iff.2 hl)

end Sys2Proof.Machine
end
